-- ==== Sys2Proof/Word.lean ====
section
/-! DEFINITION. The machine's words: bytes, process-image words, and the T80 time of day. -/

namespace Sys2Proof

/-- A byte of a wire encoding, a memory or a record. -/
abbrev Byte := BitVec 8

/-- A process-image word: 12 status bits above a 20-bit value (R32). -/
abbrev Word := BitVec 32

/-- A 20-bit value: signed fixed point with the binary point of its entry (Table 0.1). -/
abbrev Q := BitVec 20

/-- A 48-bit accumulator. -/
abbrev Acc := BitVec 48

/-- A T80 time of day: TAI seconds (48 bits) and nanoseconds (32 bits) on the PTP epoch (R9). -/
structure T80 where
  sec : Nat
  ns  : Nat
  deriving DecidableEq, Repr, Inhabited

/-- The T80 value 0. -/
def T80.zero : T80 := ⟨0, 0⟩

/-- The T80 value `n` nanoseconds after the PTP epoch; seconds are kept modulo 2^48. -/
def T80.ofNs (n : Nat) : T80 := ⟨n / 1000000000 % 2 ^ 48, n % 1000000000⟩

/-- Nanoseconds since the PTP epoch. -/
def T80.toNs (t : T80) : Nat := t.sec * 1000000000 + t.ns

end Sys2Proof
end

