-- ==== Sys2Proof/Machine/Sparse.lean ====
section
/-! DEFINITION. Sparse maps in one canonical form: keys strictly rising, and no entry equal to what its unlisted key reads as.
They hold the process image, the loop memory, the dictionary cells and every large table of the module. -/

namespace Sys2Proof.Machine

/-- A sparse map from numbers. What an unlisted key reads as is a function `d` of the key, given to each operation. -/
abbrev Sparse (α : Type) := List (Nat × α)

/-- Read one key. -/
def Sparse.get {α : Type} (d : Nat → α) : Sparse α → Nat → α
  | [], k => d k
  | (k', v) :: m, k => if k' = k then v else Sparse.get d m k

/-- Drop every entry of one key. -/
def Sparse.erase {α : Type} : Sparse α → Nat → Sparse α
  | [], _ => []
  | (k', v) :: m, k => if k' = k then Sparse.erase m k else (k', v) :: Sparse.erase m k

/-- Put an entry before the first entry of a higher key. -/
def Sparse.insert {α : Type} (k : Nat) (v : α) : Sparse α → Sparse α
  | [] => [(k, v)]
  | (k', v') :: m => if k < k' then (k, v) :: (k', v') :: m else (k', v') :: Sparse.insert k v m

/-- Write one key. Writing what the unlisted key reads as removes the entry, so equal maps are equal lists. -/
def Sparse.set {α : Type} [DecidableEq α] (d : Nat → α) (m : Sparse α) (k : Nat) (v : α) : Sparse α :=
  if v = d k then Sparse.erase m k else Sparse.insert k v (Sparse.erase m k)

/-- Apply a function to one key's value. -/
def Sparse.mod {α : Type} [DecidableEq α] (d : Nat → α) (m : Sparse α) (k : Nat) (f : α → α) : Sparse α :=
  Sparse.set d m k (f (Sparse.get d m k))

/-- Every key of the map lies above `n`, and keys rise strictly. -/
def Sparse.risesFrom {α : Type} : Option Nat → Sparse α → Bool
  | _, [] => true
  | lo, (k, _) :: m => (match lo with | none => true | some l => decide (l < k)) && Sparse.risesFrom (some k) m

/-- The canonical form: keys strictly rising, no entry equal to what its key reads as when unlisted. -/
def Sparse.wf {α : Type} [DecidableEq α] (d : Nat → α) (m : Sparse α) : Bool :=
  Sparse.risesFrom none m && m.all (fun e => decide (e.2 ≠ d e.1))

end Sys2Proof.Machine
end

