-- ==== Sys2Proof/Machine/Types.lean ====
section
/-! DEFINITION. The data types of the machine: what commands carry, and the parts of the module that State puts together. -/

namespace Sys2Proof.Machine

/-! ### Operands of commands -/

/-- What every secure ODP frame carries besides its request: the session, the sequence number of the secure frame (R65, R66), whether its tag is good, and the request id (R68). -/
structure Frame where
  session : Nat
  seq : Nat
  tagOk : Bool
  id : Nat
  deriving DecidableEq, Repr

/-- An ODP request (Table 2.10). -/
structure Req where
  fr : Frame
  op : Nat
  flags : Nat
  index : Nat
  sub : Nat
  operand : Nat
  data : List Byte
  deriving DecidableEq, Repr

/-- A CLIENT_HELLO (R64) as it is reassembled from its datagrams. -/
structure Hello where
  /-- The client's transport address, as a number, and as text. -/
  peer : Nat
  addr : List Byte
  /-- 0 KR0, 1 KR1, 2 service port. -/
  link : Nat
  /-- Role asked for: 0 OBSERVER to 3 SERVICE. -/
  role : Nat
  nonce : List Byte
  key : List Byte
  chain : List Byte
  /-- All bytes of the message. -/
  bytes : List Byte
  deriving DecidableEq, Repr

/-- A CAN frame (R305, R309). -/
structure CanMsg where
  /-- ID word: IDE [31], FDF [30], BRS [29], ID [28:0]. -/
  idw : Nat
  data : List Byte
  deriving DecidableEq, Repr

/-- What the pins and converters of the module give at one sample instant (R12). -/
structure Capture where
  /-- Channel readings in Q0.19 of the mode's range before factory calibration, by channel; absent ones read 0. -/
  analog : List (Nat × Int)
  /-- Channels whose supervision current finds the terminals open (R277). -/
  openCh : List Nat
  /-- Bank terminal sensors, on the 2,048 °C scale, by bank. -/
  cjc : List (Nat × Int)
  /-- Discrete input levels, bit i. -/
  di : Nat
  /-- Discrete output terminals, bit i. -/
  doTerm : Nat
  /-- L+ present, per output group. -/
  lplus : Nat
  /-- Limit and home inputs: bit 0 limit+, bit 1 limit−, bit 2 home, bit 3 Z, by axis; absent ones read 0. -/
  axis : List (Nat × Nat)
  /-- Measured residual of the analogue capture edge, in ps (2801h:0C). -/
  residual : Int
  deriving DecidableEq, Repr

/-- Conditions of Table 4.11. -/
inductive Cond where
  | al | eq | ne | lt | ge | gt | le | vs | vc | ts | tc | ss | sc
  deriving DecidableEq, Repr

/-- A-type operations (Table 4.8). -/
inductive AluOp where
  | add | sub | neg | abs | min | max | shr | shl | mov | movi | movh | cmp | sel | clmp | clmd | dbnd
  | tagt | tags | tago | atrn | aadd | asub | clrs | sqrt | tlkp
  deriving DecidableEq, Repr

/-- L-type operations with an offset (Table 4.9). -/
inductive LsOp where
  | lds | sts | ldc | ldv | stv | sto
  deriving DecidableEq, Repr

/-- The fields of an M-type instruction (Table 4.5). -/
structure MFields where
  ad : Fin 4
  xs : Fin 16
  init : Fin 8
  neg : Bool
  sat : Bool
  wb : Fin 4
  xd : Fin 16
  c6 : Fin 64
  s7 : Fin 128
  deriving DecidableEq, Repr

/-- The fields of an A-type instruction (R139). -/
structure AFields where
  xd : Fin 16
  xa : Fin 16
  xb : Fin 16
  sat : Bool
  imm : Fin 4096
  deriving DecidableEq, Repr

/-- The fields of an L-type instruction with an offset (R140). -/
structure LFields where
  x : Fin 16
  p : Fin 4
  e : Bool
  off : Fin 512
  deriving DecidableEq, Repr

/-- The fields of LDP and ADDP (R140). -/
structure PFields where
  x : Fin 16
  p : Fin 4
  imm : BitVec 16
  e : Bool
  deriving DecidableEq, Repr

/-- A lane instruction (R137 to R141). -/
inductive LaneOp where
  | mac (f : MFields)
  | alu (op : AluOp) (f : AFields)
  | ls (op : LsOp) (f : LFields)
  /-- LDP, or ADDP when `add` is set. -/
  | ptr (add : Bool) (f : PFields)
  | b (c : Cond) (target : BitVec 16)
  /-- RPT: `n1` is n − 1. -/
  | rpt (n1 : Fin 1024) (step1 : Fin 16) (step2 : Fin 64)
  /-- RPTB: `k1` is k − 1 and `n1` is n − 1. -/
  | rptb (k1 : Fin 8) (n1 : Fin 256) (step1 : Fin 16) (step2 : Fin 64)
  | stop
  | nop
  | lpsup (target : BitVec 16)
  | lpout (e : Bool)
  deriving DecidableEq, Repr

/-- A Flint operand (R219): [19:17] space, [16:0] index. -/
structure FOperand where
  space : Fin 8
  index : Fin 131072
  deriving DecidableEq, Repr

/-- Flint's bit operations of format B (Table 7.4). -/
inductive FBit where
  | ld | and | or | xor | st | set | rst | andb | orb | xorb
  deriving DecidableEq, Repr

/-- Flint's compares (Table 7.4). -/
inductive FCmp where
  | gt | lt | ge | le | eq | ne
  deriving DecidableEq, Repr

/-- A Flint instruction (R220). -/
inductive FlintOp where
  | bit (op : FBit) (neg : Bool) (x : FOperand)
  | pop
  | not
  /-- `flagWord` is the S bit, `good` the G bit. -/
  | cmp (op : FCmp) (good : Bool) (flagWord : Bool) (w : Fin 4096) (c : Fin 4096)
  | movk (f : Fin 1024) (c : Fin 4096)
  | movi (f : Fin 1024) (w : Fin 4096)
  /-- 0 TON, 1 TOF, 2 TP. -/
  | timer (kind : Fin 3) (t : Fin 512)
  /-- 0 CTU, 1 CTD, 2 RSTC. -/
  | counter (kind : Fin 3) (c : Fin 256)
  | edge (falling : Bool) (e : Fin 8192)
  /-- 0 JMP, 1 JMPC, 2 JMPN. -/
  | jmp (kind : Fin 3) (target : Fin 131072)
  | nop
  | fend
  deriving DecidableEq, Repr

/-- What a CAN error event was (R325; ISO 11898-1 fault confinement). -/
inductive CanErr where
  /-- Arbitration lost: no count changes. -/
  | lostArbitration
  /-- Error detected while transmitting: TEC + 8. -/
  | transmit
  /-- Missing acknowledgement while error passive: TEC unchanged. -/
  | ackPassive
  /-- Error detected while receiving: REC + 1. -/
  | receive
  /-- Dominant bit after the receiver's own error flag: REC + 8. -/
  | receiveDominant
  deriving DecidableEq, Repr

/-- A PTP message other than an Announce, as its link's MAC and the PTP software see it (R400, R403). Times are in ns on the PTP epoch. -/
structure PtpMsg where
  link : Fin 3
  domain : Nat
  /-- Sender's clockIdentity and port number. -/
  identity : Nat
  port : Nat
  seq : Nat
  twoStep : Bool
  /-- originTimestamp, preciseOriginTimestamp or receiveTimestamp. -/
  origin : Int
  /-- correctionField, in units of 2^-16 ns. -/
  correction : Int
  /-- Clock and port that a Delay_Resp answers. -/
  toIdentity : Nat
  deriving DecidableEq, Repr

/-- A PTP Announce (R401, R413). -/
structure Announce where
  link : Fin 3
  domain : Nat
  identity : Nat
  port : Nat
  /-- The PTP timescale flag; ARB masters are refused. -/
  ptpScale : Bool
  gm : Nat
  priority1 : Nat
  clockClass : Nat
  accuracy : Nat
  variance : Nat
  priority2 : Nat
  stepsRemoved : Nat
  utcOffset : Int
  utcValid : Bool
  leap61 : Bool
  leap59 : Bool
  deriving DecidableEq, Repr

/-- The identity a pair's member reports when it forms (R418, R423). -/
structure Partner where
  part : List Byte
  runtime : Nat
  rom : Nat
  serial : List Byte
  enable : Bool
  /-- SLOT[3:0] of the partner. -/
  slot : Nat
  deriving DecidableEq, Repr

/-- One boot flash slot as the boot ROM finds it (R475): the image bytes with their signature block; empty for none. -/
abbrev BootSlot := List Byte

/-! ### Dictionary -/

/-- The dictionary's cells. A key is index × 256 + sub (R40). A number cell holds the raw wire value (Table 2.1); a block cell holds the bytes of a STR or a DOM.
Only cells that differ from the entry's default are listed. -/
structure Dict where
  /-- Values last written: the shadow of an RWS entry (R46), the written value of an RW entry (R45). -/
  shadow : Sparse Nat
  /-- Values in effect: the live copy of an RWS entry (R46), the value an RW entry has taken effect with (R45). -/
  live : Sparse Nat
  /-- Values of RO entries that the module sets. -/
  stat : Sparse Nat
  /-- Shadow of STR and DOM entries. -/
  shadowB : Sparse (List Byte)
  /-- Live copy of STR and DOM entries. -/
  liveB : Sparse (List Byte)
  /-- Bytes of RO STR and DOM entries that the module sets. -/
  statB : Sparse (List Byte)
  deriving DecidableEq, Repr

/-! ### Function state table -/

/-- The state of a function (R51, Table 2.6). -/
inductive FState where
  | stopped | starting | running | stopping
  deriving DecidableEq, Repr

/-- One function's state entries (Table 2.6). -/
structure FuncRec where
  /-- `func[f].state`. -/
  st : FState
  /-- `func[f].expected_crc`. -/
  expectedCrc : Nat
  /-- `func[f].crc_armed`. -/
  armed : Bool
  /-- `func[f].start_crc`. -/
  startCrc : Nat
  /-- `func[f].restart_pending`. -/
  restart : Bool
  /-- `func[f].start_ignored`. -/
  ignored : Nat
  /-- `func[f].last_error`. -/
  lastError : Nat
  /-- `func[f].last_change`; none reads FFFF_FFFF_FFFF_FFFFh. -/
  lastChange : Option Nat
  /-- `func[f].start_cancelled`. -/
  cancelled : Nat
  deriving DecidableEq, Repr

/-- A function that no command has reached (Table 2.6 defaults). -/
def FuncRec.init : FuncRec := ⟨.stopped, 0, false, 0, false, 0, 0, none, 0⟩

/-! ### Control tick -/

/-- The discipline state of the tick (R35). -/
inductive Discipline where
  | free | aligning | locked | holdover | stretched
  deriving DecidableEq, Repr

/-- 2801h:03. -/
def Discipline.code : Discipline → Nat
  | .free => 0 | .aligning => 1 | .locked => 2 | .holdover => 3 | .stretched => 4

/-- The base tick (chapter 1). Its RO entries of index 2801h that are plain counters or measurements stand in the dictionary's cells. -/
structure Tick where
  /-- The running epoch; none while no epoch runs (R37, R523). -/
  epoch : Option Nat
  /-- 2801h:01: the current epoch, or the last one (R37). -/
  lastEpoch : Nat
  /-- Core cycle within the tick (R11). -/
  cycle : Nat
  /-- 2801h:03 (R35). -/
  disc : Discipline
  /-- Cycles by which the sample instants lag the TAI grid while ALIGNING (R36). -/
  lag : Int
  /-- 2801h:02 (R38). -/
  epoch0 : T80
  /-- The last sample instant, in units of 2^-32 ns of the time counter. -/
  instant : Nat
  /-- The T80 that acquisition latched at each group's last sample instant is derived from this epoch-0 time; the sample instant's own T80. -/
  instantT : T80
  /-- The core clock period in picoseconds: 5,000 at the nominal 200 MHz (R7, R35 STRETCHED). -/
  periodPs : Nat
  /-- Per group, 1 + the sample epoch whose marshalling has begun, and whose strobe has been made. -/
  marsh : Sparse Nat
  strobed : Sparse Nat
  /-- Core cycles from epoch 0's sample instant to this tick's, and to each group's last one: the sum of the ticks' lengths. -/
  abs : Nat
  groupAbs : Sparse Nat
  /-- What the gather port has overwritten in this tick, in order: address, cycle of the write, word before it. -/
  old : List (Nat × Nat × Word)
  /-- Words gathered in this tick, and the cycle of its last gather write (2801h:0A, :0B show those of the last one). -/
  gathered : Nat
  gatherEnd : Nat
  deriving DecidableEq, Repr

/-! ### Pending writes -/

/-- An accepted write that waits for its owner's next sample instant (R45). -/
structure PendW where
  /-- The entry's key. -/
  key : Nat
  /-- The raw value. -/
  val : Nat
  /-- The owning function, if the entry has one. -/
  owner : Option Nat
  /-- The writing session's id; 0 where the write came from elsewhere. -/
  session : Nat
  deriving DecidableEq, Repr

/-! ### ODP sessions -/

/-- A session role (R64), and the power order of roles. -/
inductive Role where
  | observer | operator | engineer | service
  deriving DecidableEq, Repr

/-- A response to an ODP request (Table 2.10). -/
structure Resp where
  session : Nat
  id : Nat
  op : Nat
  status : Nat
  index : Nat
  sub : Nat
  operand : Nat
  data : List Byte
  deriving DecidableEq, Repr

/-- A request kept with its response for repeats (R69). -/
structure Kept where
  req : Req
  resp : Option Resp
  deriving DecidableEq, Repr

/-- An open session (R63 to R69). -/
structure Session where
  /-- Session id. -/
  id : Nat
  /-- Place 0 to 7 in index 1850h + i. -/
  place : Nat
  role : Role
  /-- 0 KR0, 1 KR1, 2 service port. -/
  link : Nat
  /-- Peer address as text. -/
  peer : List Byte
  /-- Time of SERVER_FINISH. -/
  opened : T80
  /-- SHA-384 of the client leaf. -/
  clientFp : List Byte
  /-- The 72 bytes of the session keys and nonce salts (R65). -/
  keys : List Byte
  /-- Idle timeout in seconds, as it stood when the session opened (0220h:02). -/
  idleS : Nat
  /-- Highest accepted sequence number, host to module. -/
  rxHigh : Nat
  /-- Accepted sequence numbers among the 64 below it. -/
  rxSeen : List Nat
  /-- Last sequence number sent, module to host. -/
  tx : Nat
  /-- The last 32 request ids with their requests and responses (R69). -/
  kept : List Kept
  deriving DecidableEq, Repr

/-- A handshake in progress (R64). -/
structure Handshake where
  /-- The client's transport address, as a number the sender chooses. -/
  peer : Nat
  /-- The same address as text. -/
  addr : List Byte
  link : Nat
  /-- Role asked for. -/
  role : Role
  /-- Handshake bytes so far: CLIENT_HELLO then SERVER_HELLO. -/
  bytes : List Byte
  clientNonce : List Byte
  serverNonce : List Byte
  clientKey : List Byte
  /-- The client's chain. -/
  chain : List Byte
  deriving DecidableEq, Repr

/-- An open segmented DOM write (R74). -/
structure DomWrite where
  key : Nat
  session : Nat
  total : Nat
  data : List Byte
  /-- Offset and bytes of the last accepted segment. -/
  last : Option (Nat × List Byte)
  deriving DecidableEq, Repr

/-- A DOM value held for a session (R76). -/
structure DomRead where
  key : Nat
  session : Nat
  data : List Byte
  deriving DecidableEq, Repr

/-- A held export object (R79). -/
structure Export where
  session : Nat
  kind : Nat
  inst : Nat
  data : List Byte
  /-- Time of the INIT. -/
  time : T80
  deriving DecidableEq, Repr

/-- A subscription (R77, R78). -/
structure Subscription where
  handle : Nat
  session : Nat
  period : Nat
  onChange : Bool
  keys : List Nat
  /-- Values of the last NOTIFY. -/
  last : Option (List Byte)
  /-- NOTIFYs sent. -/
  count : Nat
  deriving DecidableEq, Repr

/-- A SAVE in progress (R60). -/
structure SaveRun where
  session : Nat
  req : Req
  bank : Nat
  seq : Nat
  deriving DecidableEq, Repr

/-- The dictionary server (chapter 2). -/
structure Odp where
  sessions : List Session
  handshakes : List Handshake
  /-- Session id given last; ids are given in rising order. -/
  lastId : Nat
  /-- Accepted RW and WO writes not yet in effect, oldest first. -/
  pend : List PendW
  /-- Host writes to free process-image words not yet applied, oldest first: address and value (R34). -/
  pendWords : List (Nat × Q)
  domWrites : List DomWrite
  domReads : List DomRead
  exports : List Export
  subs : List Subscription
  lastHandle : Nat
  save : Option SaveRun
  /-- Responses withheld until the standby holds the change (R70), with the change's number. -/
  withheld : List (Nat × Resp)
  deriving DecidableEq, Repr

/-! ### Agate -/

/-- An event as a block raises it, before Agate numbers it (Table 12.1). -/
structure Event where
  source : Nat
  code : Nat
  /-- FLAGS. -/
  flags : Nat
  time : T80
  /-- Epoch at the stamp; none reads FFFF_FFFF_FFFF_FFFFh (R372). -/
  epoch : Option Nat
  /-- Bytes 30 to 57. -/
  body : List Byte
  deriving DecidableEq, Repr

/-- An admitted record (R378). -/
structure Rec where
  seq : Nat
  /-- REPEAT: 0 in an opening record, the folded count in a closing one. -/
  rep : Nat
  ev : Event
  /-- A clear stands in the queue in this record's place (R390): old last SEQ, lost count and clearing session are filled when it is written. -/
  clear : Bool
  deriving DecidableEq, Repr

/-- An open repeat window (R381). -/
structure RepWin where
  /-- The opening event. -/
  opening : Event
  /-- The last folded occurrence. -/
  lastEv : Event
  folded : Nat
  /-- Its length in ms, as `agate.repeat_window` stood when it was opened (R381). -/
  len : Nat
  deriving DecidableEq, Repr

/-- The store descriptor (R386). -/
structure Descr where
  base : Nat
  clearTime : T80
  lost : Nat
  firstLost : T80
  lastLost : T80
  deriving DecidableEq, Repr

/-- The descriptor of a store never cleared. -/
def Descr.init : Descr := ⟨0, T80.zero, 0, T80.zero, T80.zero⟩

/-- Agate's volatile part (chapter 12). -/
structure Agate where
  /-- Events raised in the present cycle and not yet admitted. -/
  raised : List Event
  /-- Admitted records, in SEQ order. -/
  queue : List Rec
  /-- The SEQ that the next admission takes. -/
  nextSeq : Nat
  windows : List RepWin
  /-- The run of drops since the queue was last found full: time of the first drop and count (R379). -/
  dropRun : Option (Event × Nat)
  /-- 0C05h has been admitted since the last clear (R387). -/
  warned : Bool
  /-- Number of committed records (`agate.used`). -/
  used : Nat
  /-- The working descriptor. -/
  descr : Descr
  deriving DecidableEq, Repr

/-! ### Clocks, power, module, boot -/

/-- Progress of the oscillator start (R454). -/
inductive ClkStage where
  | off | rcCount | tcxoCount | plls | run
  deriving DecidableEq, Repr

/-- A clocked island (Table 1.4). -/
inductive Island where
  | loop | mgmt | time | fieldBus | analog | motion | dram
  deriving DecidableEq, Repr

/-- The phase of a ride-through (R467, R468). -/
inductive RidePhase where
  | none | full | persist | held
  deriving DecidableEq, Repr

/-- Where the module stands in Table 17.8 and after it. -/
inductive Insertion where
  | out | seated | charging | charged | rails | released | removed
  deriving DecidableEq, Repr

/-- Clocks, power states and ride-through (chapter 15). The entries of 1000h, 1020h + b and 1100h stand in the dictionary's cells. -/
structure Power where
  stage : ClkStage
  /-- Islands whose source switch is under way (R457). -/
  switching : List Island
  /-- Islands that have completed their start or switch since power-on. -/
  onPll : List Island
  /-- Gate requests not yet acknowledged, by block (R460). -/
  gateReq : List Nat
  /-- Entry to DEEP is under way (R462). -/
  deepEntry : Bool
  ride : RidePhase
  /-- Power state to return to when the input is restored in FULL (R467). -/
  prevState : Nat
  /-- Core-independent time since PFAIL, in microseconds. -/
  sincePfail : Nat
  /-- Length of the running PERSIST, in microseconds. -/
  persistUs : Nat
  /-- Bytes of persistence work still to write, and those of them that are the journal's (R469). -/
  workBytes : Nat
  journalBytes : Nat
  /-- The input stands restored while PERSIST runs, so a boot follows (R468). -/
  inputGood : Bool
  insertion : Insertion
  /-- A thermal trip holds the module in reset (R493). -/
  thermalHold : Bool
  /-- PWR_OK as the module drives it. -/
  pwrOk : Bool
  /-- The ideal diode of the bank is on (R504). -/
  diode : Bool
  /-- The bank charger runs (R504). -/
  charger : Bool
  /-- The Gneiss domain runs on the module supply (R504). -/
  gneissMain : Bool
  /-- Output stages, discrete outputs and transceivers are enabled (R468, R513). -/
  outputs : Bool
  /-- Cause of the boot to come (0200h:04). -/
  nextCause : Nat
  /-- The boot ROM recovery holds the module (R475). -/
  recovery : Bool
  /-- DRAM training or ECC initialisation failed at this boot (R516). -/
  dramFault : Bool
  /-- Step 3 of R514 is done at this boot. -/
  booted : Bool
  deriving DecidableEq, Repr

/-! ### Non-volatile memory -/

/-- The body of a configuration bank (R59). -/
structure BankBody where
  /-- Shadows of RWS entries. -/
  rws : Sparse Nat
  rwsB : Sparse (List Byte)
  /-- RW entries of 1000h to 3FFFh. -/
  rw : Sparse Nat
  rwB : Sparse (List Byte)
  /-- Functions whose boot state is RUNNING. -/
  running : List Nat
  deriving DecidableEq, Repr

/-- A configuration bank (R60). -/
structure Bank where
  /-- The header's marker and CRC are correct. -/
  header : Bool
  /-- The body's CRC is correct. -/
  bodyOk : Bool
  seq : Nat
  time : T80
  /-- Number of the snapshot, by which the bytes of its body go (R60 lays none out). -/
  num : Nat
  body : BankBody
  deriving DecidableEq, Repr

/-- The bank pointer (R60). -/
structure BankPtr where
  byte0 : Nat
  byte1 : Nat
  seq : Nat
  deriving DecidableEq, Repr

/-! ### Loop engine -/

/-- What one period of a slot has brought so far, outside its 512 bytes. -/
structure SlotRun where
  /-- Epoch of the period's sample instant; none before the first period. -/
  epoch : Option Nat
  /-- A swap took effect at the period's sample instant (R103). -/
  swapped : Bool
  /-- A mode request took effect at the period's sample instant (R98). -/
  modeReq : Bool
  /-- A manual-output write took effect at the period's sample instant (R101). -/
  manWrite : Bool
  /-- The slot of `loop[n].cas_inner` stood in CAS at the sample instant (R98). -/
  innerCas : Bool
  /-- The period is the first after START (R110). -/
  first : Bool
  /-- The last period ended held by stale policy HOLD, so the next good one takes m_prev := m (Table 3.9). -/
  wasHeld : Bool
  /-- The word staged for the output address. -/
  staged : Option Word
  /-- The word staged for the setpoint publication address. -/
  spStaged : Option Word
  /-- Status cells to be written at the strobe: offset, bytes, value (R96). -/
  status : List (Nat × Nat × Nat)
  /-- Events of the period, posted at the strobe: code (R108). -/
  codes : List Nat
  /-- Cycle, from the sample instant, at which the result was staged. -/
  finish : Option Nat
  /-- The result was not final at the marshalling start (R106). -/
  late : Bool
  /-- The computation has ended. -/
  ended : Bool
  /-- The local setpoint, the manual output and the requested mode as they stood at the period's sample instant (R91). -/
  sp0 : Int
  man0 : Int
  req0 : Nat
  deriving DecidableEq, Repr

/-- A slot that has run no period. -/
def SlotRun.init : SlotRun :=
  ⟨none, false, false, false, false, false, false, none, none, [], [], none, false, false, 0, 0, 0⟩

/-- The loop engine (chapter 3). -/
structure Loop where
  /-- Loop memory: 512 KB, byte-addressed (R82). -/
  mem : Sparse Byte
  /-- Periods, by slot. -/
  runs : Sparse SlotRun
  /-- Groups whose overrun action applies from their next sample instant, with the slot that reached the limit (R107). -/
  overDue : List (Nat × Nat)
  /-- Stopped slots whose output word is written at the strobe of the period that began at their stop (R111): slot and group. -/
  stopDue : List (Nat × Nat)
  /-- Characteristic tables before their last change: table, epoch of the change, the 33 points then (R87). -/
  tabOld : List (Nat × Nat × List Nat)
  /-- Lane-cycles of each group's operations in the running period (2810h+g:07). -/
  load : Sparse Nat
  /-- Least slack of each group since its START (2810h+g:05); none before the first result. -/
  slack : Sparse (Option Int)
  deriving DecidableEq, Repr

/-! ### Basalt lanes -/

/-- Condition flags (R123). -/
structure Flags where
  n : Bool
  z : Bool
  v : Bool
  t : Bool
  sv : Bool
  deriving DecidableEq, Repr

/-- What LPSUP hands to LPOUT (R146). -/
structure Sup where
  /-- 0 law, 1 tracking preset (R99), 2 swap preset (R103), 3 HOLD, 4 HOLD with a swap, 5 first AUTO period (R110). -/
  path : Nat
  mode : Nat
  /-- The fixed output of a preset path, in Q0.19. -/
  fixed : Int
  /-- Output as last written (R93). -/
  oPrev : Int
  e : Int
  /-- m - m_prev, saturated. -/
  dm : Int
  /-- Feed-forward value. -/
  ff : Int
  complHi : Bool
  complLo : Bool
  /-- The mode fixes the output without the law: SUBST is set in SAFE (Table 3.7). -/
  subst : Bool
  /-- Status flags found so far (Table 3.6). -/
  flags : Nat
  deriving DecidableEq, Repr

/-- One register bank of a lane (R114, R115). Registers not listed hold 0. -/
structure RegBank where
  x : Sparse Q
  t : Sparse (BitVec 12)
  a : Sparse Acc
  p : Sparse (BitVec 16)
  flags : Flags
  /-- Words that the operation's LDV instructions read, by the offset of their address cell. -/
  raw : Sparse Word
  sup : Option Sup
  /-- The x value that the last init-from-x instruction took: the standard kernel's w. -/
  w : Q
  deriving DecidableEq, Repr

/-- A register bank at the entry of an operation, before its pointers are set (R115). -/
def RegBank.clear : RegBank := ⟨[], [], [], [], ⟨false, false, false, false, false⟩, [], none, 0⟩

/-- An operation that a lane runs or holds (R132, R166). -/
structure OpCtx where
  desc : Nat
  kind : Nat
  /-- The slot whose memory is bound; none for a MOVE. -/
  slot : Option Nat
  group : Nat
  /-- Epoch of the instance. -/
  epoch : Nat
  /-- The operation runs image code: kernel entry number, 0 for ROM. -/
  kernel : Nat
  /-- Declared or exact cost in lane-cycles (R134). -/
  budget : Nat
  res : Nat
  rcnt : Nat
  arg : Nat
  deriving DecidableEq, Repr

/-- An instruction in flight (Table 4.3). -/
structure InFlight where
  op : LaneOp
  /-- The register bank it works in. -/
  bank : Bool
  ctx : OpCtx
  /-- The stage it does next: 1 D, 2 M, 3 A, 4 W. -/
  stage : Nat
  /-- Cycle, from the instance's sample instant, in which it was issued (the last one, where it takes several). -/
  index : Nat
  /-- Pointer steps that take effect at its D stage: p1 and p2 in bytes (R128). -/
  step1 : Int
  step2 : Int
  /-- It ends its operation (R133). -/
  last : Bool
  /-- Address formed in D. -/
  addr : Nat
  /-- C operand, and the cell above it. -/
  c : Int
  c2 : Int
  /-- S init or multiplicand cell, as read. -/
  s : Int
  /-- Product, loaded value, store data or accumulator, as the stage left it. -/
  v : Int
  /-- Tag or word read or to be stored. -/
  tag : Nat
  /-- A saturation acted. -/
  sat : Bool
  /-- The instruction was issued from this address. -/
  pc : Nat
  deriving DecidableEq, Repr

/-- A repeat being issued (R128, R129). -/
structure Rep where
  /-- Instructions in the block. -/
  k : Nat
  /-- Passes still to begin after the present one. -/
  left : Nat
  /-- Position of the next instruction in the block. -/
  pos : Nat
  /-- Address of the block. -/
  base : Nat
  step1 : Int
  step2 : Int
  /-- A pass has ended, so the next one moves the pointers as it begins. -/
  again : Bool
  deriving DecidableEq, Repr

/-- Why an operation is about to be ended from outside (R131, R134). -/
inductive AbortKind where
  | abort | budget
  deriving DecidableEq, Repr

/-- A Basalt lane (R114). -/
structure Lane where
  bank0 : RegBank
  bank1 : RegBank
  /-- The bank that the running or last operation uses. -/
  cur : Bool
  op : Option OpCtx
  pc : Nat
  /-- Issue cycles of the running operation (R134). -/
  count : Nat
  /-- Cycle, from the instance's sample instant, of the operation's first issue. -/
  start : Nat
  /-- Delay-slot instructions still to issue (R127). -/
  delay : Nat
  /-- Address that issue goes to after the delay slots. -/
  target : Option Nat
  rep : Option Rep
  pipe : List InFlight
  prefetch : Option OpCtx
  /-- A held-off abort or budget event (R131). -/
  abort : Option AbortKind
  /-- Halted over the test port (R484). -/
  halted : Bool
  deriving DecidableEq, Repr

/-- A lane that has run nothing. -/
def Lane.init : Lane :=
  ⟨RegBank.clear, RegBank.clear, false, none, 0, 0, 0, 0, none, none, [], none, none, false⟩

/-! ### Dataflow dispatcher -/

/-- A descriptor (Table 5.3). -/
structure Desc where
  kind : Nat
  group : Nat
  slot : Nat
  entry : Nat
  nin : Nat
  ins : List Nat
  res : Nat
  rcnt : Nat
  rsv : Nat
  arg : Nat
  deriving DecidableEq, Repr

/-- Where an instance stands. -/
inductive IState where
  | waiting | ready | late | prefetched | running
  deriving DecidableEq, Repr

/-- An instance of a descriptor (R160). -/
structure Inst where
  desc : Nat
  group : Nat
  epoch : Nat
  /-- Producers whose tag has been accepted. -/
  got : List Nat
  st : IState
  /-- Absolute deadline, in cycles from epoch 0's sample instant (R164). -/
  deadline : Nat
  /-- Absolute cycle in which it became ready. -/
  readyAt : Nat
  /-- It has entered the late class (R168). -/
  wasLate : Bool
  /-- Absolute cycle of its pop into a prefetch slot. -/
  popAt : Nat
  deriving DecidableEq, Repr

/-- The dispatcher (chapter 5). -/
structure Disp where
  /-- Live descriptors; absent ones are none (R154). -/
  live : Sparse (Option Desc)
  insts : List Inst
  /-- Input tags of this epoch have been released (R18). -/
  released : Option Nat
  /-- Tags issued and not yet taken: producer and tag. -/
  tags : List (Nat × BitVec 64)
  /-- Hook signals of the tick: hook number, group, epoch (R160). -/
  hooks : List (Nat × Nat × Nat)
  deriving DecidableEq, Repr

/-! ### Slate -/

/-- The state of a run (Table 6.6). -/
inductive RunState where
  | idle | running | held | aborting | done | aborted
  deriving DecidableEq, Repr

/-- A stage of a run (R189, R191). -/
structure Stage where
  step : Nat
  /-- 0 or 1 run-ahead, 2 the abort stage, 3 a resolved or start step built from the reservation. -/
  path : Nat
  depth : Nat
  /-- Actions other than NOP. -/
  entries : Nat
  built : Bool
  deriving DecidableEq, Repr

/-- Where a taken exit leads (R181). -/
inductive NextStep where
  | step (k : Nat) | hold | abort | finish
  deriving DecidableEq, Repr

/-- What falls due for a run at the strobe of the period (R193, R197 to R200). -/
inductive Due where
  /-- Nothing. -/
  | none
  /-- A resolution, with the exit taken; a miss commits one base tick late. -/
  | resolved (next : NextStep) (exit : Nat) (miss : Bool)
  /-- The start step of a RUN. -/
  | start (step : Nat)
  /-- The abort stage, with the reason of Table 6.10. -/
  | abort (reason : Nat)
  deriving DecidableEq, Repr

/-- An exit of a step (Table 6.3). -/
structure RecipeExit where
  kind : Nat
  hook : Nat
  next : Nat
  word : Nat
  a : Int
  b : Int
  qual : Nat
  deriving DecidableEq, Repr

/-- An action of a step (R182). -/
structure RecipeAction where
  kind : Nat
  sub : Nat
  target : Nat
  value : Nat
  deriving DecidableEq, Repr

/-- A run of a recipe (R177). -/
structure Run where
  st : RunState
  /-- Current step; none with no run. -/
  step : Option Nat
  stepEpoch : Nat
  /-- Elapsed count (R178). -/
  elapsed : Nat
  /-- Exit taken into the current step. -/
  lastExit : Option Nat
  /-- QUAL counts of the current step's exits (R185). -/
  quals : List Nat
  /-- Outcome of each exit in this period; none where not yet evaluated. -/
  results : List (Option Bool)
  /-- A CONTINUE is pending. -/
  cont : Bool
  /-- Hooks of the recipe group signalled for this epoch. -/
  hooks : List Nat
  due : Due
  /-- A missed step waits for its late commit (R197): step, exit, and whether its due strobe has passed. -/
  late : Option (Nat × Nat × Bool)
  stages : List Stage
  /-- Entries reserved (R190). -/
  reserved : Nat
  /-- Entries of the recipe group the run has been evaluated at: epoch of the last evaluation. -/
  evalEpoch : Option Nat
  deriving DecidableEq, Repr

/-- A recipe that has no run. -/
def Run.init : Run :=
  ⟨.idle, none, 0, 0, none, [], [], false, [], .none, none, [], 0, none⟩

/-- Slate (chapter 6). -/
structure Slate where
  runs : Sparse Run
  /-- Held value of each valve word (R188). -/
  valves : Sparse Nat
  /-- Valve values committed for the coming strobe: valve and value. -/
  committed : List (Nat × Nat)
  /-- Valve words to be written once with their initial value at their group's strobe (R188): group, address, value. -/
  stopWrite : List (Nat × Nat × Q)
  /-- Stages waiting to be built, in the order of R189: recipe and stage. -/
  building : List (Nat × Stage)
  deriving DecidableEq, Repr

/-! ### Flint -/

/-- An override entry or a flag word of the image: word address, group, safe or initial value (Table 7.5). -/
structure FlintWord where
  addr : Nat
  group : Nat
  val : Q
  deriving DecidableEq, Repr

/-- A task table entry (Table 7.6). -/
structure FlintTaskCfg where
  entry : Nat
  period : Nat
  phase : Nat
  tol : Nat
  bound : Nat
  deriving DecidableEq, Repr

/-- A retain-map entry (R238). -/
structure RetainMap where
  kind : Nat
  clear : Bool
  src : Nat
  dst : Nat
  deriving DecidableEq, Repr

/-- A program image, taken apart (Table 7.5). -/
structure FlintImage where
  pid : Nat
  tasks : List FlintTaskCfg
  inputs : List Nat
  consts : List Q
  ovr : List FlintWord
  flags : List FlintWord
  tpre : List Nat
  cpre : List Nat
  retain : List RetainMap
  code : List Nat
  deriving DecidableEq, Repr

/-- The image of a Flint that has run none. -/
def FlintImage.empty : FlintImage := ⟨0, [], [], [], [], [], [], [], [], []⟩

/-- A pending operation on the branch stack (R218). -/
inductive FStackOp where
  | and | or | xor
  deriving DecidableEq, Repr

/-- A Flint task (R206 to R209, R218). -/
structure FlintTask where
  /-- A cycle has started and its buffer is not yet released. -/
  active : Bool
  /-- The cycle's END has issued. -/
  ended : Bool
  acc : Bool
  stack : List (Bool × FStackOp)
  pc : Nat
  /-- Input image: the words of the input list at the snapshot (R207). -/
  image : List Word
  /-- Epoch of the cycle's release tick. -/
  epoch : Nat
  /-- Permit bits of the output buffer. -/
  permits : Sparse Bool
  /-- Flag-word values of the output buffer. -/
  flags : Sparse Q
  /-- Core cycles since the snapshot. -/
  spent : Nat
  /-- First cycle after the task's START (SX 2). -/
  first : Bool
  /-- First cycle after a switch (SX 3). -/
  switched : Bool
  /-- The last release was late (SX 4). -/
  late : Bool
  /-- The task's first release lies behind it. -/
  released : Bool
  deriving DecidableEq, Repr

/-- A task that has run no cycle. -/
def FlintTask.init : FlintTask :=
  ⟨false, false, false, [], 0, [], 0, [], [], 0, false, false, false, false⟩

/-- A timer (R224). -/
structure FTimer where
  running : Bool
  /-- Epoch of its start; before epoch 0 for a count resumed from the journal (R236). -/
  start : Int
  prev : Bool
  q : Bool
  /-- Elapsed ticks at the last evaluation. -/
  elapsed : Nat
  deriving DecidableEq, Repr

def FTimer.init : FTimer := ⟨false, 0, false, false, 0⟩

/-- A counter (R225). -/
structure FCounter where
  cv : Nat
  prev : Bool
  q : Bool
  deriving DecidableEq, Repr

def FCounter.init : FCounter := ⟨0, false, false⟩

/-- Flint's retained data (R235), and the markers that are not retained. -/
structure FData where
  markers : Sparse Bool
  timers : Sparse FTimer
  counters : Sparse FCounter
  edges : Sparse Bool
  deriving DecidableEq, Repr

def FData.init : FData := ⟨[], [], [], []⟩

/-- The state of an online change (R237). -/
inductive ChangeState where
  | none | loaded | pending
  deriving DecidableEq, Repr

/-- Flint (chapter 7). -/
structure Flint where
  img : FlintImage
  loaded : Option FlintImage
  change : ChangeState
  /-- Epoch of the tick in which SWITCH took effect. -/
  switchAt : Nat
  tasks : Sparse FlintTask
  data : FData
  /-- Permits of the override table (R213). -/
  permits : Sparse Bool
  /-- Values last released for the flag words (R216). -/
  flags : Sparse Q
  /-- Flag words whose next writes carry STALE: of faulted tasks. -/
  staleFlags : List Nat
  /-- Flag words of stopped tasks, written no more until their task runs again (R209). -/
  silent : List Nat
  /-- Flag words to be written once with STALE = 1 at their next strobe (R209, R216). -/
  onceStale : List (Nat × FlintWord)
  /-- The override table as each open marshalling window read it: group and active entries (R215). -/
  window : List (Nat × List FlintWord)
  /-- The task whose instructions issue now. -/
  running : Option Nat
  /-- Entries keep applying with every permit 0 after Flint's stop (R217). -/
  holdOvr : Bool
  deriving DecidableEq, Repr

/-! ### Motion -/

/-- The state of an axis (Table 8.2). -/
inductive AxisState where
  | disabled | standstill | moving | stopping | interrupted | homing | following | stepin | fault
  deriving DecidableEq, Repr

/-- What an axis's present or interrupted motion is (R247, R254, R255). -/
inductive MoveKind where
  | move | follow | stepin | group | homing
  deriving DecidableEq, Repr

/-- The homing sequence (R262). -/
inductive HomePhase where
  | none | search | stop | creep | index | finish
  deriving DecidableEq, Repr

/-- A speed profile: position, target, speed, direction (R248). Positions are in 2^-16 microsteps, speeds in 2^-32 microsteps per tick. -/
structure Profile where
  p : Int
  t : Int
  v : Int
  dir : Int
  deriving DecidableEq, Repr

/-- A following spread (R254). -/
structure Spread where
  /-- T. -/
  target : Int
  /-- Ps. -/
  from_ : Int
  /-- Segments done. -/
  i : Nat
  /-- D. -/
  d : Nat
  deriving DecidableEq, Repr

/-- A motion axis (chapter 8). -/
structure Axis where
  st : AxisState
  prof : Profile
  /-- Top speed set by SET_VMAX or JOG; 0 for the configured one. -/
  vmaxCmd : Int
  /-- Top speed of a JOG in progress; 0 for none. -/
  jogV : Int
  kind : MoveKind
  gtarget : Int
  homed : Bool
  enabled : Bool
  /-- Sample instants since ENABLE turned on (R253). -/
  enTicks : Nat
  /-- Fault code of 3130h+a:0A. -/
  fault : Nat
  lastResult : Nat
  /-- The running stop is hard. -/
  stopHard : Bool
  /-- Deceleration of the running ramped stop. -/
  stopDec : Int
  /-- The running stop ends in FAULT. -/
  toFault : Bool
  /-- The function's STOP waits for v = 0 (R267). -/
  stopFunc : Bool
  /-- Last Nj end positions, newest last (R250). -/
  hist : List Int
  /-- Emitted position at the start and end of the current segment (R251). -/
  seg0 : Int
  seg1 : Int
  /-- Profile at the start of the segment, before the stops of its instant. -/
  before : Profile
  /-- State at the start of the segment, before the stops of its instant. -/
  beforeSt : AxisState
  /-- Motion cycles from the last STEP edge to the segment's start; negative while that edge is still due. -/
  sinceStep : Int
  /-- Encoder: hardware count, previous captured count, last A and B levels, encoder position. -/
  encHw : BitVec 32
  encCount : BitVec 32
  encAB : Nat
  encPos : Int
  zLevel : Bool
  zPos : Int
  /-- P at the Z edge of the present creep. -/
  zRef : Option Int
  /-- Commanded positions of the last 16 instants, newest first (R265). -/
  cmdHist : List Int
  stallCount : Nat
  deviation : Int
  /-- Limit and home inputs as last read, qualification and release counts, latches (R260). -/
  inPos : Bool
  inNeg : Bool
  inHome : Bool
  qualPos : Nat
  qualNeg : Nat
  relPos : Nat
  relNeg : Nat
  latchPos : Bool
  latchNeg : Bool
  inhibit : Bool
  followLag : Bool
  spread : Option Spread
  /-- Follow value that has arrived and is not yet taken (R254). -/
  followWord : Option Word
  /-- Follow value that reaches the axis only after the coming instant (Table 1.3). -/
  followNext : Option Word
  /-- STEPIN: motion cycle, counted from epoch 0, and direction of each microstep still to be emitted; motion cycle of the last coarse step. -/
  siTimes : List (Nat × Int)
  siLast : Option Nat
  /-- Direction of the last step. -/
  lastDir : Int
  homeMode : Nat
  homePhase : HomePhase
  /-- Reference position. -/
  homeRef : Option Int
  /-- P where the present search or creep began. -/
  homeFrom : Int
  deriving DecidableEq, Repr

/-- An axis that has never run. -/
def Axis.init : Axis where
  st := .disabled
  prof := ⟨0, 0, 0, 1⟩
  vmaxCmd := 0
  jogV := 0
  kind := .move
  gtarget := 0
  homed := false
  enabled := false
  enTicks := 0
  fault := 0
  lastResult := 0
  stopHard := false
  stopDec := 0
  toFault := false
  stopFunc := false
  hist := []
  seg0 := 0
  seg1 := 0
  before := ⟨0, 0, 0, 1⟩
  beforeSt := .disabled
  sinceStep := 4000
  encHw := 0
  encCount := 0
  encAB := 0
  encPos := 0
  zLevel := false
  zPos := 0
  zRef := none
  cmdHist := []
  stallCount := 0
  deviation := 0
  inPos := false
  inNeg := false
  inHome := false
  qualPos := 0
  qualNeg := 0
  relPos := 0
  relNeg := 0
  latchPos := false
  latchNeg := false
  inhibit := false
  followLag := false
  spread := none
  followWord := none
  followNext := none
  siTimes := []
  siLast := none
  lastDir := 1
  homeMode := 0
  homePhase := .none
  homeRef := none
  homeFrom := 0

/-- An interpolation group (R256, R257). -/
structure MGroup where
  /-- 0 idle, 1 moving, 2 stopping, 3 interrupted, 4 fault. -/
  st : Nat
  leader : Option Nat
  /-- Progress profile: p is s, t is L. -/
  prof : Profile
  hist : List Int
  /-- Emitted progress. -/
  out : Int
  before : Profile
  beforeSt : Nat
  /-- Members with their start and signed distance. -/
  members : List (Nat × Int × Int)
  stopHard : Bool
  deriving DecidableEq, Repr

def MGroup.init : MGroup := ⟨0, none, ⟨0, 0, 0, 1⟩, [], 0, ⟨0, 0, 0, 1⟩, 0, [], false⟩

/-- An axis command on its way to a sample instant (R245): axis, code, operand as a signed 32-bit number. -/
structure AxisCmd where
  axis : Nat
  code : Nat
  operand : Int
  deriving DecidableEq, Repr

/-- The motion unit. -/
structure Motion where
  axes : Sparse Axis
  groups : Sparse MGroup
  /-- Slate's committed commands, in order of arrival; they come before host writes (R245). -/
  slateCmds : List AxisCmd
  /-- Slate's commands that reach the motion island only after the coming instant. -/
  slateNext : List AxisCmd
  deriving DecidableEq, Repr

/-! ### Onboard I/O and sample trunk -/

/-- An onboard channel (chapter 9). -/
structure Chan where
  /-- Last driven value. -/
  drive : Q
  /-- The word has been driven since START (R279). -/
  written : Bool
  /-- The stage is enabled. -/
  stage : Bool
  /-- COMPL state (R280). -/
  compl : Bool
  /-- Consecutive evaluated instants with COMPL (R281). -/
  complCount : Nat
  alarm : Bool
  /-- Core cycle, counted from epoch 0, of the last strobe that changed the drive by more than the band (R280). -/
  changedAt : Option Nat
  failAct : Bool
  openCircuit : Bool
  /-- In a VALID = 0 band of Table 9.3: 1 low, 2 high. -/
  band : Nat
  cjcBad : Bool
  flagOvr : Bool
  flagUndr : Bool
  /-- The drive was clamped at the last strobe (R275): 1 high, 2 low. -/
  clamped : Nat
  deriving DecidableEq, Repr

def Chan.init : Chan :=
  ⟨0, false, false, false, 0, false, none, false, false, 0, false, false, false, 0⟩

/-- A sample-trunk link (R293 to R300). -/
structure Trunk where
  /-- Blocks of this tick that have landed. -/
  landed : List Nat
  /-- Consecutive lost frames. -/
  lost : Nat
  /-- A frame whose header passed has come this tick. -/
  seen : Bool
  /-- A START waits for the satellite's answer (R300): session and request. -/
  waiting : Option (Nat × Req)
  /-- COMPL of each output channel, by channel (R296). -/
  compl : List Nat
  deriving DecidableEq, Repr

def Trunk.init : Trunk := ⟨[], 0, false, none, []⟩

/-- Onboard I/O. -/
structure Io where
  chans : Sparse Chan
  /-- Consecutive instants at which each discrete input has read its new level, and the time it first did (R288, R289). -/
  diCount : Sparse Nat
  diSince : Sparse Nat
  /-- Level read first in the running qualification: bit i. -/
  diState : Nat
  diRaw : Nat
  /-- Latched states as driven, points held off by a fault, points whose readback disagreed at the last instant. -/
  doLatch : Nat
  doOff : Nat
  doMism : Nat
  /-- Cause of each standing point fault. -/
  doCause : Sparse Nat
  /-- A bank fault stands: bank and cause (R283). -/
  bankFault : Sparse Nat
  /-- Bank faults and recoveries to be recorded at the next sample instant: bank and detail. -/
  bankNote : List (Nat × Nat)
  /-- Core cycle, counted from epoch 0, of the last change of each point's latch (R292). -/
  doChanged : Sparse Nat
  trunks : Sparse Trunk
  deriving DecidableEq, Repr

/-! ### Field-bus ports -/


/-- A frame held in a transmit object or queued (R310, R311, R321). -/
structure PendFrame where
  msg : CanMsg
  /-- Tick in which it became pending, counted from the engine's START. -/
  tick : Nat
  /-- Deadline in ticks. -/
  deadline : Nat
  /-- The frame has started. -/
  started : Bool
  /-- The frame stands on the wire past its arbitration field, and a cancel was refused (R324). -/
  cancelLate : Bool
  /-- A cancel stands while the frame arbitrates (R324). -/
  cancelArb : Bool
  deriving DecidableEq, Repr

/-- A transmit object: the frame on the wire or pending, and one that waits behind it (R311). -/
structure TxObj where
  cur : Option PendFrame
  next : Option PendFrame
  /-- Outcome of the last frame (Table 10.3). -/
  status : Nat
  deriving DecidableEq, Repr

def TxObj.init : TxObj := ⟨none, none, 0⟩

/-- A station (R327 to R330). -/
structure Station where
  /-- 0 OFFLINE, 1 ONLINE, 2 LOST. -/
  st : Nat
  misses : Nat
  good : Nat
  /-- Payload of the last input frame taken. -/
  data : List Byte
  /-- A frame has been taken since the last instant of the group. -/
  fresh : Bool
  /-- A frame has been taken since the start of the station's window or of its checking period. -/
  inWindow : Bool
  deriving DecidableEq, Repr

def Station.init : Station := ⟨0, 0, 0, [], false, false⟩

/-- What a port has on the wire. -/
inductive OnWire where
  | none | obj (o : Nat) | queued (msg : CanMsg)
  deriving DecidableEq, Repr

/-- A field-bus port (chapter 10). -/
structure Port where
  /-- 0 off, 1 integrating, 2 ERROR_ACTIVE, 3 ERROR_PASSIVE, 4 BUS_OFF, 5 recovering, 6 SLEEP, 7 monitoring. -/
  bus : Nat
  tec : Nat
  recv : Nat
  objs : Sparse TxObj
  stations : Sparse Station
  queue : List PendFrame
  /-- Frames accepted by END, queued at the next sample instant (R321). -/
  sends : List (CanMsg × Nat)
  /-- Receive buffer: 96-byte records. -/
  rx : List (List Byte)
  /-- Drops since the buffer was last below full. -/
  rxDropping : Bool
  /-- Current basic cycle; none before the matrix starts. -/
  basic : Option Nat
  /-- The window that is open: number. -/
  window : Option Nat
  wire : OnWire
  /-- Sleep has been asked for and not reached (R331). -/
  sleepReq : Bool
  /-- Sleep asked for in BUS_OFF waits for recovery (R331). -/
  sleepAfter : Bool
  /-- Another node's frame holds the bus after a lost arbitration. -/
  busy : Bool
  /-- Core cycle, counted from epoch 0, in which the frame on the wire started. -/
  sof : Nat
  /-- Stations whose window has ended and is still to be checked (R318). -/
  checkDue : List Nat
  deriving DecidableEq, Repr

def Port.init : Port := ⟨0, 0, 0, [], [], [], [], [], false, none, none, .none, false, false, false, 0, []⟩

/-! ### Acquisition -/

/-- One sample: the whole 32-bit word or its equivalent (R341, R342). -/
abbrev Sample := BitVec 32

/-- A closed block of a list's channels (Table 11.3), before packing. -/
structure Block where
  epoch : Nat
  group : Nat
  first : Nat
  /-- Packing asked for: 0 raw, 1 delta. -/
  packing : Nat
  samples : List Sample
  /-- Reference values for delta coding (R351). -/
  refs : List Q
  deriving DecidableEq, Repr

/-- The state of a capture window (Table 11.4). -/
inductive WinState where
  | idle | armed | triggered | done | rearm | waitSlot
  deriving DecidableEq, Repr

/-- An accepted trigger (R358). -/
structure Trig where
  source : Nat
  detail : Nat
  epoch : Nat
  time : T80
  deriving DecidableEq, Repr

/-- A finished capture (Table 11.7). -/
structure Finished where
  number : Nat
  flags : Nat
  trig : Trig
  preCfg : Nat
  preValid : Nat
  postCfg : Nat
  postValid : Nat
  missed : Nat
  dead : Nat
  coincident : Nat
  group : Nat
  discipline : Nat
  epoch0 : T80
  /-- Channel entries with total skew. -/
  chans : List (List Byte)
  blocks : List Block
  deriving DecidableEq, Repr

/-- A capture window (R355 to R363). -/
structure Win where
  st : WinState
  /-- Sample instants of base ticks still to pass in REARM. -/
  rearm : Nat
  /-- Armed slot. -/
  slot : Nat
  /-- Epoch of the sample instant with which the ring starts. -/
  armedAt : Nat
  /-- Samples of the ring, oldest first. -/
  ring : List Block
  trig : Option Trig
  coinc : Nat
  /-- Samples taken from the trigger sample on. -/
  post : List Block
  /-- Consecutive true condition samples, and the previous condition sample (R359). -/
  qual : Nat
  prevCond : Option Sample
  missed : Nat
  missedSince : Nat
  deadTicks : Nat
  deadSince : Nat
  captures : Nat
  /-- Finished captures by slot, with their age order in `number`. -/
  slots : Sparse (Option Finished)
  /-- The token changed hands during the capture (R366). -/
  switchover : Bool
  /-- Event 0B03h has been recorded for this wait. -/
  waitNoted : Bool
  /-- Size and slot count that the finished captures were taken with (R363). -/
  shape : Nat × Nat
  deriving DecidableEq, Repr

def Win.init : Win :=
  ⟨.idle, 0, 0, 0, [], none, 0, [], 0, none, 0, 0, 0, 0, 0, [], false, false, (0, 0)⟩

/-- The acquisition engine (chapter 11). -/
structure Acq where
  /-- Words written in the period, not yet copied: addresses in order of marking. -/
  marks : List Nat
  /-- Copied samples of the open periods: (word or 2^18 + variable × 1024 + slot) × 2^64 + epoch. -/
  copied : Sparse (Option Sample)
  /-- Last closed sample of each channel. -/
  lastSample : Sparse (Option Sample)
  /-- Staged blocks of the stream, oldest first; a gap block has group 255. -/
  staging : List Block
  /-- First and last epoch of a run of dropped blocks, and whether 0B02h has been recorded for it. -/
  dropping : Option (Nat × Nat)
  /-- Attached session; 0 for none. -/
  session : Nat
  /-- Last SEQ sent. -/
  seq : Nat
  /-- Reference values of the stream's channels. -/
  refs : Sparse Q
  /-- Interval number of the last raw block of each group (R351). -/
  keyed : Sparse Nat
  wins : Sparse Win
  /-- TRIG_OUT pulses standing: bit k. -/
  trigOut : Nat
  /-- Per group, 1 + the epoch of the block closed last. -/
  closed : Sparse Nat
  /-- Raw bytes and sent bytes of the running second, and the epoch it began in (Table 11.8, ratio). -/
  ratioRaw : Nat
  ratioSent : Nat
  ratioFrom : Nat
  deriving DecidableEq, Repr

/-! ### Time unit and calendar -/

/-- The time unit's state (Table 13.1). -/
inductive TState where
  | unset | free | acquiring | locked | holdover | master
  deriving DecidableEq, Repr

/-- A Sync that waits for its Follow_Up (R403). -/
structure PendSync where
  seq : Nat
  /-- Ingress time at the medium, ns. -/
  t2 : Int
  /-- correctionField of the Sync. -/
  corr : Int
  deriving DecidableEq, Repr

/-- The time unit (chapter 13). Times are in ns unless another unit is named. -/
structure Time where
  /-- The counter, in units of 2^-32 ns since the PTP epoch (R396). -/
  ctr : Nat
  st : TState
  /-- 1400h:03. -/
  source : Nat
  /-- `time.increment`. -/
  incr : Nat
  /-- The servo's r and acc, in ppb (R403). -/
  rate : Rat
  acc : Rat
  /-- Last offset. -/
  offset : Int
  /-- Counter at the last measurement. -/
  lastMeas : Option Nat
  /-- Last offsets of the running first-lock check, newest first (R402). -/
  agree : List Int
  /-- Consecutive measurements within the lock window (R403). -/
  lockRun : Nat
  /-- Consecutive jump candidates (R405). -/
  jumpRun : Nat
  /-- Last 64 servo outputs, newest first (R404). -/
  outs : List Nat
  /-- Last 16 delay measurements, newest first (R403). -/
  delays : List Int
  /-- A PTP step has been made since power-on (R402). -/
  stepped : Bool
  /-- Counter was seeded or set since power-on (R399). -/
  seeded : Bool
  gmJump : Bool
  /-- The pending step: the last offset of a jump. -/
  pendStep : Int
  /-- `time.accept_step` waits for the next measurement (R406). -/
  accept : Bool
  /-- Counter at the entry to HOLDOVER; none once a measurement within the threshold has followed (R405). -/
  holdSince : Option Nat
  sync : Option PendSync
  /-- Last offset measurement's master-to-slave time t2 − t1. -/
  msDiff : Option Int
  /-- Delay_Req sent: sequence number and egress time at the medium. -/
  dreq : Option (Nat × Int)
  /-- Sequence number of the next Delay_Req, Sync and Announce sent. -/
  dreqSeq : Nat
  syncSeq : Nat
  annSeq : Nat
  /-- The current master. -/
  master : Option Announce
  /-- Acceptable Announces with their times of arrival in ns, one per link and sender, newest first. -/
  heard : List (Nat × Announce)
  /-- Time spent in the last HOLDOVER, in ns, until a measurement within the threshold has followed (R405). -/
  holdNs : Option Nat
  /-- Management messages answered (Table 13.2). -/
  managed : Nat
  /-- Steps made while the engine ran, not yet taken into 2801h:02 (R407). -/
  runStep : Int
  /-- 2801h:02's alignment sum stays a multiple of 2 ms (R407). -/
  aligned : Bool
  deriving DecidableEq, Repr

/-- The calendar in the Gneiss domain (R410 to R412). -/
structure Calendar where
  sec : Nat
  /-- 32.768 kHz cycles. -/
  cyc : Nat
  /-- CAL_LOST. -/
  lost : Bool
  deriving DecidableEq, Repr

/-! ### Redundant pair -/

/-- An accepted change on its way to its effective epoch (R427). -/
structure Change where
  num : Nat
  epoch : Nat
  req : Req
  deriving DecidableEq, Repr

/-- The mirror of one epoch as received (Table 14.5): gathered words in gather order, trunk words with their landing cycles, output words of unjoined functions, and whether its End has come. -/
structure Mirror where
  epoch : Nat
  input : List (Nat × Word)
  trunk : List (Nat × Nat × List (Nat × Word))
  outputs : List (Nat × Word)
  complete : Bool
  deriving DecidableEq, Repr

/-- A mirror section (Table 14.5). -/
inductive Section where
  | input (words : List (Nat × Word))
  | trunk (block : Nat) (cycle : Nat) (words : List (Nat × Word))
  | outputs (words : List (Nat × Word))
  | done
  deriving DecidableEq, Repr

/-- A decision of the holder (Table 14.6). -/
inductive Decision where
  /-- Slots whose results were not final at the strobe of a group. -/
  | notFinal (group : Nat) (slots : List Nat)
  /-- Instances retired: descriptors. -/
  | retired (group : Nat) (descs : List Nat)
  /-- Flint: tasks overrun, tasks faulted, and whether the release is the switch point. -/
  | flint (overrun : List Nat) (faulted : List Nat) (switch : Bool)
  /-- Hooks not used: recipe and exit. -/
  | hook (recipe exit : Nat)
  /-- Field-bus states of a port: bus state, TEC, REC, station states, object outcomes, and its status entries with their counters. -/
  | port (p bus tec recv : Nat) (stations objs : List (Nat × Nat)) (counts : Sparse Nat)
  /-- A trigger accepted by a window. -/
  | trigger (win source detail epoch : Nat) (time : T80)
  /-- A coarse STEP edge. -/
  | coarse (axis : Nat) (mc : Nat) (neg : Bool)
  /-- Last stream block sent of a group: epoch. -/
  | stream (group epoch : Nat)
  deriving DecidableEq, Repr

/-- A comparison value (Table 14.7): kind 0 strobe, 1 release, 2 record, 3 slot; group or slot; epoch; value. -/
structure Digest where
  kind : Nat
  which : Nat
  epoch : Nat
  value : Nat
  deriving DecidableEq, Repr

/-- The dynamic state of one function in a JOIN frame (R445). -/
inductive JoinState where
  | slot (n : Nat) (bytes : List Byte)
  | recipe (r : Nat) (run : Run)
  | slate (valves : Sparse Nat)
  | flint (d : FData) (permits : Sparse Bool) (flags : Sparse Q) (tasks : Sparse FlintTask) (counts : Sparse Nat)
  | axis (a : Nat) (x : Axis) (counts : Sparse Nat)
  | mgroup (g : Nat) (x : MGroup)
  | port (p : Nat) (x : Port) (counts : Sparse Nat)
  | chan (c : Nat) (x : Chan) (counts : Sparse Nat)
  /-- Discrete inputs: accepted states, levels read, filter counts and the times of their runs. -/
  | inputs (state raw : Nat) (count since : Sparse Nat) (counts : Sparse Nat)
  /-- Discrete outputs: latches, points switched off, mismatches, causes. -/
  | outputs (latch off mism : Nat) (cause : Sparse Nat) (counts : Sparse Nat)
  | window (w : Nat)
  | other (f : Nat)
  deriving DecidableEq, Repr

/-- What a BULK frame carries (Table 14.11). -/
inductive Bulk where
  /-- Shadow and live copies of the shared functions' RWS entries, DOMs included, and the functions whose boot state is RUNNING. -/
  | config (shadow live : Sparse Nat) (shadowB liveB : Sparse (List Byte)) (running : List Nat)
  /-- Committed event slots. -/
  | history (slots : List (Nat × List Byte))
  deriving DecidableEq, Repr

/-- What a frame carries, by type (Table 14.4). -/
inductive ItBody where
  | tick (disc : Discipline)
  | ack (nak : Bool) (seq : Nat)
  | mirror (sections : List Section)
  | change (ch : Change)
  | decision (d : Decision)
  | record (r : Rec)
  | digest (d : Digest)
  | forward (r : Req) (role : Role) (answer : Option Resp)
  | event (e : Event)
  | bulk (b : Bulk)
  | join (fn : Nat) (st : JoinState)
  | health (st reason lines : Nat) (pwrOk : Bool) (p : Partner)
  deriving DecidableEq, Repr

/-- TYPE of a frame (Table 14.4). -/
def ItBody.type : ItBody → Nat
  | .tick _ => 0x01 | .ack _ _ => 0x07 | .mirror _ => 0x02 | .change _ => 0x03 | .decision _ => 0x04 | .record _ => 0x05
  | .digest _ => 0x06 | .forward _ _ _ => 0x0A | .event _ => 0x0B | .bulk _ => 0x0C | .join _ _ => 0x0D | .health _ _ _ _ _ => 0x09

/-- A frame handed to the Itpel link (Table 14.3). -/
structure ItFrame where
  /-- FLAGS [0]. -/
  resend : Bool
  seq : Nat
  epoch : Nat
  body : ItBody
  deriving DecidableEq, Repr

/-- The redundancy unit (chapter 14). -/
structure Red where
  /-- `red.state`. -/
  st : Nat
  /-- The member drives HOLD. -/
  hold : Bool
  /-- The Lodestone drivers are powered (R504, R513). -/
  driving : Bool
  /-- `red.link_state`. -/
  link : Nat
  /-- One-way delay of the link in ns. -/
  delay : Nat
  partner : Option Partner
  /-- `red.state` that the partner's last HEALTH reported. -/
  partnerState : Nat
  /-- Qualified reading of the partner's lines: 0 RELEASE, 1 HOLD, 2 ambiguous. -/
  lines : Nat
  pwrOk : Bool
  reason : Nat
  wiring : Bool
  /-- STANDBY_FAULT: consecutive failed VERIFYs (R446). -/
  verifyFails : Nat
  /-- `red.resync_retry` has run since the last failure (R420). -/
  retryDue : Bool
  verifyCount : Nat
  /-- The member's own captures of the last sample instant, which a takeover uses (R424). -/
  capture : Option Capture
  /-- Bytes of the hardware-source records raised for an epoch, for the record digest (Table 14.7). -/
  recBytes : Sparse (List Byte)
  /-- Per slot, 1 + the epoch of its last slot digest (Table 14.7). -/
  slotDone : Sparse Nat
  /-- Functions joined in the present RESYNC, and the phase of Table 14.11. -/
  joined : List Nat
  phase : Nat
  /-- The member computes (R420, R433, R438). -/
  computing : Bool
  txSeq : Nat
  /-- Highest SEQ received in order; none before the first. -/
  rxSeq : Option Nat
  /-- Replay buffer: frames not acknowledged, oldest first, with their resends. -/
  replay : List (ItFrame × Nat)
  mirrors : List Mirror
  changes : List Change
  changeNo : Nat
  /-- Epoch of the last TICK frame. -/
  tickEpoch : Option Nat
  /-- Waiting for a missing mirror or TICK since the item was due (R426). -/
  waiting : Bool
  decisions : List (Nat × Decision)
  /-- The holder's own comparison values that wait for the standby's (R432), or the reverse. -/
  digests : List Digest
  /-- Records from the holder not yet committed (R431): epoch and record. -/
  recs : List (Nat × Rec)
  /-- Requests passed on: session, request (R429). -/
  forwards : List Req
  /-- A release cause waits for cycle 1 of the next tick: Table of R451, byte 31. -/
  releaseDue : Option Nat
  /-- The watchdog has expired since reset (R437). -/
  dogExpired : Bool
  /-- A claim by B waits for the further 2 µs (R435). -/
  claimWait : Bool
  /-- Cycle of the claim of a hot takeover, where the running tick is its T (R440). -/
  takeover : Option Nat
  /-- Flint tasks whose release fell in a retired tick (R440). -/
  owed : List Nat
  /-- Last epoch completed before a hot takeover (R440). -/
  lastDone : Nat
  /-- Own sample instants that have passed while the standby waits for its holder (R426). -/
  lag : Nat
  /-- The lockstep state, 2 or 3, that a lost link has suspended; 0 for none (R426). -/
  suspended : Nat
  /-- The qualified reading before the present one was HOLD (R435). -/
  fromHold : Bool
  /-- The standby's internal strobe is held for a late result (R428). -/
  strobeHeld : Bool
  deriving DecidableEq, Repr

/-! ### Security and debug -/

/-- A token in force (R485): kind and end of its validity. -/
structure Token where
  kind : Nat
  until_ : T80
  deriving DecidableEq, Repr

/-- The instruction register of the test access port (R483). -/
inductive JtagInstr where
  | bypass | idcode | sample | extest | intest | clamp | highz | vendor
  deriving DecidableEq, Repr

/-- A core or lane reachable at D2 (R483). -/
inductive DbgUnit where
  | core (k : Nat) | lane (l : Fin 16)
  deriving DecidableEq, Repr

/-- A register or memory of a halted core or lane (R483). -/
inductive DbgTarget where
  /-- Lane registers: bank, number. -/
  | x (bank : Bool) (i : Fin 16)
  | t (bank : Bool) (i : Fin 16)
  | a (bank : Bool) (i : Fin 4)
  | p (bank : Bool) (i : Fin 4)
  | pc
  /-- A byte of loop memory, physical address. -/
  | mem (addr : Nat)
  /-- A register or memory word of a management core. -/
  | coreWord (addr : Nat)
  deriving DecidableEq, Repr

/-- Security and debug state outside the dictionary's cells (chapter 16). -/
structure Sec where
  /-- `dbg.level`. -/
  level : Nat
  /-- Management cores halted. -/
  cores : List Nat
  /-- Registers and memories of halted management cores, by core × 2^40 + address. -/
  coreMem : Sparse Nat
  /-- The current challenge nonce, whether a token has been written against it, and the time of its challenge (R485). -/
  nonce : Option (List Byte × Bool × T80)
  /-- Tokens in force: kinds 1, 2 and 3. -/
  debugTok : Option Token
  serviceTok : Option Token
  rmaTok : Option Token
  report : List Byte
  /-- Fresh nonces drawn so far (server nonces and challenges). -/
  drawn : Nat
  slot : Nat
  runtimeSv : Nat
  runtimeVersion : Nat
  measurement : List Byte
  /-- Instruction register of the test port and data shifted out last. -/
  ir : JtagInstr
  dr : Nat
  /-- Pins driven by EXTEST, INTEST, CLAMP or HIGHZ from the boundary register. -/
  boundary : Nat
  pinsDriven : Bool
  /-- An accepted lifecycle transition waits for its reset (R482). -/
  lifecycleDue : Bool
  deriving DecidableEq, Repr

/-- Fuses (R481, R476): the target of each lifecycle row used, newest first; the security-version counter; and the rows whose erase-complete mark is missing. -/
structure Fuses where
  rows : List Nat
  sv : Nat
  eraseDue : Bool
  /-- The identity key and device secret are present (R482). -/
  keys : Bool
  deriving DecidableEq, Repr

/-! ### Non-volatile memory, whole -/

/-- A journal item (Table 14.13). -/
inductive JItem where
  | flint (d : FData) (pid : Nat) | recipe (r : Nat) (run : Run) | axis (a : Nat) (p t : Int) (homed : Bool)
  deriving DecidableEq, Repr

/-- The clean-down record (R468): time, work finished, energy. -/
structure CleanDown where
  time : T80
  cause : Nat
  lastPersistUs : Nat
  endUj : Nat
  minStep : Nat
  deriving DecidableEq, Repr

/-- MRAM and boot flash: what outlives power. -/
structure Nv where
  bank0 : Option Bank
  bank1 : Option Bank
  ptr : Option BankPtr
  /-- Event store slots that have been written (R383): the 64 bytes of each. -/
  store : Sparse (List Byte)
  /-- Copies A and B of the store descriptor. -/
  descrA : Option Descr
  descrB : Option Descr
  clean : Option CleanDown
  /-- Journal, newest copy of each item. -/
  journal : List JItem
  /-- Retained time (R409). -/
  retained : Option T80
  /-- Owner anchors: number, use, certificate. -/
  anchors : List (Nat × Nat × List Byte)
  powerUps : Nat
  removals : Nat
  aborted : Nat
  hours : Nat
  challenges : Nat
  /-- A SAVE has begun and has not ended (R61). -/
  saveOpen : Bool
  /-- `sec.slot_pref`, which the boot ROM reads (R475). -/
  slotPref : Nat
  /-- The two runtime slots of the boot flash (R475). -/
  flash0 : BootSlot
  flash1 : BootSlot
  deriving DecidableEq, Repr

/-! ### What leaves the module -/

/-- A message or drive that the module hands to a link or pin. -/
inductive Out where
  | resp (r : Resp)
  /-- SERVER_HELLO to a peer: bytes before the signature, and the signature. -/
  | serverHello (peer : Nat) (bytes : List Byte)
  /-- SERVER_FINISH to a peer: session and idle timeout. -/
  | serverFinish (peer session idle : Nat)
  | reject (peer status : Nat)
  | notify (session handle count : Nat) (epoch : Nat) (data : List Byte)
  | stream (session seq : Nat) (data : List Byte)
  | itpel (f : ItFrame)
  /-- A trunk downstream frame: link, epoch byte, HOLDER, group of outputs (8 for SYNC alone), records. -/
  | trunk (link epoch : Nat) (holder : Bool) (group : Nat) (recs : List Nat)
  /-- The map and configuration sent to a satellite (R300). -/
  | satConfig (link : Nat) (map : List Nat) (cfg : List Byte)
  | can (port : Nat) (m : CanMsg)
  | ptp (link kind seq : Nat) (time : Int) (to_ : Nat)
  | trigOut (k : Nat)
  | wake (port : Nat)
  deriving DecidableEq, Repr

end Sys2Proof.Machine
end

