-- ==== Sys2Proof/Syntax.lean ====
section
/-! DEFINITION. The commands the block takes: one constructor per row of the operation table, with the row's operands. -/

namespace Sys2Proof

open Sys2Proof.Machine

/-- A command. Each constructor's docstring gives the rule that governs the step. -/
inductive Instr where
  /-- R12: At cycle 0 of a base tick every island captures its inputs together, the gather port writes the captured and pending words, and the rate groups that sample in this tick begin their period. -/
  | sampleInstant (c : Capture)
  /-- R36: No time-unit strobe has arrived by the end of cycle 4,001, so the loop island starts the next tick itself at cycle 4,002, counts the miss and enters HOLDOVER. -/
  | missedStrobe (c : Capture)
  /-- R18: At cycle 400 the input tags of the epoch are released together, and the ready lists are loaded. -/
  | inputTagRelease
  /-- R22: At cycle Phi_g - 80 the output writer starts marshalling the group's outputs by precedence (override, force, Slate commit, final loop result). -/
  | marshallingStart (g : Fin 8)
  /-- R27: At cycle Phi_g the output writer moves every staged output of the group to its destination in one cycle. -/
  | outputStrobe (g : Fin 8)
  /-- R64: A CLIENT_HELLO is taken, admitted or rejected against the session and handshake limits, and answered with SERVER_HELLO. -/
  | clientHello (h : Hello)
  /-- R64: A CLIENT_FINISH is taken, its signature and role are checked, the keys are derived, and SERVER_FINISH opens the session. -/
  | clientFinish (peer : Nat) (bytes : List Byte)
  /-- R64: A handshake not complete within 5 s is discarded. -/
  | handshakeTimeout (peer : Nat)
  /-- R66: A session without an accepted frame for its idle timeout closes, ending its subscriptions and transfers. -/
  | sessionIdleTimeout (session : Nat)
  /-- R45: An ODP READ returns the value of one entry, or the shadow value with SHADOW. -/
  | read (r : Req)
  /-- R45: An ODP WRITE to an entry that has no row of its own is checked and stored, taking effect at the owner's next sample instant. -/
  | write (r : Req)
  /-- R73: An ODP READ_BLOCK returns consecutive entries, consistent word by word, or is refused whole. -/
  | readBlock (r : Req)
  /-- R72: An ODP WRITE_BLOCK is checked entry by entry against the state earlier entries would leave and applied in one step or refused whole. -/
  | writeBlock (r : Req)
  /-- R53: An ODP START is checked in order (parent, DOM, CRC, capacity, function checks) and moves the function toward STARTING or latches a restart. -/
  | start (r : Req)
  /-- R52: An ODP STOP is checked for running children and moves the function toward STOPPING, cancels a STARTING start, or clears a restart pending. -/
  | stop (r : Req)
  /-- R60: An ODP SAVE takes a snapshot into DRAM and begins writing the inactive configuration bank. -/
  | save (r : Req)
  /-- R60: Once the bank body and header are written and read back, the bank pointer is written and the SAVE response is sent. -/
  | saveComplete (good : Bool)
  /-- R77: An ODP SUBSCRIBE opens, replaces or ends a subscription. -/
  | subscribe (r : Req)
  /-- R66: An ODP CLOSE ends the session, its subscriptions and its open transfers. -/
  | close (r : Req)
  /-- R74: A WRITE with INIT opens or restarts a segmented transfer into a DOM entry. -/
  | domWriteInit (r : Req)
  /-- R74: A WRITE with SEG adds a segment at the next offset of an open DOM transfer. -/
  | domWriteSeg (r : Req)
  /-- R74: A WRITE with END checks length, CRC, signature and form, and replaces the DOM value in one step or abandons the transfer. -/
  | domWriteEnd (r : Req)
  /-- R75: A DOM write transfer with no segment for 10 s is abandoned. -/
  | domWriteTimeout (session key : Nat)
  /-- R76: A READ with INIT holds the DOM value for the session and returns its length and CRC. -/
  | domReadInit (r : Req)
  /-- R76: A READ with SEG returns up to 1,396 bytes of the held DOM value. -/
  | domReadSeg (r : Req)
  /-- R76: A READ with END releases the held DOM value. -/
  | domReadEnd (r : Req)
  /-- R76: A held DOM read value with no READ for 10 s is released. -/
  | domReadTimeout (session key : Nat)
  /-- R79: An EXPORT with INIT holds the object and returns its length. -/
  | exportInit (r : Req)
  /-- R79: An EXPORT with SEG returns a segment of the held object. -/
  | exportSeg (r : Req)
  /-- R79: An EXPORT with END returns the hash, time and attestation signature and releases the object. -/
  | exportEnd (r : Req)
  /-- R79: An export with no request for 10 s releases its object. -/
  | exportTimeout (session : Nat)
  /-- R78: After cycle 3,920 of a tick whose epoch is a multiple of the period, the listed entries are read and a NOTIFY is sent when due. -/
  | subscriptionPass
  /-- R54: A write of func[f].expected_crc arms the CRC check at acceptance. -/
  | expectedCrcWrite (f : Frame) (fn : Fin 2048) (crc : BitVec 32)
  /-- R98: A write of loop[n].mode_req takes effect at the slot's next sample instant, clearing latches whose cause has ended. -/
  | loopModeRequest (f : Frame) (n : Fin 1024) (mode : BitVec 8)
  /-- R102: A write of loop[n].swap exchanges the coefficient sets at the slot's next sample instant with the swap preset. -/
  | loopSwap (f : Frame) (n : Fin 1024)
  /-- R107: A write of group[g].overrun_clear clears a standing group overrun action at the group's next sample instant. -/
  | overrunClear (f : Frame) (g : Fin 8)
  /-- R105: A slot's following-error count reaches fe_time, so FE_ALARM is set and fe_action applied in that period. -/
  | feAlarm (n : Fin 1024)
  /-- R107: A slot's consecutive-overrun count reaches the group limit, so the group's overrun action applies from its next sample instant. -/
  | overrunAction (n : Fin 1024)
  /-- R132: A lane takes its next operation from its prefetch slot in the issue cycle after the previous operation's last instruction. -/
  | operationIssue (l : Fin 16) (cycle : Nat)
  /-- R134: An operation's issue count reaches its budget without an end and the operation is terminated. -/
  | budgetTermination (l : Fin 16)
  /-- R131: A held-off abort takes effect at the first issue boundary outside a delay slot or repeat. -/
  | abortTakesEffect (l : Fin 16)
  /-- R138: An M-type instruction multiplies, accumulates and writes back by its init and wb codes. -/
  | basaltMac (l : Fin 16) (f : MFields)
  /-- R139: xd := xa + xb. -/
  | basaltAdd (l : Fin 16) (f : AFields)
  /-- R139: xd := xa - xb. -/
  | basaltSub (l : Fin 16) (f : AFields)
  /-- R139: xd := -xa. -/
  | basaltNeg (l : Fin 16) (f : AFields)
  /-- R139: xd := abs(xa). -/
  | basaltAbs (l : Fin 16) (f : AFields)
  /-- R139: xd := min(xa, xb). -/
  | basaltMin (l : Fin 16) (f : AFields)
  /-- R139: xd := max(xa, xb). -/
  | basaltMax (l : Fin 16) (f : AFields)
  /-- R139: Arithmetic right shift of xa into xd. -/
  | basaltShr (l : Fin 16) (f : AFields)
  /-- R139: Left shift of xa into xd. -/
  | basaltShl (l : Fin 16) (f : AFields)
  /-- R139: xd := xa with its tag. -/
  | basaltMov (l : Fin 16) (f : AFields)
  /-- R139: xd := sign-extended immediate. -/
  | basaltMovi (l : Fin 16) (f : AFields)
  /-- R139: xd [19:8] := immediate. -/
  | basaltMovh (l : Fin 16) (f : AFields)
  /-- R139: Flags from xa - xb. -/
  | basaltCmp (l : Fin 16) (f : AFields)
  /-- R139: xd := xa if the condition holds, else xb. -/
  | basaltSel (l : Fin 16) (f : AFields)
  /-- R139: xd := xa clamped to the C-cell limits. -/
  | basaltClmp (l : Fin 16) (f : AFields)
  /-- R139: xd := xa clamped to xb plus or minus a C cell. -/
  | basaltClmd (l : Fin 16) (f : AFields)
  /-- R139: xd := 0 inside the C-cell deadband, else xa. -/
  | basaltDbnd (l : Fin 16) (f : AFields)
  /-- R139: T := tag test of ta against the immediate. -/
  | basaltTagt (l : Fin 16) (f : AFields)
  /-- R139: td := immediate. -/
  | basaltTags (l : Fin 16) (f : AFields)
  /-- R139: td := ta or immediate. -/
  | basaltTago (l : Fin 16) (f : AFields)
  /-- R139: xd := truncation of the sum of the selected accumulators. -/
  | basaltAtrn (l : Fin 16) (f : AFields)
  /-- R139: Accumulator sum of two accumulators. -/
  | basaltAadd (l : Fin 16) (f : AFields)
  /-- R139: Accumulator difference of two accumulators. -/
  | basaltAsub (l : Fin 16) (f : AFields)
  /-- R139: Clears the sticky SV flag. -/
  | basaltClrs (l : Fin 16) (f : AFields)
  /-- R139: xd := cutoff-gated square root of xa over 3 issue cycles. -/
  | basaltSqrt (l : Fin 16) (f : AFields)
  /-- R87: xd := interpolation in a characteristic table over 4 issue cycles. -/
  | basaltTlkp (l : Fin 16) (f : AFields)
  /-- R140: Loads an S value cell into x. -/
  | basaltLds (l : Fin 16) (f : LFields)
  /-- R140: Stores x into an S value cell. -/
  | basaltSts (l : Fin 16) (f : LFields)
  /-- R140: Loads a C value cell into x. -/
  | basaltLdc (l : Fin 16) (f : LFields)
  /-- R140: Loads a process-image word named by an address cell into x and t. -/
  | basaltLdv (l : Fin 16) (f : LFields)
  /-- R140: Writes a word directly into the process image, subject to result-word and force rules. -/
  | basaltStv (l : Fin 16) (f : LFields)
  /-- R140: Stages a word for the output writer. -/
  | basaltSto (l : Fin 16) (f : LFields)
  /-- R140: Loads a pointer with an immediate. -/
  | basaltLdp (l : Fin 16) (f : PFields)
  /-- R140: Adds an immediate to a pointer. -/
  | basaltAddp (l : Fin 16) (f : PFields)
  /-- R127: Conditional branch with two delay slots. -/
  | basaltB (l : Fin 16) (c : Cond) (target : BitVec 16)
  /-- R128: Repeats the next instruction n times with pointer steps. -/
  | basaltRpt (l : Fin 16) (n1 : Fin 1024) (step1 : Fin 16) (step2 : Fin 64)
  /-- R129: Repeats the next k instructions as a block n times from the repeat cache. -/
  | basaltRptb (l : Fin 16) (k1 : Fin 8) (n1 : Fin 256) (step1 : Fin 16) (step2 : Fin 64)
  /-- R133: Ends the operation and issues its results and result tag. -/
  | basaltEnd (l : Fin 16)
  /-- R141: Does nothing for one issue cycle. -/
  | basaltNop (l : Fin 16)
  /-- R146: ROM-only supervision instruction of the standard kernel: PV, setpoint, error, mode, latches and the branch to the preset path. -/
  | lpsup (l : Fin 16) (target : BitVec 16)
  /-- R146: ROM-only output instruction of the standard kernel: limits, flags, staging and status cells. -/
  | lpout (l : Fin 16) (e : Bool)
  /-- R159: A result tag arrives, is checked against its producer and accepted by addressed waiting consumer instances, which may become ready. -/
  | tagAccept (producer : Nat) (tag : BitVec 64)
  /-- R166: A lane with an empty prefetch slot is served a ready instance in the rotating order. -/
  | prefetchPop (l : Fin 16) (cycle : Nat)
  /-- R161: A trunk word not landed by cycle 1,200 has its IN tag issued then, the word staying STALE. -/
  | inTagTimeout (link : Fin 2) (chan : Fin 128)
  /-- R185: An exit with a hook is evaluated in the cycle after that hook is signalled. -/
  | hookExitEvaluation (r : Fin 64) (x : Fin 8) (cycle : Nat)
  /-- R189: A stage finishes building after 2 + ceil(e/2) cycles and the next stage in order begins. -/
  | stageBuildComplete
  /-- R199: A RUN command makes the reservation and commits the start step at Phi_g of its period. -/
  | recipeRun (f : Frame) (r : Fin 64)
  /-- R199: A HOLD command puts a running run in HELD. -/
  | recipeHold (f : Frame) (r : Fin 64)
  /-- R199: A RESUME command returns a held run to RUNNING and evaluates exits. -/
  | recipeResume (f : Frame) (r : Fin 64)
  /-- R200: An ABORT command begins the abort sequence of a run. -/
  | recipeAbort (f : Frame) (r : Fin 64)
  /-- R199: A CONTINUE command makes a CONTINUE pending for the run's exits. -/
  | recipeContinue (f : Frame) (r : Fin 64)
  /-- R207: At cycle 399 of a release tick ended task buffers are released into the override table and flag words, and overrun, lateness and switch checks are made. -/
  | flintRelease
  /-- R229: A task's overrun count exceeds its tolerance or its lateness its bound, so its permits drop and its flags go STALE. -/
  | flintTaskFault (k : Fin 8)
  /-- R229: A write of flint.task[k].fault_clear clears the fault at the next sample instant. -/
  | flintFaultClear (f : Frame) (k : Fin 8)
  /-- R237: A write of 01h to flint.change requests the switch and enters PENDING. -/
  | flintSwitch (f : Frame)
  /-- R237: A write of 02h to flint.change discards the loaded image. -/
  | flintDiscard (f : Frame)
  /-- R239: No switch point within flint.switch_timeout ticks returns the change to LOADED. -/
  | switchTimeout
  /-- R232: A write of flint.force[i] sets or removes a force that takes effect at the next base-tick sample instant. -/
  | forceWrite (f : Frame) (n : Fin 1024) (v : BitVec 64)
  /-- R220: ACC := operand. -/
  | flintLd (neg : Bool) (x : FOperand)
  /-- R220: ACC := ACC and operand. -/
  | flintAnd (neg : Bool) (x : FOperand)
  /-- R220: ACC := ACC or operand. -/
  | flintOr (neg : Bool) (x : FOperand)
  /-- R220: ACC := ACC xor operand. -/
  | flintXor (neg : Bool) (x : FOperand)
  /-- R220: Operand := ACC. -/
  | flintSt (neg : Bool) (x : FOperand)
  /-- R220: Operand := 1 if ACC. -/
  | flintSet (x : FOperand)
  /-- R220: Operand := 0 if ACC. -/
  | flintRst (x : FOperand)
  /-- R220: Pushes ACC with AND and loads the operand. -/
  | flintAndb (neg : Bool) (x : FOperand)
  /-- R220: Pushes ACC with OR and loads the operand. -/
  | flintOrb (neg : Bool) (x : FOperand)
  /-- R220: Pushes ACC with XOR and loads the operand. -/
  | flintXorb (neg : Bool) (x : FOperand)
  /-- R220: Pops and combines with ACC. -/
  | flintPop
  /-- R220: ACC := not ACC. -/
  | flintNot
  /-- R220: ACC := ACC and word value greater than constant. -/
  | flintCgt (good flagWord : Bool) (w : Fin 4096) (c : Fin 4096)
  /-- R220: ACC := ACC and word value less than constant. -/
  | flintClt (good flagWord : Bool) (w : Fin 4096) (c : Fin 4096)
  /-- R220: ACC := ACC and word value at least constant. -/
  | flintCge (good flagWord : Bool) (w : Fin 4096) (c : Fin 4096)
  /-- R220: ACC := ACC and word value at most constant. -/
  | flintCle (good flagWord : Bool) (w : Fin 4096) (c : Fin 4096)
  /-- R220: ACC := ACC and word value equal to constant. -/
  | flintCeq (good flagWord : Bool) (w : Fin 4096) (c : Fin 4096)
  /-- R220: ACC := ACC and word value not equal to constant. -/
  | flintCne (good flagWord : Bool) (w : Fin 4096) (c : Fin 4096)
  /-- R220: Flag word := constant if ACC. -/
  | flintMovk (f : Fin 1024) (c : Fin 4096)
  /-- R220: Flag word := input word value if ACC. -/
  | flintMovi (f : Fin 1024) (w : Fin 4096)
  /-- R224: On-delay timer. -/
  | flintTon (t : Fin 512)
  /-- R224: Off-delay timer. -/
  | flintTof (t : Fin 512)
  /-- R224: Pulse timer. -/
  | flintTp (t : Fin 512)
  /-- R225: Up-counter on a rising ACC. -/
  | flintCtu (c : Fin 256)
  /-- R225: Down-counter on a rising ACC. -/
  | flintCtd (c : Fin 256)
  /-- R225: Resets a counter if ACC. -/
  | flintRstc (c : Fin 256)
  /-- R220: Rising-edge detection with an edge bit. -/
  | flintEdgr (e : Fin 8192)
  /-- R220: Falling-edge detection with an edge bit. -/
  | flintEdgf (e : Fin 8192)
  /-- R221: Forward jump. -/
  | flintJmp (target : Fin 131072)
  /-- R221: Forward jump if ACC. -/
  | flintJmpc (target : Fin 131072)
  /-- R221: Forward jump if not ACC. -/
  | flintJmpn (target : Fin 131072)
  /-- R220: Does nothing. -/
  | flintNop
  /-- R207: Ends the task cycle with its outputs held in the buffer. -/
  | flintEnd
  /-- R248: Axis command 01h sets a new absolute target. -/
  | moveAbs (f : Frame) (a : Fin 32) (x : BitVec 32)
  /-- R247: Axis command 02h sets a relative target. -/
  | moveRel (f : Frame) (a : Fin 32) (x : BitVec 32)
  /-- R247: Axis command 03h moves toward a soft limit at a signed velocity. -/
  | jog (f : Frame) (a : Fin 32) (x : BitVec 32)
  /-- R249: Axis command 04h makes a ramped stop into INTERRUPTED. -/
  | axisStop (f : Frame) (a : Fin 32) (x : BitVec 32)
  /-- R249: Axis command 05h makes a hard stop into INTERRUPTED. -/
  | halt (f : Frame) (a : Fin 32) (x : BitVec 32)
  /-- R247: Axis command 06h continues to the kept target, follow or STEPIN. -/
  | resume (f : Frame) (a : Fin 32) (x : BitVec 32)
  /-- R262: Axis command 07h starts the homing sequence. -/
  | home (f : Frame) (a : Fin 32) (x : BitVec 32)
  /-- R247: Axis command 08h sets P and re-bases the encoder. -/
  | setPos (f : Frame) (a : Fin 32) (x : BitVec 32)
  /-- R247: Axis command 09h leaves FAULT. -/
  | clearFault (f : Frame) (a : Fin 32) (x : BitVec 32)
  /-- R247: Axis command 0Ah sets the top speed. -/
  | setVmax (f : Frame) (a : Fin 32) (x : BitVec 32)
  /-- R253: Axis command 0Bh sets or clears the ENABLE output. -/
  | axisEnable (f : Frame) (a : Fin 32) (x : BitVec 32)
  /-- R247: Axis command 0Ch sets the group target. -/
  | setGtarget (f : Frame) (a : Fin 32) (x : BitVec 32)
  /-- R256: Axis command 0Dh starts a coordinated group move. -/
  | groupGo (f : Frame) (a : Fin 32) (x : BitVec 32)
  /-- R260: Axis command 0Eh clears released limit latches. -/
  | limitClear (f : Frame) (a : Fin 32) (x : BitVec 32)
  /-- R260: A fitted limit input reads active for limit_qual instants, stopping the axis into FAULT with a latch. -/
  | limitTrip (a : Fin 32) (negative : Bool)
  /-- R265: Deviation beyond the window for stall_time instants applies the stall action. -/
  | stallFault (a : Fin 32)
  /-- R263: A search or creep passes home_travel without its event, making a ramped stop and a fault. -/
  | homeNotFound (a : Fin 32)
  /-- R255: A coarse STEP edge on a STEPIN axis schedules M microsteps over the last interval. -/
  | coarseStep (a : Fin 32) (mc : Nat) (negative : Bool)
  /-- R264: A Z index edge latches P into z_position and may be the homing reference. -/
  | zEdge (a : Fin 32) (mc : Nat)
  /-- R281: An output channel's COMPL count reaches compl_time and the compliance alarm is set. -/
  | complianceAlarm (c : Fin 64)
  /-- R283: A bank supply low for 1 ms, converter failure or barrier data loss makes a bank fault. -/
  | bankFault (b : Fin 8) (cause : Fin 4)
  /-- R283: No bank fault cause for 100 ms recovers the bank. -/
  | bankRecovered (b : Fin 8)
  /-- R288: A discrete input reads a new level for filter + 1 instants and changes its accepted state. -/
  | diChange (n : Fin 32)
  /-- R292: A discrete output's current limit for 1 ms, thermal shutdown, readback mismatch or absent L+ faults the point. -/
  | doFault (n : Fin 32) (cause : Fin 5)
  /-- R292: After do.retry ticks a point switched off by a fault returns to its commanded state. -/
  | doRetry (n : Fin 32)
  /-- R292: A write of do.fault_clear clears latched point faults at the next sample instant. -/
  | doFaultClear (f : Frame) (mask : BitVec 32)
  /-- R293: Receipt of the satellite's idle symbols trains the link to UP, taking identity and delays. -/
  | trunkTraining (l : Fin 2) (sat : List Byte) (latency outMin delay : Nat)
  /-- R296: A trunk upstream block passes its CRC and is written through the gather port, issuing its IN tags. -/
  | trunkBlockLanded (l : Fin 2) (b : Fin 16) (frame : List Byte)
  /-- R299: loss_limit consecutive lost frames take the link DOWN to retrain. -/
  | trunkLinkDown (l : Fin 2)
  /-- R300: The satellite's acceptance or refusal of the map and configuration completes a link START. -/
  | satelliteAccept (l : Fin 2) (accepted : Bool)
  /-- R300: No satellite answer within 10 ms refuses the link START with BUSY. -/
  | satelliteConfigTimeout (l : Fin 2)
  /-- R313: A received CAN frame is routed to a station image, the receive buffer, or discarded. -/
  | canFrameReceived (p : Fin 8) (m : CanMsg) (remote esi : Bool) (age : Nat)
  /-- R312: A transmitted frame completes and its object reads SENT. -/
  | canFrameSent (p : Fin 8) (age : Nat)
  /-- R325: A bus error or lost arbitration updates TEC and REC, possibly entering error passive or bus-off. -/
  | canError (p : Fin 8) (e : CanErr)
  /-- R317: A matrix window starts and the port starts the named object's frame, REF frame or arbitration. -/
  | windowStart (p : Fin 8) (w : Nat)
  /-- R318: At the island cycle after a station input window the port checks for a miss. -/
  | stationWindowCheck (p : Fin 8) (k : Fin 32)
  /-- R330: A station reaches its timeout of consecutive misses, becomes LOST and its pending outputs are discarded. -/
  | stationLost (p : Fin 8) (k : Fin 32)
  /-- R327: A station passes rejoin checks without a miss and becomes ONLINE. -/
  | stationOnline (p : Fin 8) (k : Fin 32)
  /-- R322: A FIFO head waiting fallback_age ticks is retired as EXPIRED. -/
  | fallbackAgeExpiry (p : Fin 8)
  /-- R324: A write of fb.cancel cancels an object's frame or the fallback queue. -/
  | fbCancel (f : Frame) (p : Fin 8) (o : BitVec 8)
  /-- R326: A write of fb.recover starts bus-off recovery. -/
  | fbRecover (f : Frame) (p : Fin 8)
  /-- R326: 128 × 11 recessive bits end recovery and the port is ERROR_ACTIVE. -/
  | busOffRecovered (p : Fin 8)
  /-- R331: A write of 1 to fb.sleep stops the port and puts its transceiver toward low power. -/
  | fbSleep (f : Frame) (p : Fin 8)
  /-- R332: A write of 2 to fb.sleep wakes the port. -/
  | fbWake (f : Frame) (p : Fin 8)
  /-- R331: The transceiver reaches its low-power mode and the port reads SLEEP. -/
  | transceiverAsleep (p : Fin 8)
  /-- R332: The ISO 11898-2 wake-up pattern wakes a sleeping port. -/
  | wakeUpPattern (p : Fin 8)
  /-- R332: A matching wake frame wakes a sleeping port. -/
  | wakeFrame (p : Fin 8) (m : CanMsg)
  /-- R341: The engine reads a marked process-image word through its port slots and evaluates condition triggers on it. -/
  | acquisitionCopy
  /-- R343: At cycle 3,840 of tick e + D_g the block of group g and epoch e closes into staging and windows. -/
  | blockClose (g : Fin 8)
  /-- R348: Closed blocks in staging are sent as encrypted stream datagrams. -/
  | streamSend
  /-- R348: A write of acq.stream.attach attaches the writing session to the stream. -/
  | streamAttach (f : Frame)
  /-- R358: An edge on TRIG_IN0 or TRIG_IN1 triggers the windows that select it. -/
  | trigInEdge (k : Fin 2) (falling : Bool)
  /-- R357: Window command 01h arms the window. -/
  | windowArm (f : Frame) (w : Fin 16)
  /-- R367: Window command 02h disarms the window. -/
  | windowDisarm (f : Frame) (w : Fin 16)
  /-- R358: Window command 03h triggers the window at the instant it takes effect. -/
  | windowTrigger (f : Frame) (w : Fin 16)
  /-- R363: A write of win[w].release frees a capture slot. -/
  | windowRelease (f : Frame) (w : Fin 16) (slot : BitVec 8)
  /-- R357: After 2 base ticks of REARM the window arms in a free slot or waits. -/
  | rearmExpiry (w : Fin 16)
  /-- R364: A TRIG_OUT pulse ends after 1 µs. -/
  | trigOutPulseEnd (k : Fin 2)
  /-- R383: The next admitted record is written to its store slot and committed with its marker. -/
  | recordWrite
  /-- R381: The 20 µs check finds a repeat window run out and admits its closing record. -/
  | repeatWindowClose
  /-- R390: A write of agate.clear equal to the last SEQ empties the store after writing the records ahead of it. -/
  | agateClear (f : Frame) (last : BitVec 32)
  /-- R391: A write of agate.note posts a host note event at acceptance. -/
  | agateNote (f : Frame) (v : BitVec 64)
  /-- R403: A PTP Sync is received and stamped toward an offset measurement. -/
  | ptpSync (m : PtpMsg)
  /-- R403: A PTP Follow_Up completes a two-step Sync measurement. -/
  | ptpFollowUp (m : PtpMsg)
  /-- R403: A PTP Delay_Resp completes an offset and delay measurement that drives the servo, lock, step or jump handling. -/
  | ptpDelayResp (m : PtpMsg)
  /-- R401: A PTP Announce is taken for master selection, port selection and UTC offset. -/
  | ptpAnnounce (a : Announce)
  /-- R400: As master, a received Delay_Req is answered. -/
  | ptpDelayReq (m : PtpMsg)
  /-- R400: A PTP management message is answered with an error status and counted. -/
  | ptpManagement (link : Fin 3)
  /-- R401: As master, the module sends its Sync and Announce messages at their intervals. -/
  | ptpMasterTransmit (announce : Bool)
  /-- R404: No Sync accepted for sync_timeout intervals puts the time unit in HOLDOVER. -/
  | syncTimeout
  /-- R404: The announce receipt timeout with no other master puts the time unit in HOLDOVER or moves the port. -/
  | announceTimeout
  /-- R406: A write of time.accept_step steps the counter by the next measurement when GM_JUMP stands. -/
  | acceptStep (f : Frame)
  /-- R409: A write of time.set steps the counter at acceptance and makes the state FREE. -/
  | timeSet (f : Frame) (t : T80)
  /-- R412: Every 64 s in LOCKED or MASTER the calendar is compared and rewritten if it differs by more than 61 µs. -/
  | calendarCheck
  /-- R412: After each 1,024 s of LOCKED with auto trim, cal.trim is set from measured drift. -/
  | calendarTrim (drift : Int)
  /-- R409: At each whole minute of running the retained time is written. -/
  | retainedTimeWrite
  /-- R413: A leap flag changes the UTC offset at the end of its UTC day. -/
  | leapSecond
  /-- R411: The backup supply falls below 1.8 V with the module unpowered and CAL_LOST latches. -/
  | calLost
  /-- R421: The Itpel link trains to UP and a pair may form. -/
  | itpelLinkUp (delay : Nat) (p : Partner)
  /-- R421: A lane loses symbol lock for 100 ns or a frame fails its third resend and the link goes DOWN. -/
  | itpelLinkDown
  /-- R422: A frame not acknowledged within 2 µs is resent from the replay buffer. -/
  | itpelResendTimeout (seq : Nat)
  /-- R424: The standby takes a TICK frame and starts its tick computing the previous epoch. -/
  | tickFrame (epoch : Nat) (disc : Discipline)
  /-- R422: An ACK or NAK frame acknowledges frames or requests a resend. -/
  | ackNakFrame (nak : Bool) (seq : Nat)
  /-- R425: The standby takes mirror sections of an epoch for its gather port. -/
  | mirrorFrame (epoch : Nat) (sections : List Section)
  /-- R427: The standby takes one accepted change with its effective epoch and acknowledges it. -/
  | changeFrame (ch : Change)
  /-- R428: The standby takes the holder's timing decisions for a strobe or release. -/
  | decisionFrame (epoch : Nat) (d : Decision)
  /-- R431: The standby takes the holder's committed event records for its store. -/
  | recordFrame (epoch : Nat) (r : Rec)
  /-- R432: The holder takes the standby's comparison values and compares them with its own. -/
  | digestFrame (d : Digest)
  /-- R429: A request passed on by the standby is handled by the holder, or its response relayed by the standby. -/
  | forwardFrame (r : Req) (role : Role) (answer : Option Resp)
  /-- R431: The holder admits an event of the standby's own hardware with SOURCE + 8000h. -/
  | eventFrame (e : Event)
  /-- R444: The joining member takes configuration and history during RESYNC. -/
  | bulkFrame (b : Bulk)
  /-- R445: The joining member takes a function's dynamic state and computes it from its join epoch. -/
  | joinFrame (fn : Nat) (epoch : Nat) (st : JoinState)
  /-- R423: A HEALTH frame carries the partner's state, reason, line and PWR_OK readings and version. -/
  | healthFrame (st reason : Nat) (lines : Nat) (pwrOk : Bool) (p : Partner)
  /-- R423: Every 1 ms a member sends a HEALTH frame. -/
  | healthSend
  /-- R426: A standby waiting for a missing mirror or TICK for 8,000 cycles ends lockstep with MIRROR_LATE. -/
  | mirrorWaitExpiry
  /-- R432: A digest not arrived within 8,000 cycles ends lockstep. -/
  | digestLate
  /-- R428: A standby internal strobe held longer than 4,000 cycles ends lockstep. -/
  | standbyLate
  /-- R420: 1,000 consecutive equal ticks in VERIFY make both members SYNCHRONISED. -/
  | verifyPassed
  /-- R420: With auto resync, resync_retry run since the last failure starts RESYNC. -/
  | resyncRetry
  /-- R439: A new reading of the partner's lines qualifies after 2 µs and the member acts by its tables, possibly taking over. -/
  | lodestoneQualified (reading : Fin 3)
  /-- R439: The partner's PWR_OK qualifies at a new level and the member reacts by its tables. -/
  | partnerPwrOkChange (level : Bool)
  /-- R435: Member B claims the token after the permitting reading has stood a further 2 µs. -/
  | tokenClaim
  /-- R437: The armed watchdog expires after the last sample instant and drives RELEASE. -/
  | lodestoneWatchdog
  /-- R438: A holder releases the token at cycle 1 of the next tick after a release cause. -/
  | tokenRelease
  /-- R439: Both readings valid for 1 s clear TOKEN_WIRING. -/
  | tokenWiringClear
  /-- R438: A write of red.handover requests a deliberate token release. -/
  | redHandover (f : Frame)
  /-- R420: A write of red.demote ends lockstep with reason DEMOTED. -/
  | redDemote (f : Frame)
  /-- R420: A write of red.resync starts RESYNC and clears STANDBY_FAULT. -/
  | redResync (f : Frame)
  /-- R454: The supply is good and the RC oscillator and TCXO are enabled. -/
  | powerOn
  /-- R454: The RC counts 4,096 cycles, the boot ROM runs and the TCXO count starts. -/
  | rcCountComplete
  /-- R454: 131,072 good TCXO cycles arrive and the PLLs are enabled. -/
  | tcxoCountComplete
  /-- R455: A TCXO attempt fails and restarts, or after the fourth failure the module boots on the RC with CLOCK_FAULT. -/
  | tcxoAttemptFail
  /-- R453: A PLL locks and its islands start or switch to it. -/
  | pllLock (p : Fin 4)
  /-- R457: An island's source switch completes and it restarts on the new clock. -/
  | domainSwitchComplete (n : Island)
  /-- R456: A TCXO count outside range, a TCXO gap or a PLL loss of lock sets CLOCK_FAULT and the PLLs coast. -/
  | clockMonitorTrip (pll : Bool)
  /-- R456: The RC amplitude detector reports an RC failure and the watchdog moves to the TCXO. -/
  | rcFault
  /-- R459: A permitted block gates its clock after 256 idle cycles. -/
  | selfGate (b : Fin 14)
  /-- R460: A block acknowledges a gate request once its interfaces are idle and its clock stops. -/
  | gateAck (b : Fin 14) (deferral : Nat)
  /-- R459: A write of a gate enable is checked against hosted functions and takes effect at the next sample instant. -/
  | gateEnableWrite (f : Frame) (b : Fin 14) (which : Fin 3) (v : Bool)
  /-- R458: A write of clk.mgmt_div or clk.motion_div is accepted only with the loop engine STOPPED. -/
  | clockDividerWrite (f : Frame) (motion : Bool) (v : BitVec 8)
  /-- R462: A write of 02h to pwr.state_req ends sessions, sleeps the ports and begins entry to DEEP. -/
  | deepRequest (f : Frame)
  /-- R462: The module reaches DEEP. -/
  | deepEntered
  /-- R462: A masked wake source returns the module from DEEP to SLEEP or abandons entry. -/
  | wakeSource (k : Fin 5)
  /-- R467: PFAIL asserts and the module enters RIDE-THROUGH in phase FULL. -/
  | pfail (bankMv : Nat)
  /-- R465: The input stands at or above 36 V for 1 ms, ending FULL or booting after PERSIST. -/
  | inputRestored
  /-- R467: pwr.full_ms after PFAIL ends FULL and PERSIST begins. -/
  | fullTimeout
  /-- R469: Every 10 µs the bank energy is measured, ending FULL at the reserve and choosing the PERSIST step. -/
  | bankMeasurement (mv : Nat)
  /-- R468: The clean-down record is written and the module holds itself in reset. -/
  | persistComplete
  /-- R493: The face crosses mod.thermal_warn, or falls 2 °C below it, and the warning is set or cleared. -/
  | thermalWarning (plate soc : Int)
  /-- R493: The face above 80 °C or the junction above 115 °C for 100 ms enters PERSIST at once. -/
  | thermalTrip (junction : Bool) (plate soc : Int)
  /-- R493: After a trip the face reads below 65 °C for 10 s and the module boots. -/
  | thermalCooldown (plate soc : Int)
  /-- R504: Both PRESENT_N asserted for 10 ms with PRECHARGE at 36 V start the bank charger. -/
  | chargeStart
  /-- R504: PRESENT_N deasserted before step 6 stops the charger and discharges the bank. -/
  | insertionAbandoned
  /-- R504: The bank within 2 V of the input turns the ideal diode on and the converters soft-start. -/
  | bankCharged (ms : Nat)
  /-- R504: Rails good latch SLOT[3:0], drive RELEASE and move the Gneiss domain to the module supply. -/
  | railsGood (slot : Fin 16)
  /-- R504: 20 µs after rails good PWR_OK is asserted, reset released and the clock start begins. -/
  | resetRelease
  /-- R506: A PRESENT_N contact deasserted for 10 µs switches off the input and enters PERSIST at once. -/
  | removal (contact : Fin 2)
  /-- R475: The boot ROM verifies the runtime slots, measures and starts the chosen runtime, or enters recovery. -/
  | runtimeStart
  /-- R385: At boot Agate finds the valid run of slots by bisection and rewrites a torn slot. -/
  | agateBootScan (dramOk : Bool)
  /-- R62: Both banks are checked and a configuration bank is selected, or factory defaults with CONFIG_LOST. -/
  | configBankSelect
  /-- R479: Signed images of the selected bank are re-verified against the installed anchors. -/
  | imageReverify
  /-- R514: Time is seeded, the partner's lines read, and boot-state functions started with journal restore. -/
  | bootStartFunctions (reading : Fin 3)
  /-- R512: Phase 5 ends, boot.ready is set and event 1201h recorded. -/
  | ready (ms : Nat)
  /-- R476: A write of sec.commit_sv raises the fused security-version floor. -/
  | commitSv (f : Frame)
  /-- R482: A write of sec.lifecycle_req writes a fuse row, erases and resets. -/
  | lifecycleRequest (f : Frame) (target : BitVec 8)
  /-- R488: A write of sec.anchor[k].use changes an anchor's use for later checks. -/
  | anchorUseWrite (f : Frame) (k : Fin 8) (use : BitVec 8)
  /-- R483: A write of 00h to dbg.request returns to D0. -/
  | debugRequestD0 (f : Frame)
  /-- R483: A write of 01h to dbg.request opens D1. -/
  | debugRequestD1 (f : Frame)
  /-- R485: A token's validity runs out, lowering the debug level or closing the SERVICE session. -/
  | tokenExpiry (kind : Fin 4)
  /-- R483: IEEE 1149.1 BYPASS instruction. -/
  | jtagBypass
  /-- R483: IEEE 1149.1 IDCODE instruction returns dbg.idcode. -/
  | jtagIdcode
  /-- R483: IEEE 1149.1 SAMPLE/PRELOAD instruction. -/
  | jtagSamplePreload (preload : Nat)
  /-- R483: EXTEST drives pins at D3 and acts as BYPASS below it. -/
  | jtagExtest (v : Nat)
  /-- R483: INTEST at D3, BYPASS below it. -/
  | jtagIntest (v : Nat)
  /-- R483: CLAMP at D3, BYPASS below it. -/
  | jtagClamp
  /-- R483: HIGHZ at D3, BYPASS below it. -/
  | jtagHighz
  /-- R483: At D1 reads trace buffers and status registers without side effects. -/
  | jtagTraceRead (u : DbgUnit)
  /-- R484: At D2 halts a management core or lane when the loop engine is STOPPED and the pair state allows. -/
  | jtagHalt (u : DbgUnit)
  /-- R483: At D2 steps a halted core or lane. -/
  | jtagStep (u : DbgUnit)
  /-- R483: At D2 resumes a halted core or lane. -/
  | jtagResume (u : DbgUnit)
  /-- R483: At D2 reads or writes registers and memories of halted cores and lanes. -/
  | jtagRegisterAccess (u : DbgUnit) (x : DbgTarget) (write : Option Nat)
  /-- R317: A matrix window ends: a frame not sent within it stays pending and is counted in fb.window_misses, a REF frame not started in window 0 is dropped as EXPIRED, and free time begins for fallback and unnamed HOST frames. -/
  | windowEnd (p : Fin 8) (w : Nat)
  /-- R332: A port that is integrating sees 11 recessive bits and becomes ERROR_ACTIVE, able to send and receive, after a wake, a takeover or its start. -/
  | busIntegration (p : Fin 8)
  /-- R400: As a slave, the PTP port sends a Delay_Req at its logMinDelayReqInterval and stamps it on egress toward the next offset and delay measurement. -/
  | delayReqTransmit
  /-- R264: An edge on an axis's A or B encoder input advances the quadrature count, and a transition that skips a state is counted in axis.enc_errors. -/
  | quadratureEdge (a : Fin 32) (ab : Fin 4)
  /-- R438: An uncorrectable ECC error in loop memory or the process image is detected, which is a cause for a holder to release the token. -/
  | uncorrectableEccError
  /-- R506: A PRESENT_N contact reads asserted again within 10 µs of reading deasserted, so no removal is made and the glitch is counted in mod.present_glitches. -/
  | presentNGlitch (contact : Fin 2)
  /-- R468: The holdup bank runs out during PERSIST or while held in reset, so the work stops at a copy or record boundary and the module goes OFF or to BACKUP. -/
  | bankExhausted
  /-- R482: After an accepted lifecycle transition has written its fuse row and finished erasing, the module resets within 2 s and boots in the new state. -/
  | lifecycleReset
  deriving DecidableEq, Repr

end Sys2Proof
end

