-- ==== Sys2Proof/Machine/Ent.lean ====
section
/-! DEFINITION. The keys of the dictionary entries that the machine uses, by the manual's names: index × 256 + sub. -/

namespace Sys2Proof.Machine

/-- `tick.epoch`, 2801h:01. -/
def Ent.tickEpoch : Nat := (0x2801) * 256 + (0x01)

/-- `tick.epoch0_time`, 2801h:02. -/
def Ent.tickEpoch0Time : Nat := (0x2801) * 256 + (0x02)

/-- `tick.discipline`, 2801h:03. -/
def Ent.tickDiscipline : Nat := (0x2801) * 256 + (0x03)

/-- `tick.last_length`, 2801h:04. -/
def Ent.tickLastLength : Nat := (0x2801) * 256 + (0x04)

/-- `tick.long_ticks`, 2801h:05. -/
def Ent.tickLongTicks : Nat := (0x2801) * 256 + (0x05)

/-- `tick.short_ticks`, 2801h:06. -/
def Ent.tickShortTicks : Nat := (0x2801) * 256 + (0x06)

/-- `tick.phase_error`, 2801h:07. -/
def Ent.tickPhaseError : Nat := (0x2801) * 256 + (0x07)

/-- `tick.strobe_miss`, 2801h:08. -/
def Ent.tickStrobeMiss : Nat := (0x2801) * 256 + (0x08)

/-- `tick.align_start`, 2801h:09. -/
def Ent.tickAlignStart : Nat := (0x2801) * 256 + (0x09)

/-- `tick.gather_words`, 2801h:0A. -/
def Ent.tickGatherWords : Nat := (0x2801) * 256 + (0x0A)

/-- `tick.gather_end`, 2801h:0B. -/
def Ent.tickGatherEnd : Nat := (0x2801) * 256 + (0x0B)

/-- `tick.analog_residual`, 2801h:0C. -/
def Ent.tickAnalogResidual : Nat := (0x2801) * 256 + (0x0C)

/-- `group[g].phase`, 2810h+g:01. -/
def Ent.groupPhase (g : Nat) : Nat := (0x2810+g) * 256 + (0x01)

/-- `group[g].divisor`, 2810h+g:02. -/
def Ent.groupDivisor (g : Nat) : Nat := (0x2810+g) * 256 + (0x02)

/-- `group[g].period`, 2810h+g:03. -/
def Ent.groupPeriod (g : Nat) : Nat := (0x2810+g) * 256 + (0x03)

/-- `group[g].last_finish`, 2810h+g:04. -/
def Ent.groupLastFinish (g : Nat) : Nat := (0x2810+g) * 256 + (0x04)

/-- `group[g].min_slack`, 2810h+g:05. -/
def Ent.groupMinSlack (g : Nat) : Nat := (0x2810+g) * 256 + (0x05)

/-- `group[g].output_moves`, 2810h+g:06. -/
def Ent.groupOutputMoves (g : Nat) : Nat := (0x2810+g) * 256 + (0x06)

/-- `group[g].lane_load`, 2810h+g:07. -/
def Ent.groupLaneLoad (g : Nat) : Nat := (0x2810+g) * 256 + (0x07)

/-- `id.part`, 0100h:01. -/
def Ent.idPart : Nat := (0x100) * 256 + (0x01)

/-- `id.hw_issue`, 0100h:02. -/
def Ent.idHwIssue : Nat := (0x100) * 256 + (0x02)

/-- `id.serial`, 0100h:03. -/
def Ent.idSerial : Nat := (0x100) * 256 + (0x03)

/-- `id.runtime_version`, 0100h:04. -/
def Ent.idRuntimeVersion : Nat := (0x100) * 256 + (0x04)

/-- `id.kernel_rom_version`, 0100h:05. -/
def Ent.idKernelRomVersion : Nat := (0x100) * 256 + (0x05)

/-- `id.boot_rom_version`, 0100h:06. -/
def Ent.idBootRomVersion : Nat := (0x100) * 256 + (0x06)

/-- `func[f].state`, 0400h+f:01. -/
def Ent.funcState (f : Nat) : Nat := (0x400+f) * 256 + (0x01)

/-- `func[f].number`, 0400h+f:02. -/
def Ent.funcNumber (f : Nat) : Nat := (0x400+f) * 256 + (0x02)

/-- `func[f].expected_crc`, 0400h+f:03. -/
def Ent.funcExpectedCrc (f : Nat) : Nat := (0x400+f) * 256 + (0x03)

/-- `func[f].crc_armed`, 0400h+f:04. -/
def Ent.funcCrcArmed (f : Nat) : Nat := (0x400+f) * 256 + (0x04)

/-- `func[f].start_crc`, 0400h+f:05. -/
def Ent.funcStartCrc (f : Nat) : Nat := (0x400+f) * 256 + (0x05)

/-- `func[f].live_crc`, 0400h+f:06. -/
def Ent.funcLiveCrc (f : Nat) : Nat := (0x400+f) * 256 + (0x06)

/-- `func[f].restart_pending`, 0400h+f:07. -/
def Ent.funcRestartPending (f : Nat) : Nat := (0x400+f) * 256 + (0x07)

/-- `func[f].start_ignored`, 0400h+f:08. -/
def Ent.funcStartIgnored (f : Nat) : Nat := (0x400+f) * 256 + (0x08)

/-- `func[f].last_error`, 0400h+f:09. -/
def Ent.funcLastError (f : Nat) : Nat := (0x400+f) * 256 + (0x09)

/-- `func[f].last_change`, 0400h+f:0A. -/
def Ent.funcLastChange (f : Nat) : Nat := (0x400+f) * 256 + (0x0A)

/-- `func[f].parent`, 0400h+f:0B. -/
def Ent.funcParent (f : Nat) : Nat := (0x400+f) * 256 + (0x0B)

/-- `func[f].shadow_bytes`, 0400h+f:0C. -/
def Ent.funcShadowBytes (f : Nat) : Nat := (0x400+f) * 256 + (0x0C)

/-- `func[f].start_cancelled`, 0400h+f:0D. -/
def Ent.funcStartCancelled (f : Nat) : Nat := (0x400+f) * 256 + (0x0D)

/-- `cfg.active_bank`, 0210h:01. -/
def Ent.cfgActiveBank : Nat := (0x210) * 256 + (0x01)

/-- `cfg.active_sequence`, 0210h:02. -/
def Ent.cfgActiveSequence : Nat := (0x210) * 256 + (0x02)

/-- `cfg.save_state`, 0210h:03. -/
def Ent.cfgSaveState : Nat := (0x210) * 256 + (0x03)

/-- `cfg.last_result`, 0210h:04. -/
def Ent.cfgLastResult : Nat := (0x210) * 256 + (0x04)

/-- `cfg.body_bytes`, 0210h:05. -/
def Ent.cfgBodyBytes : Nat := (0x210) * 256 + (0x05)

/-- `cfg.capacity`, 0210h:06. -/
def Ent.cfgCapacity : Nat := (0x210) * 256 + (0x06)

/-- `cfg.bank0_valid`, 0210h:07. -/
def Ent.cfgBank0Valid : Nat := (0x210) * 256 + (0x07)

/-- `cfg.bank1_valid`, 0210h:08. -/
def Ent.cfgBank1Valid : Nat := (0x210) * 256 + (0x08)

/-- `cfg.save_time`, 0210h:09. -/
def Ent.cfgSaveTime : Nat := (0x210) * 256 + (0x09)

/-- `odp.sessions`, 0220h:01. -/
def Ent.odpSessions : Nat := (0x220) * 256 + (0x01)

/-- `odp.idle_timeout`, 0220h:02. -/
def Ent.odpIdleTimeout : Nat := (0x220) * 256 + (0x02)

/-- `odp.dropped`, 0220h:03. -/
def Ent.odpDropped : Nat := (0x220) * 256 + (0x03)

/-- `odp.rejected_handshakes`, 0220h:04. -/
def Ent.odpRejectedHandshakes : Nat := (0x220) * 256 + (0x04)

/-- `odp.subscriptions`, 0220h:05. -/
def Ent.odpSubscriptions : Nat := (0x220) * 256 + (0x05)

/-- `chartab[t].p[i]`, 2840h+⌊t/4⌋:01h+33·(t mod 4)+i. -/
def Ent.chartabP (t i : Nat) : Nat := (0x2840+(t/4)) * 256 + (0x1+33*(t % 4)+i)

/-- `loop[n].group`, 2000h+n:01. -/
def Ent.loopGroup (n : Nat) : Nat := (0x2000+n) * 256 + (0x01)

/-- `loop[n].kernel`, 2000h+n:02. -/
def Ent.loopKernel (n : Nat) : Nat := (0x2000+n) * 256 + (0x02)

/-- `loop[n].sections`, 2000h+n:03. -/
def Ent.loopSections (n : Nat) : Nat := (0x2000+n) * 256 + (0x03)

/-- `loop[n].options`, 2000h+n:04. -/
def Ent.loopOptions (n : Nat) : Nat := (0x2000+n) * 256 + (0x04)

/-- `loop[n].kp`, 2000h+n:05. -/
def Ent.loopKp (n : Nat) : Nat := (0x2000+n) * 256 + (0x05)

/-- `loop[n].ki`, 2000h+n:06. -/
def Ent.loopKi (n : Nat) : Nat := (0x2000+n) * 256 + (0x06)

/-- `loop[n].kd`, 2000h+n:07. -/
def Ent.loopKd (n : Nat) : Nat := (0x2000+n) * 256 + (0x07)

/-- `loop[n].kn`, 2000h+n:08. -/
def Ent.loopKn (n : Nat) : Nat := (0x2000+n) * 256 + (0x08)

/-- `loop[n].kff`, 2000h+n:09. -/
def Ent.loopKff (n : Nat) : Nat := (0x2000+n) * 256 + (0x09)

/-- `loop[n].pv_addr`, 2000h+n:0A. -/
def Ent.loopPvAddr (n : Nat) : Nat := (0x2000+n) * 256 + (0x0A)

/-- `loop[n].pv2_addr`, 2000h+n:0B. -/
def Ent.loopPv2Addr (n : Nat) : Nat := (0x2000+n) * 256 + (0x0B)

/-- `loop[n].pv_select`, 2000h+n:0C. -/
def Ent.loopPvSelect (n : Nat) : Nat := (0x2000+n) * 256 + (0x0C)

/-- `loop[n].pv_char`, 2000h+n:0D. -/
def Ent.loopPvChar (n : Nat) : Nat := (0x2000+n) * 256 + (0x0D)

/-- `loop[n].pv_table`, 2000h+n:0E. -/
def Ent.loopPvTable (n : Nat) : Nat := (0x2000+n) * 256 + (0x0E)

/-- `loop[n].char_gain`, 2000h+n:0F. -/
def Ent.loopCharGain (n : Nat) : Nat := (0x2000+n) * 256 + (0x0F)

/-- `loop[n].char_offset`, 2000h+n:10. -/
def Ent.loopCharOffset (n : Nat) : Nat := (0x2000+n) * 256 + (0x10)

/-- `loop[n].sqrt_cutoff`, 2000h+n:11. -/
def Ent.loopSqrtCutoff (n : Nat) : Nat := (0x2000+n) * 256 + (0x11)

/-- `loop[n].sp_src`, 2000h+n:12. -/
def Ent.loopSpSrc (n : Nat) : Nat := (0x2000+n) * 256 + (0x12)

/-- `loop[n].ff_addr`, 2000h+n:13. -/
def Ent.loopFfAddr (n : Nat) : Nat := (0x2000+n) * 256 + (0x13)

/-- `loop[n].out_addr`, 2000h+n:14. -/
def Ent.loopOutAddr (n : Nat) : Nat := (0x2000+n) * 256 + (0x14)

/-- `loop[n].track_addr`, 2000h+n:15. -/
def Ent.loopTrackAddr (n : Nat) : Nat := (0x2000+n) * 256 + (0x15)

/-- `loop[n].readback_addr`, 2000h+n:16. -/
def Ent.loopReadbackAddr (n : Nat) : Nat := (0x2000+n) * 256 + (0x16)

/-- `loop[n].sp_word`, 2000h+n:17. -/
def Ent.loopSpWord (n : Nat) : Nat := (0x2000+n) * 256 + (0x17)

/-- `loop[n].out_hi`, 2000h+n:18. -/
def Ent.loopOutHi (n : Nat) : Nat := (0x2000+n) * 256 + (0x18)

/-- `loop[n].out_lo`, 2000h+n:19. -/
def Ent.loopOutLo (n : Nat) : Nat := (0x2000+n) * 256 + (0x19)

/-- `loop[n].out_rate`, 2000h+n:1A. -/
def Ent.loopOutRate (n : Nat) : Nat := (0x2000+n) * 256 + (0x1A)

/-- `loop[n].sp_hi`, 2000h+n:1B. -/
def Ent.loopSpHi (n : Nat) : Nat := (0x2000+n) * 256 + (0x1B)

/-- `loop[n].sp_lo`, 2000h+n:1C. -/
def Ent.loopSpLo (n : Nat) : Nat := (0x2000+n) * 256 + (0x1C)

/-- `loop[n].sp_ramp`, 2000h+n:1D. -/
def Ent.loopSpRamp (n : Nat) : Nat := (0x2000+n) * 256 + (0x1D)

/-- `loop[n].deadband`, 2000h+n:1E. -/
def Ent.loopDeadband (n : Nat) : Nat := (0x2000+n) * 256 + (0x1E)

/-- `loop[n].safe_value`, 2000h+n:1F. -/
def Ent.loopSafeValue (n : Nat) : Nat := (0x2000+n) * 256 + (0x1F)

/-- `loop[n].fe_limit`, 2000h+n:20. -/
def Ent.loopFeLimit (n : Nat) : Nat := (0x2000+n) * 256 + (0x20)

/-- `loop[n].fe_time`, 2000h+n:21. -/
def Ent.loopFeTime (n : Nat) : Nat := (0x2000+n) * 256 + (0x21)

/-- `loop[n].fe_action`, 2000h+n:22. -/
def Ent.loopFeAction (n : Nat) : Nat := (0x2000+n) * 256 + (0x22)

/-- `loop[n].stale_policy`, 2000h+n:23. -/
def Ent.loopStalePolicy (n : Nat) : Nat := (0x2000+n) * 256 + (0x23)

/-- `loop[n].start_mode`, 2000h+n:24. -/
def Ent.loopStartMode (n : Nat) : Nat := (0x2000+n) * 256 + (0x24)

/-- `loop[n].stop_output`, 2000h+n:25. -/
def Ent.loopStopOutput (n : Nat) : Nat := (0x2000+n) * 256 + (0x25)

/-- `loop[n].cas_inner`, 2000h+n:26. -/
def Ent.loopCasInner (n : Nat) : Nat := (0x2000+n) * 256 + (0x26)

/-- `loop[n].bq[j].b0`, 2000h+n:30h+5j. -/
def Ent.loopBqB0 (n j : Nat) : Nat := (0x2000+n) * 256 + (0x30+5*j)

/-- `loop[n].bq[j].b1`, 2000h+n:31h+5j. -/
def Ent.loopBqB1 (n j : Nat) : Nat := (0x2000+n) * 256 + (0x31+5*j)

/-- `loop[n].bq[j].b2`, 2000h+n:32h+5j. -/
def Ent.loopBqB2 (n j : Nat) : Nat := (0x2000+n) * 256 + (0x32+5*j)

/-- `loop[n].bq[j].a1`, 2000h+n:33h+5j. -/
def Ent.loopBqA1 (n j : Nat) : Nat := (0x2000+n) * 256 + (0x33+5*j)

/-- `loop[n].bq[j].a2`, 2000h+n:34h+5j. -/
def Ent.loopBqA2 (n j : Nat) : Nat := (0x2000+n) * 256 + (0x34+5*j)

/-- `loop[n].mode_req`, 2000h+n:60. -/
def Ent.loopModeReq (n : Nat) : Nat := (0x2000+n) * 256 + (0x60)

/-- `loop[n].sp`, 2000h+n:61. -/
def Ent.loopSp (n : Nat) : Nat := (0x2000+n) * 256 + (0x61)

/-- `loop[n].man_out`, 2000h+n:62. -/
def Ent.loopManOut (n : Nat) : Nat := (0x2000+n) * 256 + (0x62)

/-- `loop[n].swap`, 2000h+n:63. -/
def Ent.loopSwap (n : Nat) : Nat := (0x2000+n) * 256 + (0x63)

/-- `loop[n].next.kp`, 2000h+n:64. -/
def Ent.loopNextKp (n : Nat) : Nat := (0x2000+n) * 256 + (0x64)

/-- `loop[n].next.ki`, 2000h+n:65. -/
def Ent.loopNextKi (n : Nat) : Nat := (0x2000+n) * 256 + (0x65)

/-- `loop[n].next.kd`, 2000h+n:66. -/
def Ent.loopNextKd (n : Nat) : Nat := (0x2000+n) * 256 + (0x66)

/-- `loop[n].next.kn`, 2000h+n:67. -/
def Ent.loopNextKn (n : Nat) : Nat := (0x2000+n) * 256 + (0x67)

/-- `loop[n].next.kff`, 2000h+n:68. -/
def Ent.loopNextKff (n : Nat) : Nat := (0x2000+n) * 256 + (0x68)

/-- `loop[n].next.bq[j].b0`, 2000h+n:70h+5j. -/
def Ent.loopNextBqB0 (n j : Nat) : Nat := (0x2000+n) * 256 + (0x70+5*j)

/-- `loop[n].next.bq[j].b1`, 2000h+n:71h+5j. -/
def Ent.loopNextBqB1 (n j : Nat) : Nat := (0x2000+n) * 256 + (0x71+5*j)

/-- `loop[n].next.bq[j].b2`, 2000h+n:72h+5j. -/
def Ent.loopNextBqB2 (n j : Nat) : Nat := (0x2000+n) * 256 + (0x72+5*j)

/-- `loop[n].next.bq[j].a1`, 2000h+n:73h+5j. -/
def Ent.loopNextBqA1 (n j : Nat) : Nat := (0x2000+n) * 256 + (0x73+5*j)

/-- `loop[n].next.bq[j].a2`, 2000h+n:74h+5j. -/
def Ent.loopNextBqA2 (n j : Nat) : Nat := (0x2000+n) * 256 + (0x74+5*j)

/-- `loop[n].mode`, 2400h+n:01. -/
def Ent.loopMode (n : Nat) : Nat := (0x2400+n) * 256 + (0x01)

/-- `loop[n].flags`, 2400h+n:02. -/
def Ent.loopFlags (n : Nat) : Nat := (0x2400+n) * 256 + (0x02)

/-- `loop[n].latches`, 2400h+n:03. -/
def Ent.loopLatches (n : Nat) : Nat := (0x2400+n) * 256 + (0x03)

/-- `loop[n].active_set`, 2400h+n:04. -/
def Ent.loopActiveSet (n : Nat) : Nat := (0x2400+n) * 256 + (0x04)

/-- `loop[n].sp_eff`, 2400h+n:05. -/
def Ent.loopSpEff (n : Nat) : Nat := (0x2400+n) * 256 + (0x05)

/-- `loop[n].pv`, 2400h+n:06. -/
def Ent.loopPv (n : Nat) : Nat := (0x2400+n) * 256 + (0x06)

/-- `loop[n].error`, 2400h+n:07. -/
def Ent.loopError (n : Nat) : Nat := (0x2400+n) * 256 + (0x07)

/-- `loop[n].w`, 2400h+n:08. -/
def Ent.loopW (n : Nat) : Nat := (0x2400+n) * 256 + (0x08)

/-- `loop[n].out_unclamped`, 2400h+n:09. -/
def Ent.loopOutUnclamped (n : Nat) : Nat := (0x2400+n) * 256 + (0x09)

/-- `loop[n].out`, 2400h+n:0A. -/
def Ent.loopOut (n : Nat) : Nat := (0x2400+n) * 256 + (0x0A)

/-- `loop[n].integrator`, 2400h+n:0B. -/
def Ent.loopIntegrator (n : Nat) : Nat := (0x2400+n) * 256 + (0x0B)

/-- `loop[n].overrun_consec`, 2400h+n:0C. -/
def Ent.loopOverrunConsec (n : Nat) : Nat := (0x2400+n) * 256 + (0x0C)

/-- `loop[n].overruns`, 2400h+n:0D. -/
def Ent.loopOverruns (n : Nat) : Nat := (0x2400+n) * 256 + (0x0D)

/-- `loop[n].stale_periods`, 2400h+n:0E. -/
def Ent.loopStalePeriods (n : Nat) : Nat := (0x2400+n) * 256 + (0x0E)

/-- `loop[n].swaps`, 2400h+n:0F. -/
def Ent.loopSwaps (n : Nat) : Nat := (0x2400+n) * 256 + (0x0F)

/-- `loop[n].last_swap`, 2400h+n:10. -/
def Ent.loopLastSwap (n : Nat) : Nat := (0x2400+n) * 256 + (0x10)

/-- `engine.slots_running`, 2800h:01. -/
def Ent.engineSlotsRunning : Nat := (0x2800) * 256 + (0x01)

/-- `engine.overruns`, 2800h:02. -/
def Ent.engineOverruns : Nat := (0x2800) * 256 + (0x02)

/-- `engine.swaps`, 2800h:03. -/
def Ent.engineSwaps : Nat := (0x2800) * 256 + (0x03)

/-- `group[g].overrun_limit`, 2818h+g:01. -/
def Ent.groupOverrunLimit (g : Nat) : Nat := (0x2818+g) * 256 + (0x01)

/-- `group[g].overrun_action`, 2818h+g:02. -/
def Ent.groupOverrunAction (g : Nat) : Nat := (0x2818+g) * 256 + (0x02)

/-- `group[g].overrun_word`, 2818h+g:03. -/
def Ent.groupOverrunWord (g : Nat) : Nat := (0x2818+g) * 256 + (0x03)

/-- `group[g].overrun_active`, 2818h+g:04. -/
def Ent.groupOverrunActive (g : Nat) : Nat := (0x2818+g) * 256 + (0x04)

/-- `group[g].overrun_clear`, 2818h+g:05. -/
def Ent.groupOverrunClear (g : Nat) : Nat := (0x2818+g) * 256 + (0x05)

/-- `group[g].overrun_events`, 2818h+g:06. -/
def Ent.groupOverrunEvents (g : Nat) : Nat := (0x2818+g) * 256 + (0x06)

/-- `kimg.image`, 2900h:01. -/
def Ent.kimgImage : Nat := (0x2900) * 256 + (0x01)

/-- `kimg.instructions`, 2900h:02. -/
def Ent.kimgInstructions : Nat := (0x2900) * 256 + (0x02)

/-- `kimg.entries`, 2900h:03. -/
def Ent.kimgEntries : Nat := (0x2900) * 256 + (0x03)

/-- `kimg.check_fail_at`, 2900h:04. -/
def Ent.kimgCheckFailAt : Nat := (0x2900) * 256 + (0x04)

/-- `kimg.check_reason`, 2900h:05. -/
def Ent.kimgCheckReason : Nat := (0x2900) * 256 + (0x05)

/-- `lane.budget_faults`, 2900h:06. -/
def Ent.laneBudgetFaults : Nat := (0x2900) * 256 + (0x06)

/-- `lane.fetch_faults`, 2900h:07. -/
def Ent.laneFetchFaults : Nat := (0x2900) * 256 + (0x07)

/-- `lane.stores_suppressed`, 2900h:08. -/
def Ent.laneStoresSuppressed : Nat := (0x2900) * 256 + (0x08)

/-- `lane.bank_stalls`, 2900h:09. -/
def Ent.laneBankStalls : Nat := (0x2900) * 256 + (0x09)

/-- `lane.port_stalls`, 2900h:0A. -/
def Ent.lanePortStalls : Nat := (0x2900) * 256 + (0x0A)

/-- `kimg.entry[k].cost`, 2901h:01–FF. -/
def Ent.kimgEntryCost (k : Nat) : Nat := (0x2901) * 256 + (k)

/-- `disp.pool_used`, 2A00h:01. -/
def Ent.dispPoolUsed : Nat := (0x2A00) * 256 + (0x01)

/-- `disp.pool_free`, 2A00h:02. -/
def Ent.dispPoolFree : Nat := (0x2A00) * 256 + (0x02)

/-- `disp.cancel_race`, 2A00h:03. -/
def Ent.dispCancelRace : Nat := (0x2A00) * 256 + (0x03)

/-- `disp.cancel_prefetch`, 2A00h:04. -/
def Ent.dispCancelPrefetch : Nat := (0x2A00) * 256 + (0x04)

/-- `disp.retired`, 2A00h:05. -/
def Ent.dispRetired : Nat := (0x2A00) * 256 + (0x05)

/-- `disp.tags_discarded`, 2A00h:06. -/
def Ent.dispTagsDiscarded : Nat := (0x2A00) * 256 + (0x06)

/-- `disp.migrations`, 2A00h:07. -/
def Ent.dispMigrations : Nat := (0x2A00) * 256 + (0x07)

/-- `disp.pops`, 2A00h:08. -/
def Ent.dispPops : Nat := (0x2A00) * 256 + (0x08)

/-- `disp.ready_peak`, 2A00h:09. -/
def Ent.dispReadyPeak : Nat := (0x2A00) * 256 + (0x09)

/-- `disp.check_fail_at`, 2A00h:0A. -/
def Ent.dispCheckFailAt : Nat := (0x2A00) * 256 + (0x0A)

/-- `disp.check_reason`, 2A00h:0B. -/
def Ent.dispCheckReason : Nat := (0x2A00) * 256 + (0x0B)

/-- `disp.first_lane`, 2A00h:0C. -/
def Ent.dispFirstLane : Nat := (0x2A00) * 256 + (0x0C)

/-- `disp.late_runs`, 2A00h:0D. -/
def Ent.dispLateRuns : Nat := (0x2A00) * 256 + (0x0D)

/-- `disp.graph`, 2A10h:01. -/
def Ent.dispGraph : Nat := (0x2A10) * 256 + (0x01)

/-- `disp.live_table`, 2A10h:02. -/
def Ent.dispLiveTable : Nat := (0x2A10) * 256 + (0x02)

/-- `disp.group[g].instances`, 2A20h+g:01. -/
def Ent.dispGroupInstances (g : Nat) : Nat := (0x2A20+g) * 256 + (0x01)

/-- `disp.group[g].retired`, 2A20h+g:02. -/
def Ent.dispGroupRetired (g : Nat) : Nat := (0x2A20+g) * 256 + (0x02)

/-- `disp.group[g].late`, 2A20h+g:03. -/
def Ent.dispGroupLate (g : Nat) : Nat := (0x2A20+g) * 256 + (0x03)

/-- `disp.group[g].last_ready`, 2A20h+g:04. -/
def Ent.dispGroupLastReady (g : Nat) : Nat := (0x2A20+g) * 256 + (0x04)

/-- `disp.loop_inputs[n]`, 2A40h+⌊n/64⌋:01h+(n mod 64). -/
def Ent.dispLoopInputs (n : Nat) : Nat := (0x2A40+(n/64)) * 256 + (0x1+(n % 64))

/-- `disp.loop_results[n]`, 2A50h+⌊n/64⌋:01h+(n mod 64). -/
def Ent.dispLoopResults (n : Nat) : Nat := (0x2A50+(n/64)) * 256 + (0x1+(n % 64))

/-- `slate.entries_used`, 2C00h:01. -/
def Ent.slateEntriesUsed : Nat := (0x2C00) * 256 + (0x01)

/-- `slate.entries_peak`, 2C00h:02. -/
def Ent.slateEntriesPeak : Nat := (0x2C00) * 256 + (0x02)

/-- `slate.stages_starved`, 2C00h:03. -/
def Ent.slateStagesStarved : Nat := (0x2C00) * 256 + (0x03)

/-- `slate.misses`, 2C00h:04. -/
def Ent.slateMisses : Nat := (0x2C00) * 256 + (0x04)

/-- `slate.hits`, 2C00h:05. -/
def Ent.slateHits : Nat := (0x2C00) * 256 + (0x05)

/-- `slate.squashed`, 2C00h:06. -/
def Ent.slateSquashed : Nat := (0x2C00) * 256 + (0x06)

/-- `slate.collisions`, 2C00h:07. -/
def Ent.slateCollisions : Nat := (0x2C00) * 256 + (0x07)

/-- `slate.discarded`, 2C00h:08. -/
def Ent.slateDiscarded : Nat := (0x2C00) * 256 + (0x08)

/-- `slate.watch_used`, 2C00h:09. -/
def Ent.slateWatchUsed : Nat := (0x2C00) * 256 + (0x09)

/-- `slate.steps_resident`, 2C00h:0A. -/
def Ent.slateStepsResident : Nat := (0x2C00) * 256 + (0x0A)

/-- `slate.valve_words`, 2C00h:0B. -/
def Ent.slateValveWords : Nat := (0x2C00) * 256 + (0x0B)

/-- `slate.valve[v]`, 2C10h+⌊v/64⌋:01h+(v mod 64). -/
def Ent.slateValve (v : Nat) : Nat := (0x2C10+(v/64)) * 256 + (0x1+(v % 64))

/-- `recipe[r].image`, 2C40h+r:01. -/
def Ent.recipeImage (r : Nat) : Nat := (0x2C40+r) * 256 + (0x01)

/-- `recipe[r].command`, 2C40h+r:02. -/
def Ent.recipeCommand (r : Nat) : Nat := (0x2C40+r) * 256 + (0x02)

/-- `recipe[r].start_step`, 2C40h+r:03. -/
def Ent.recipeStartStep (r : Nat) : Nat := (0x2C40+r) * 256 + (0x03)

/-- `recipe[r].run_state`, 2C40h+r:04. -/
def Ent.recipeRunState (r : Nat) : Nat := (0x2C40+r) * 256 + (0x04)

/-- `recipe[r].step`, 2C40h+r:05. -/
def Ent.recipeStep (r : Nat) : Nat := (0x2C40+r) * 256 + (0x05)

/-- `recipe[r].step_epoch`, 2C40h+r:06. -/
def Ent.recipeStepEpoch (r : Nat) : Nat := (0x2C40+r) * 256 + (0x06)

/-- `recipe[r].elapsed`, 2C40h+r:07. -/
def Ent.recipeElapsed (r : Nat) : Nat := (0x2C40+r) * 256 + (0x07)

/-- `recipe[r].last_exit`, 2C40h+r:08. -/
def Ent.recipeLastExit (r : Nat) : Nat := (0x2C40+r) * 256 + (0x08)

/-- `recipe[r].misses`, 2C40h+r:09. -/
def Ent.recipeMisses (r : Nat) : Nat := (0x2C40+r) * 256 + (0x09)

/-- `recipe[r].late_hooks`, 2C40h+r:0A. -/
def Ent.recipeLateHooks (r : Nat) : Nat := (0x2C40+r) * 256 + (0x0A)

/-- `recipe[r].commits`, 2C40h+r:0B. -/
def Ent.recipeCommits (r : Nat) : Nat := (0x2C40+r) * 256 + (0x0B)

/-- `recipe[r].last_result`, 2C40h+r:0C. -/
def Ent.recipeLastResult (r : Nat) : Nat := (0x2C40+r) * 256 + (0x0C)

/-- `recipe[r].ignored`, 2C40h+r:0D. -/
def Ent.recipeIgnored (r : Nat) : Nat := (0x2C40+r) * 256 + (0x0D)

/-- `recipe[r].steps`, 2C40h+r:0E. -/
def Ent.recipeSteps (r : Nat) : Nat := (0x2C40+r) * 256 + (0x0E)

/-- `recipe[r].check_step`, 2C40h+r:0F. -/
def Ent.recipeCheckStep (r : Nat) : Nat := (0x2C40+r) * 256 + (0x0F)

/-- `recipe[r].check_reason`, 2C40h+r:10. -/
def Ent.recipeCheckReason (r : Nat) : Nat := (0x2C40+r) * 256 + (0x10)

/-- `recipe[r].reserved_entries`, 2C40h+r:11. -/
def Ent.recipeReservedEntries (r : Nat) : Nat := (0x2C40+r) * 256 + (0x11)

/-- `flint.image`, 3000h:01. -/
def Ent.flintImage : Nat := (0x3000) * 256 + (0x01)

/-- `flint.load`, 3000h:02. -/
def Ent.flintLoad : Nat := (0x3000) * 256 + (0x02)

/-- `flint.change`, 3000h:03. -/
def Ent.flintChange : Nat := (0x3000) * 256 + (0x03)

/-- `flint.change_state`, 3000h:04. -/
def Ent.flintChangeState : Nat := (0x3000) * 256 + (0x04)

/-- `flint.active_bank`, 3000h:05. -/
def Ent.flintActiveBank : Nat := (0x3000) * 256 + (0x05)

/-- `flint.program_id`, 3000h:06. -/
def Ent.flintProgramId : Nat := (0x3000) * 256 + (0x06)

/-- `flint.loaded_id`, 3000h:07. -/
def Ent.flintLoadedId : Nat := (0x3000) * 256 + (0x07)

/-- `flint.check_fail_at`, 3000h:08. -/
def Ent.flintCheckFailAt : Nat := (0x3000) * 256 + (0x08)

/-- `flint.check_reason`, 3000h:09. -/
def Ent.flintCheckReason : Nat := (0x3000) * 256 + (0x09)

/-- `flint.retain_start`, 3000h:0A. -/
def Ent.flintRetainStart : Nat := (0x3000) * 256 + (0x0A)

/-- `flint.stop_hold`, 3000h:0B. -/
def Ent.flintStopHold : Nat := (0x3000) * 256 + (0x0B)

/-- `flint.switch_timeout`, 3000h:0C. -/
def Ent.flintSwitchTimeout : Nat := (0x3000) * 256 + (0x0C)

/-- `flint.switches`, 3000h:0D. -/
def Ent.flintSwitches : Nat := (0x3000) * 256 + (0x0D)

/-- `flint.switch_epoch`, 3000h:0E. -/
def Ent.flintSwitchEpoch : Nat := (0x3000) * 256 + (0x0E)

/-- `flint.forces_active`, 3000h:0F. -/
def Ent.flintForcesActive : Nat := (0x3000) * 256 + (0x0F)

/-- `flint.force_orphans`, 3000h:10. -/
def Ent.flintForceOrphans : Nat := (0x3000) * 256 + (0x10)

/-- `flint.mirror_used`, 3000h:11. -/
def Ent.flintMirrorUsed : Nat := (0x3000) * 256 + (0x11)

/-- `flint.permits_unowned`, 3000h:12. -/
def Ent.flintPermitsUnowned : Nat := (0x3000) * 256 + (0x12)

/-- `flint.task[k].period`, 3010h+k:01. -/
def Ent.flintTaskPeriod (k : Nat) : Nat := (0x3010+k) * 256 + (0x01)

/-- `flint.task[k].phase`, 3010h+k:02. -/
def Ent.flintTaskPhase (k : Nat) : Nat := (0x3010+k) * 256 + (0x02)

/-- `flint.task[k].wcet`, 3010h+k:03. -/
def Ent.flintTaskWcet (k : Nat) : Nat := (0x3010+k) * 256 + (0x03)

/-- `flint.task[k].last_exec`, 3010h+k:04. -/
def Ent.flintTaskLastExec (k : Nat) : Nat := (0x3010+k) * 256 + (0x04)

/-- `flint.task[k].max_exec`, 3010h+k:05. -/
def Ent.flintTaskMaxExec (k : Nat) : Nat := (0x3010+k) * 256 + (0x05)

/-- `flint.task[k].overrun_consec`, 3010h+k:06. -/
def Ent.flintTaskOverrunConsec (k : Nat) : Nat := (0x3010+k) * 256 + (0x06)

/-- `flint.task[k].overruns`, 3010h+k:07. -/
def Ent.flintTaskOverruns (k : Nat) : Nat := (0x3010+k) * 256 + (0x07)

/-- `flint.task[k].lateness`, 3010h+k:08. -/
def Ent.flintTaskLateness (k : Nat) : Nat := (0x3010+k) * 256 + (0x08)

/-- `flint.task[k].max_lateness`, 3010h+k:09. -/
def Ent.flintTaskMaxLateness (k : Nat) : Nat := (0x3010+k) * 256 + (0x09)

/-- `flint.task[k].fault`, 3010h+k:0A. -/
def Ent.flintTaskFault (k : Nat) : Nat := (0x3010+k) * 256 + (0x0A)

/-- `flint.task[k].fault_clear`, 3010h+k:0B. -/
def Ent.flintTaskFaultClear (k : Nat) : Nat := (0x3010+k) * 256 + (0x0B)

/-- `flint.task[k].faults`, 3010h+k:0C. -/
def Ent.flintTaskFaults (k : Nat) : Nat := (0x3010+k) * 256 + (0x0C)

/-- `flint.task[k].last_release`, 3010h+k:0D. -/
def Ent.flintTaskLastRelease (k : Nat) : Nat := (0x3010+k) * 256 + (0x0D)

/-- `flint.task[k].cycles`, 3010h+k:0E. -/
def Ent.flintTaskCycles (k : Nat) : Nat := (0x3010+k) * 256 + (0x0E)

/-- `flint.force[i]`, 3020h+⌊i/32⌋:01h+(i mod 32). -/
def Ent.flintForce (i : Nat) : Nat := (0x3020+(i/32)) * 256 + (0x1+(i % 32))

/-- `flint.force_status[i]`, 3040h+⌊i/32⌋:01h+(i mod 32). -/
def Ent.flintForceStatus (i : Nat) : Nat := (0x3040+(i/32)) * 256 + (0x1+(i % 32))

/-- `flint.markers[w]`, 3060h+⌊w/64⌋:01h+(w mod 64). -/
def Ent.flintMarkers (w : Nat) : Nat := (0x3060+(w/64)) * 256 + (0x1+(w % 64))

/-- `flint.permits[w]`, 3070h:01h+w. -/
def Ent.flintPermits (w : Nat) : Nat := (0x3070) * 256 + (0x1+w)

/-- `flint.edges[w]`, 3071h+⌊w/64⌋:01h+(w mod 64). -/
def Ent.flintEdges (w : Nat) : Nat := (0x3071+(w/64)) * 256 + (0x1+(w % 64))

/-- `flint.timer[t].elapsed`, 3078h+⌊t/64⌋:01h+(t mod 64). -/
def Ent.flintTimerElapsed (t : Nat) : Nat := (0x3078+(t/64)) * 256 + (0x1+(t % 64))

/-- `flint.counter[c]`, 3080h+⌊c/64⌋:01h+(c mod 64). -/
def Ent.flintCounter (c : Nat) : Nat := (0x3080+(c/64)) * 256 + (0x1+(c % 64))

/-- `axis[a].group`, 3110h+a:01. -/
def Ent.axisGroup (a : Nat) : Nat := (0x3110+a) * 256 + (0x01)

/-- `axis[a].source`, 3110h+a:02. -/
def Ent.axisSource (a : Nat) : Nat := (0x3110+a) * 256 + (0x02)

/-- `axis[a].profile`, 3110h+a:03. -/
def Ent.axisProfile (a : Nat) : Nat := (0x3110+a) * 256 + (0x03)

/-- `axis[a].jerk_ticks`, 3110h+a:04. -/
def Ent.axisJerkTicks (a : Nat) : Nat := (0x3110+a) * 256 + (0x04)

/-- `axis[a].vmax`, 3110h+a:05. -/
def Ent.axisVmax (a : Nat) : Nat := (0x3110+a) * 256 + (0x05)

/-- `axis[a].acc`, 3110h+a:06. -/
def Ent.axisAcc (a : Nat) : Nat := (0x3110+a) * 256 + (0x06)

/-- `axis[a].dec`, 3110h+a:07. -/
def Ent.axisDec (a : Nat) : Nat := (0x3110+a) * 256 + (0x07)

/-- `axis[a].vstart`, 3110h+a:08. -/
def Ent.axisVstart (a : Nat) : Nat := (0x3110+a) * 256 + (0x08)

/-- `axis[a].limit_dec`, 3110h+a:09. -/
def Ent.axisLimitDec (a : Nat) : Nat := (0x3110+a) * 256 + (0x09)

/-- `axis[a].origin`, 3110h+a:0A. -/
def Ent.axisOrigin (a : Nat) : Nat := (0x3110+a) * 256 + (0x0A)

/-- `axis[a].word_shift`, 3110h+a:0B. -/
def Ent.axisWordShift (a : Nat) : Nat := (0x3110+a) * 256 + (0x0B)

/-- `axis[a].follow_addr`, 3110h+a:0C. -/
def Ent.axisFollowAddr (a : Nat) : Nat := (0x3110+a) * 256 + (0x0C)

/-- `axis[a].cmd_word`, 3110h+a:0D. -/
def Ent.axisCmdWord (a : Nat) : Nat := (0x3110+a) * 256 + (0x0D)

/-- `axis[a].enc_word`, 3110h+a:0E. -/
def Ent.axisEncWord (a : Nat) : Nat := (0x3110+a) * 256 + (0x0E)

/-- `axis[a].status_word`, 3110h+a:0F. -/
def Ent.axisStatusWord (a : Nat) : Nat := (0x3110+a) * 256 + (0x0F)

/-- `axis[a].inhibit_addr`, 3110h+a:10. -/
def Ent.axisInhibitAddr (a : Nat) : Nat := (0x3110+a) * 256 + (0x10)

/-- `axis[a].inhibit_policy`, 3110h+a:11. -/
def Ent.axisInhibitPolicy (a : Nat) : Nat := (0x3110+a) * 256 + (0x11)

/-- `axis[a].microsteps`, 3110h+a:12. -/
def Ent.axisMicrosteps (a : Nat) : Nat := (0x3110+a) * 256 + (0x12)

/-- `axis[a].stepin_timeout`, 3110h+a:13. -/
def Ent.axisStepinTimeout (a : Nat) : Nat := (0x3110+a) * 256 + (0x13)

/-- `axis[a].step_width`, 3110h+a:14. -/
def Ent.axisStepWidth (a : Nat) : Nat := (0x3110+a) * 256 + (0x14)

/-- `axis[a].dir_setup`, 3110h+a:15. -/
def Ent.axisDirSetup (a : Nat) : Nat := (0x3110+a) * 256 + (0x15)

/-- `axis[a].out_polarity`, 3110h+a:16. -/
def Ent.axisOutPolarity (a : Nat) : Nat := (0x3110+a) * 256 + (0x16)

/-- `axis[a].enable_delay`, 3110h+a:17. -/
def Ent.axisEnableDelay (a : Nat) : Nat := (0x3110+a) * 256 + (0x17)

/-- `axis[a].enc_mode`, 3110h+a:18. -/
def Ent.axisEncMode (a : Nat) : Nat := (0x3110+a) * 256 + (0x18)

/-- `axis[a].enc_scale`, 3110h+a:19. -/
def Ent.axisEncScale (a : Nat) : Nat := (0x3110+a) * 256 + (0x19)

/-- `axis[a].stall_window`, 3110h+a:1A. -/
def Ent.axisStallWindow (a : Nat) : Nat := (0x3110+a) * 256 + (0x1A)

/-- `axis[a].stall_time`, 3110h+a:1B. -/
def Ent.axisStallTime (a : Nat) : Nat := (0x3110+a) * 256 + (0x1B)

/-- `axis[a].stall_lag`, 3110h+a:1C. -/
def Ent.axisStallLag (a : Nat) : Nat := (0x3110+a) * 256 + (0x1C)

/-- `axis[a].stall_action`, 3110h+a:1D. -/
def Ent.axisStallAction (a : Nat) : Nat := (0x3110+a) * 256 + (0x1D)

/-- `axis[a].limit_qual`, 3110h+a:1E. -/
def Ent.axisLimitQual (a : Nat) : Nat := (0x3110+a) * 256 + (0x1E)

/-- `axis[a].limit_release`, 3110h+a:1F. -/
def Ent.axisLimitRelease (a : Nat) : Nat := (0x3110+a) * 256 + (0x1F)

/-- `axis[a].limit_stop`, 3110h+a:20. -/
def Ent.axisLimitStop (a : Nat) : Nat := (0x3110+a) * 256 + (0x20)

/-- `axis[a].soft_hi`, 3110h+a:21. -/
def Ent.axisSoftHi (a : Nat) : Nat := (0x3110+a) * 256 + (0x21)

/-- `axis[a].soft_lo`, 3110h+a:22. -/
def Ent.axisSoftLo (a : Nat) : Nat := (0x3110+a) * 256 + (0x22)

/-- `axis[a].home_mode`, 3110h+a:23. -/
def Ent.axisHomeMode (a : Nat) : Nat := (0x3110+a) * 256 + (0x23)

/-- `axis[a].home_vel`, 3110h+a:24. -/
def Ent.axisHomeVel (a : Nat) : Nat := (0x3110+a) * 256 + (0x24)

/-- `axis[a].home_creep`, 3110h+a:25. -/
def Ent.axisHomeCreep (a : Nat) : Nat := (0x3110+a) * 256 + (0x25)

/-- `axis[a].home_offset`, 3110h+a:26. -/
def Ent.axisHomeOffset (a : Nat) : Nat := (0x3110+a) * 256 + (0x26)

/-- `axis[a].home_travel`, 3110h+a:27. -/
def Ent.axisHomeTravel (a : Nat) : Nat := (0x3110+a) * 256 + (0x27)

/-- `axis[a].command`, 3130h+a:01. -/
def Ent.axisCommand (a : Nat) : Nat := (0x3130+a) * 256 + (0x01)

/-- `axis[a].state`, 3130h+a:02. -/
def Ent.axisState (a : Nat) : Nat := (0x3130+a) * 256 + (0x02)

/-- `axis[a].position`, 3130h+a:03. -/
def Ent.axisPosition (a : Nat) : Nat := (0x3130+a) * 256 + (0x03)

/-- `axis[a].target`, 3130h+a:04. -/
def Ent.axisTarget (a : Nat) : Nat := (0x3130+a) * 256 + (0x04)

/-- `axis[a].remaining`, 3130h+a:05. -/
def Ent.axisRemaining (a : Nat) : Nat := (0x3130+a) * 256 + (0x05)

/-- `axis[a].velocity`, 3130h+a:06. -/
def Ent.axisVelocity (a : Nat) : Nat := (0x3130+a) * 256 + (0x06)

/-- `axis[a].enc_count`, 3130h+a:07. -/
def Ent.axisEncCount (a : Nat) : Nat := (0x3130+a) * 256 + (0x07)

/-- `axis[a].enc_position`, 3130h+a:08. -/
def Ent.axisEncPosition (a : Nat) : Nat := (0x3130+a) * 256 + (0x08)

/-- `axis[a].deviation`, 3130h+a:09. -/
def Ent.axisDeviation (a : Nat) : Nat := (0x3130+a) * 256 + (0x09)

/-- `axis[a].fault`, 3130h+a:0A. -/
def Ent.axisFault (a : Nat) : Nat := (0x3130+a) * 256 + (0x0A)

/-- `axis[a].inputs`, 3130h+a:0B. -/
def Ent.axisInputs (a : Nat) : Nat := (0x3130+a) * 256 + (0x0B)

/-- `axis[a].chatter`, 3130h+a:0C. -/
def Ent.axisChatter (a : Nat) : Nat := (0x3130+a) * 256 + (0x0C)

/-- `axis[a].step_deferred`, 3130h+a:0D. -/
def Ent.axisStepDeferred (a : Nat) : Nat := (0x3130+a) * 256 + (0x0D)

/-- `axis[a].homed`, 3130h+a:0E. -/
def Ent.axisHomed (a : Nat) : Nat := (0x3130+a) * 256 + (0x0E)

/-- `axis[a].gtarget`, 3130h+a:0F. -/
def Ent.axisGtarget (a : Nat) : Nat := (0x3130+a) * 256 + (0x0F)

/-- `axis[a].last_result`, 3130h+a:10. -/
def Ent.axisLastResult (a : Nat) : Nat := (0x3130+a) * 256 + (0x10)

/-- `axis[a].enc_errors`, 3130h+a:11. -/
def Ent.axisEncErrors (a : Nat) : Nat := (0x3130+a) * 256 + (0x11)

/-- `axis[a].z_position`, 3130h+a:12. -/
def Ent.axisZPosition (a : Nat) : Nat := (0x3130+a) * 256 + (0x12)

/-- `axis[a].stepin_dropped`, 3130h+a:13. -/
def Ent.axisStepinDropped (a : Nat) : Nat := (0x3130+a) * 256 + (0x13)

/-- `mgroup[g].members`, 3150h+g:01. -/
def Ent.mgroupMembers (g : Nat) : Nat := (0x3150+g) * 256 + (0x01)

/-- `mgroup[g].vmax`, 3150h+g:02. -/
def Ent.mgroupVmax (g : Nat) : Nat := (0x3150+g) * 256 + (0x02)

/-- `mgroup[g].acc`, 3150h+g:03. -/
def Ent.mgroupAcc (g : Nat) : Nat := (0x3150+g) * 256 + (0x03)

/-- `mgroup[g].dec`, 3150h+g:04. -/
def Ent.mgroupDec (g : Nat) : Nat := (0x3150+g) * 256 + (0x04)

/-- `mgroup[g].vstart`, 3150h+g:05. -/
def Ent.mgroupVstart (g : Nat) : Nat := (0x3150+g) * 256 + (0x05)

/-- `mgroup[g].jerk_ticks`, 3150h+g:06. -/
def Ent.mgroupJerkTicks (g : Nat) : Nat := (0x3150+g) * 256 + (0x06)

/-- `mgroup[g].leader`, 3150h+g:07. -/
def Ent.mgroupLeader (g : Nat) : Nat := (0x3150+g) * 256 + (0x07)

/-- `mgroup[g].progress`, 3150h+g:08. -/
def Ent.mgroupProgress (g : Nat) : Nat := (0x3150+g) * 256 + (0x08)

/-- `mgroup[g].length`, 3150h+g:09. -/
def Ent.mgroupLength (g : Nat) : Nat := (0x3150+g) * 256 + (0x09)

/-- `mgroup[g].state`, 3150h+g:0A. -/
def Ent.mgroupState (g : Nat) : Nat := (0x3150+g) * 256 + (0x0A)

/-- `chan[c].mode`, 3400h+c:01. -/
def Ent.chanMode (c : Nat) : Nat := (0x3400+c) * 256 + (0x01)

/-- `chan[c].group`, 3400h+c:02. -/
def Ent.chanGroup (c : Nat) : Nat := (0x3400+c) * 256 + (0x02)

/-- `chan[c].word`, 3400h+c:03. -/
def Ent.chanWord (c : Nat) : Nat := (0x3400+c) * 256 + (0x03)

/-- `chan[c].readback`, 3400h+c:04. -/
def Ent.chanReadback (c : Nat) : Nat := (0x3400+c) * 256 + (0x04)

/-- `chan[c].char`, 3400h+c:05. -/
def Ent.chanChar (c : Nat) : Nat := (0x3400+c) * 256 + (0x05)

/-- `chan[c].table`, 3400h+c:06. -/
def Ent.chanTable (c : Nat) : Nat := (0x3400+c) * 256 + (0x06)

/-- `chan[c].char_gain`, 3400h+c:07. -/
def Ent.chanCharGain (c : Nat) : Nat := (0x3400+c) * 256 + (0x07)

/-- `chan[c].char_offset`, 3400h+c:08. -/
def Ent.chanCharOffset (c : Nat) : Nat := (0x3400+c) * 256 + (0x08)

/-- `chan[c].sqrt_cutoff`, 3400h+c:09. -/
def Ent.chanSqrtCutoff (c : Nat) : Nat := (0x3400+c) * 256 + (0x09)

/-- `chan[c].options`, 3400h+c:0A. -/
def Ent.chanOptions (c : Nat) : Nat := (0x3400+c) * 256 + (0x0A)

/-- `chan[c].sensor`, 3400h+c:0B. -/
def Ent.chanSensor (c : Nat) : Nat := (0x3400+c) * 256 + (0x0B)

/-- `chan[c].wiring`, 3400h+c:0C. -/
def Ent.chanWiring (c : Nat) : Nat := (0x3400+c) * 256 + (0x0C)

/-- `chan[c].cjc`, 3400h+c:0D. -/
def Ent.chanCjc (c : Nat) : Nat := (0x3400+c) * 256 + (0x0D)

/-- `chan[c].cjc_word`, 3400h+c:0E. -/
def Ent.chanCjcWord (c : Nat) : Nat := (0x3400+c) * 256 + (0x0E)

/-- `chan[c].cjc_fixed`, 3400h+c:0F. -/
def Ent.chanCjcFixed (c : Nat) : Nat := (0x3400+c) * 256 + (0x0F)

/-- `chan[c].fail_mode`, 3400h+c:10. -/
def Ent.chanFailMode (c : Nat) : Nat := (0x3400+c) * 256 + (0x10)

/-- `chan[c].fail_value`, 3400h+c:11. -/
def Ent.chanFailValue (c : Nat) : Nat := (0x3400+c) * 256 + (0x11)

/-- `chan[c].compl_band`, 3400h+c:12. -/
def Ent.chanComplBand (c : Nat) : Nat := (0x3400+c) * 256 + (0x12)

/-- `chan[c].compl_time`, 3400h+c:13. -/
def Ent.chanComplTime (c : Nat) : Nat := (0x3400+c) * 256 + (0x13)

/-- `chan[c].trim_gain`, 3400h+c:14. -/
def Ent.chanTrimGain (c : Nat) : Nat := (0x3400+c) * 256 + (0x14)

/-- `chan[c].trim_offset`, 3400h+c:15. -/
def Ent.chanTrimOffset (c : Nat) : Nat := (0x3400+c) * 256 + (0x15)

/-- `chan[c].reading`, 3440h+c:01. -/
def Ent.chanReading (c : Nat) : Nat := (0x3440+c) * 256 + (0x01)

/-- `chan[c].flags`, 3440h+c:02. -/
def Ent.chanFlags (c : Nat) : Nat := (0x3440+c) * 256 + (0x02)

/-- `chan[c].compl_consec`, 3440h+c:03. -/
def Ent.chanComplConsec (c : Nat) : Nat := (0x3440+c) * 256 + (0x03)

/-- `chan[c].compl_alarms`, 3440h+c:04. -/
def Ent.chanComplAlarms (c : Nat) : Nat := (0x3440+c) * 256 + (0x04)

/-- `chan[c].cjc_temp`, 3440h+c:05. -/
def Ent.chanCjcTemp (c : Nat) : Nat := (0x3440+c) * 256 + (0x05)

/-- `chan[c].cal[m].gain`, 3440h+c:06h+2(m−1). -/
def Ent.chanCalGain (c m : Nat) : Nat := (0x3440+c) * 256 + (0x6+2*(m-1))

/-- `chan[c].cal[m].offset`, 3440h+c:07h+2(m−1). -/
def Ent.chanCalOffset (c m : Nat) : Nat := (0x3440+c) * 256 + (0x7+2*(m-1))

/-- `chan[c].cal_time`, 3440h+c:12. -/
def Ent.chanCalTime (c : Nat) : Nat := (0x3440+c) * 256 + (0x12)

/-- `bank[b].supply_mv`, 3480h+b:01. -/
def Ent.bankSupplyMv (b : Nat) : Nat := (0x3480+b) * 256 + (0x01)

/-- `bank[b].supply_ma`, 3480h+b:02. -/
def Ent.bankSupplyMa (b : Nat) : Nat := (0x3480+b) * 256 + (0x02)

/-- `bank[b].fault`, 3480h+b:03. -/
def Ent.bankFault (b : Nat) : Nat := (0x3480+b) * 256 + (0x03)

/-- `bank[b].faults`, 3480h+b:04. -/
def Ent.bankFaults (b : Nat) : Nat := (0x3480+b) * 256 + (0x04)

/-- `bank[b].cjc_temp`, 3480h+b:05. -/
def Ent.bankCjcTemp (b : Nat) : Nat := (0x3480+b) * 256 + (0x05)

/-- `di.group`, 3500h:01. -/
def Ent.diGroup : Nat := (0x3500) * 256 + (0x01)

/-- `di.word_a`, 3500h:02. -/
def Ent.diWordA : Nat := (0x3500) * 256 + (0x02)

/-- `di.word_b`, 3500h:03. -/
def Ent.diWordB : Nat := (0x3500) * 256 + (0x03)

/-- `di.event_mask`, 3500h:04. -/
def Ent.diEventMask : Nat := (0x3500) * 256 + (0x04)

/-- `di.raw`, 3500h:05. -/
def Ent.diRaw : Nat := (0x3500) * 256 + (0x05)

/-- `di.state`, 3500h:06. -/
def Ent.diState : Nat := (0x3500) * 256 + (0x06)

/-- `di.events`, 3500h:07. -/
def Ent.diEvents : Nat := (0x3500) * 256 + (0x07)

/-- `di.filter[i]`, 3500h:08h+i. -/
def Ent.diFilter (i : Nat) : Nat := (0x3500) * 256 + (0x8+i)

/-- `do.group`, 3510h:01. -/
def Ent.doGroup : Nat := (0x3510) * 256 + (0x01)

/-- `do.word_mode`, 3510h:02. -/
def Ent.doWordMode : Nat := (0x3510) * 256 + (0x02)

/-- `do.word_base`, 3510h:03. -/
def Ent.doWordBase : Nat := (0x3510) * 256 + (0x03)

/-- `do.fail_state`, 3510h:04. -/
def Ent.doFailState : Nat := (0x3510) * 256 + (0x04)

/-- `do.retry`, 3510h:05. -/
def Ent.doRetry : Nat := (0x3510) * 256 + (0x05)

/-- `do.paired`, 3510h:06. -/
def Ent.doPaired : Nat := (0x3510) * 256 + (0x06)

/-- `do.commanded`, 3510h:07. -/
def Ent.doCommanded : Nat := (0x3510) * 256 + (0x07)

/-- `do.readback`, 3510h:08. -/
def Ent.doReadback : Nat := (0x3510) * 256 + (0x08)

/-- `do.fault`, 3510h:09. -/
def Ent.doFault : Nat := (0x3510) * 256 + (0x09)

/-- `do.fault_clear`, 3510h:0A. -/
def Ent.doFaultClear : Nat := (0x3510) * 256 + (0x0A)

/-- `do.supply`, 3510h:0B. -/
def Ent.doSupply : Nat := (0x3510) * 256 + (0x0B)

/-- `do.faults`, 3510h:0C. -/
def Ent.doFaults : Nat := (0x3510) * 256 + (0x0C)

/-- `trunk[l].state`, 3F00h+l:01. -/
def Ent.trunkState (l : Nat) : Nat := (0x3F00+l) * 256 + (0x01)

/-- `trunk[l].delay`, 3F00h+l:02. -/
def Ent.trunkDelay (l : Nat) : Nat := (0x3F00+l) * 256 + (0x02)

/-- `trunk[l].sat_latency`, 3F00h+l:03. -/
def Ent.trunkSatLatency (l : Nat) : Nat := (0x3F00+l) * 256 + (0x03)

/-- `trunk[l].sat_out_min`, 3F00h+l:04. -/
def Ent.trunkSatOutMin (l : Nat) : Nat := (0x3F00+l) * 256 + (0x04)

/-- `trunk[l].sat_id`, 3F00h+l:05. -/
def Ent.trunkSatId (l : Nat) : Nat := (0x3F00+l) * 256 + (0x05)

/-- `trunk[l].out_delay`, 3F00h+l:06. -/
def Ent.trunkOutDelay (l : Nat) : Nat := (0x3F00+l) * 256 + (0x06)

/-- `trunk[l].out_watchdog`, 3F00h+l:07. -/
def Ent.trunkOutWatchdog (l : Nat) : Nat := (0x3F00+l) * 256 + (0x07)

/-- `trunk[l].loss_limit`, 3F00h+l:08. -/
def Ent.trunkLossLimit (l : Nat) : Nat := (0x3F00+l) * 256 + (0x08)

/-- `trunk[l].rb_base`, 3F00h+l:09. -/
def Ent.trunkRbBase (l : Nat) : Nat := (0x3F00+l) * 256 + (0x09)

/-- `trunk[l].sat_config`, 3F00h+l:0A. -/
def Ent.trunkSatConfig (l : Nat) : Nat := (0x3F00+l) * 256 + (0x0A)

/-- `trunk[l].blocks`, 3F00h+l:0B. -/
def Ent.trunkBlocks (l : Nat) : Nat := (0x3F00+l) * 256 + (0x0B)

/-- `trunk[l].last_landing`, 3F00h+l:0C. -/
def Ent.trunkLastLanding (l : Nat) : Nat := (0x3F00+l) * 256 + (0x0C)

/-- `trunk[l].frames_lost`, 3F00h+l:0D. -/
def Ent.trunkFramesLost (l : Nat) : Nat := (0x3F00+l) * 256 + (0x0D)

/-- `trunk[l].crc_errors`, 3F00h+l:0E. -/
def Ent.trunkCrcErrors (l : Nat) : Nat := (0x3F00+l) * 256 + (0x0E)

/-- `trunk[l].downs`, 3F00h+l:0F. -/
def Ent.trunkDowns (l : Nat) : Nat := (0x3F00+l) * 256 + (0x0F)

/-- `trunk[l].chan[k]`, 3F10h+l:01h+k. -/
def Ent.trunkChan (l k : Nat) : Nat := (0x3F10+l) * 256 + (0x1+k)

/-- `fb[p].nom_prescaler`, 3800h+p:01. -/
def Ent.fbNomPrescaler (p : Nat) : Nat := (0x3800+p) * 256 + (0x01)

/-- `fb[p].nom_tseg1`, 3800h+p:02. -/
def Ent.fbNomTseg1 (p : Nat) : Nat := (0x3800+p) * 256 + (0x02)

/-- `fb[p].nom_tseg2`, 3800h+p:03. -/
def Ent.fbNomTseg2 (p : Nat) : Nat := (0x3800+p) * 256 + (0x03)

/-- `fb[p].nom_sjw`, 3800h+p:04. -/
def Ent.fbNomSjw (p : Nat) : Nat := (0x3800+p) * 256 + (0x04)

/-- `fb[p].data_prescaler`, 3800h+p:05. -/
def Ent.fbDataPrescaler (p : Nat) : Nat := (0x3800+p) * 256 + (0x05)

/-- `fb[p].data_tseg1`, 3800h+p:06. -/
def Ent.fbDataTseg1 (p : Nat) : Nat := (0x3800+p) * 256 + (0x06)

/-- `fb[p].data_tseg2`, 3800h+p:07. -/
def Ent.fbDataTseg2 (p : Nat) : Nat := (0x3800+p) * 256 + (0x07)

/-- `fb[p].data_sjw`, 3800h+p:08. -/
def Ent.fbDataSjw (p : Nat) : Nat := (0x3800+p) * 256 + (0x08)

/-- `fb[p].tdc_enable`, 3800h+p:09. -/
def Ent.fbTdcEnable (p : Nat) : Nat := (0x3800+p) * 256 + (0x09)

/-- `fb[p].tdc_offset`, 3800h+p:0A. -/
def Ent.fbTdcOffset (p : Nat) : Nat := (0x3800+p) * 256 + (0x0A)

/-- `fb[p].mode`, 3800h+p:0B. -/
def Ent.fbMode (p : Nat) : Nat := (0x3800+p) * 256 + (0x0B)

/-- `fb[p].termination`, 3800h+p:0C. -/
def Ent.fbTermination (p : Nat) : Nat := (0x3800+p) * 256 + (0x0C)

/-- `fb[p].matrix`, 3800h+p:0D. -/
def Ent.fbMatrix (p : Nat) : Nat := (0x3800+p) * 256 + (0x0D)

/-- `fb[p].fallback_order`, 3800h+p:0E. -/
def Ent.fbFallbackOrder (p : Nat) : Nat := (0x3800+p) * 256 + (0x0E)

/-- `fb[p].fallback_age`, 3800h+p:0F. -/
def Ent.fbFallbackAge (p : Nat) : Nat := (0x3800+p) * 256 + (0x0F)

/-- `fb[p].recovery`, 3800h+p:10. -/
def Ent.fbRecovery (p : Nat) : Nat := (0x3800+p) * 256 + (0x10)

/-- `fb[p].wake_mode`, 3800h+p:11. -/
def Ent.fbWakeMode (p : Nat) : Nat := (0x3800+p) * 256 + (0x11)

/-- `fb[p].wake_id`, 3800h+p:12. -/
def Ent.fbWakeId (p : Nat) : Nat := (0x3800+p) * 256 + (0x12)

/-- `fb[p].wake_id_mask`, 3800h+p:13. -/
def Ent.fbWakeIdMask (p : Nat) : Nat := (0x3800+p) * 256 + (0x13)

/-- `fb[p].wake_dlc`, 3800h+p:14. -/
def Ent.fbWakeDlc (p : Nat) : Nat := (0x3800+p) * 256 + (0x14)

/-- `fb[p].wake_data`, 3800h+p:15. -/
def Ent.fbWakeData (p : Nat) : Nat := (0x3800+p) * 256 + (0x15)

/-- `fb[p].wake_data_mask`, 3800h+p:16. -/
def Ent.fbWakeDataMask (p : Nat) : Nat := (0x3800+p) * 256 + (0x16)

/-- `fb[p].sleep`, 3800h+p:17. -/
def Ent.fbSleep (p : Nat) : Nat := (0x3800+p) * 256 + (0x17)

/-- `fb[p].recover`, 3800h+p:18. -/
def Ent.fbRecover (p : Nat) : Nat := (0x3800+p) * 256 + (0x18)

/-- `fb[p].cancel`, 3800h+p:19. -/
def Ent.fbCancel (p : Nat) : Nat := (0x3800+p) * 256 + (0x19)

/-- `fb[p].send`, 3800h+p:1A. -/
def Ent.fbSend (p : Nat) : Nat := (0x3800+p) * 256 + (0x1A)

/-- `fb[p].rx`, 3800h+p:1B. -/
def Ent.fbRx (p : Nat) : Nat := (0x3800+p) * 256 + (0x1B)

/-- `fb[p].bus_state`, 3808h+p:01. -/
def Ent.fbBusState (p : Nat) : Nat := (0x3808+p) * 256 + (0x01)

/-- `fb[p].tec`, 3808h+p:02. -/
def Ent.fbTec (p : Nat) : Nat := (0x3808+p) * 256 + (0x02)

/-- `fb[p].rec`, 3808h+p:03. -/
def Ent.fbRec (p : Nat) : Nat := (0x3808+p) * 256 + (0x03)

/-- `fb[p].basic_cycle`, 3808h+p:04. -/
def Ent.fbBasicCycle (p : Nat) : Nat := (0x3808+p) * 256 + (0x04)

/-- `fb[p].tx_frames`, 3808h+p:05. -/
def Ent.fbTxFrames (p : Nat) : Nat := (0x3808+p) * 256 + (0x05)

/-- `fb[p].rx_frames`, 3808h+p:06. -/
def Ent.fbRxFrames (p : Nat) : Nat := (0x3808+p) * 256 + (0x06)

/-- `fb[p].rx_overflow`, 3808h+p:07. -/
def Ent.fbRxOverflow (p : Nat) : Nat := (0x3808+p) * 256 + (0x07)

/-- `fb[p].rx_unmatched`, 3808h+p:08. -/
def Ent.fbRxUnmatched (p : Nat) : Nat := (0x3808+p) * 256 + (0x08)

/-- `fb[p].rx_remote`, 3808h+p:09. -/
def Ent.fbRxRemote (p : Nat) : Nat := (0x3808+p) * 256 + (0x09)

/-- `fb[p].window_misses`, 3808h+p:0A. -/
def Ent.fbWindowMisses (p : Nat) : Nat := (0x3808+p) * 256 + (0x0A)

/-- `fb[p].expired`, 3808h+p:0B. -/
def Ent.fbExpired (p : Nat) : Nat := (0x3808+p) * 256 + (0x0B)

/-- `fb[p].cancel_late`, 3808h+p:0C. -/
def Ent.fbCancelLate (p : Nat) : Nat := (0x3808+p) * 256 + (0x0C)

/-- `fb[p].busoffs`, 3808h+p:0D. -/
def Ent.fbBusoffs (p : Nat) : Nat := (0x3808+p) * 256 + (0x0D)

/-- `fb[p].queue_used`, 3808h+p:0E. -/
def Ent.fbQueueUsed (p : Nat) : Nat := (0x3808+p) * 256 + (0x0E)

/-- `fb[p].queue_peak`, 3808h+p:0F. -/
def Ent.fbQueuePeak (p : Nat) : Nat := (0x3808+p) * 256 + (0x0F)

/-- `fb[p].inversion_ticks`, 3808h+p:10. -/
def Ent.fbInversionTicks (p : Nat) : Nat := (0x3808+p) * 256 + (0x10)

/-- `fb[p].wakes`, 3808h+p:11. -/
def Ent.fbWakes (p : Nat) : Nat := (0x3808+p) * 256 + (0x11)

/-- `fb[p].sleeps_aborted`, 3808h+p:12. -/
def Ent.fbSleepsAborted (p : Nat) : Nat := (0x3808+p) * 256 + (0x12)

/-- `fb[p].error_frames`, 3808h+p:13. -/
def Ent.fbErrorFrames (p : Nat) : Nat := (0x3808+p) * 256 + (0x13)

/-- `fb[p].check_fail_at`, 3808h+p:14. -/
def Ent.fbCheckFailAt (p : Nat) : Nat := (0x3808+p) * 256 + (0x14)

/-- `fb[p].check_reason`, 3808h+p:15. -/
def Ent.fbCheckReason (p : Nat) : Nat := (0x3808+p) * 256 + (0x15)

/-- `fb[p].obj[o]`, 3810h+p:01h+o. -/
def Ent.fbObj (p o : Nat) : Nat := (0x3810+p) * 256 + (0x1+o)

/-- `fb[p].obj_status[o]`, 3818h+p:01h+o. -/
def Ent.fbObjStatus (p o : Nat) : Nat := (0x3818+p) * 256 + (0x1+o)

/-- `fb[p].filter[f]`, 3820h+2p+⌊f/128⌋:01h+(f mod 128). -/
def Ent.fbFilter (p f : Nat) : Nat := (0x3820+2*p+(f/128)) * 256 + (0x1+(f % 128))

/-- `fb[p].obj[o].data[k]`, 3B00h+8p+⌊o/16⌋:01h+8(o mod 16)+k. -/
def Ent.fbObjData (p o k : Nat) : Nat := (0x3B00+8*p+(o/16)) * 256 + (0x1+8*(o % 16)+k)

/-- `fbst[p][s].group`, 3900h+32p+s:01. -/
def Ent.fbstGroup (p s : Nat) : Nat := (0x3900+32*p+s) * 256 + (0x01)

/-- `fbst[p][s].in_id`, 3900h+32p+s:02. -/
def Ent.fbstInId (p s : Nat) : Nat := (0x3900+32*p+s) * 256 + (0x02)

/-- `fbst[p][s].in_len`, 3900h+32p+s:03. -/
def Ent.fbstInLen (p s : Nat) : Nat := (0x3900+32*p+s) * 256 + (0x03)

/-- `fbst[p][s].out_object`, 3900h+32p+s:04. -/
def Ent.fbstOutObject (p s : Nat) : Nat := (0x3900+32*p+s) * 256 + (0x04)

/-- `fbst[p][s].timeout`, 3900h+32p+s:05. -/
def Ent.fbstTimeout (p s : Nat) : Nat := (0x3900+32*p+s) * 256 + (0x05)

/-- `fbst[p][s].rejoin`, 3900h+32p+s:06. -/
def Ent.fbstRejoin (p s : Nat) : Nat := (0x3900+32*p+s) * 256 + (0x06)

/-- `fbst[p][s].in_map[k]`, 3900h+32p+s:07h+k. -/
def Ent.fbstInMap (p s k : Nat) : Nat := (0x3900+32*p+s) * 256 + (0x7+k)

/-- `fbst[p][s].out_map[k]`, 3900h+32p+s:17h+k. -/
def Ent.fbstOutMap (p s k : Nat) : Nat := (0x3900+32*p+s) * 256 + (0x17+k)

/-- `fbst[p][s].state`, 3A00h+32p+s:01. -/
def Ent.fbstState (p s : Nat) : Nat := (0x3A00+32*p+s) * 256 + (0x01)

/-- `fbst[p][s].misses`, 3A00h+32p+s:02. -/
def Ent.fbstMisses (p s : Nat) : Nat := (0x3A00+32*p+s) * 256 + (0x02)

/-- `fbst[p][s].good`, 3A00h+32p+s:03. -/
def Ent.fbstGood (p s : Nat) : Nat := (0x3A00+32*p+s) * 256 + (0x03)

/-- `fbst[p][s].last_rx`, 3A00h+32p+s:04. -/
def Ent.fbstLastRx (p s : Nat) : Nat := (0x3A00+32*p+s) * 256 + (0x04)

/-- `fbst[p][s].last_tx`, 3A00h+32p+s:05. -/
def Ent.fbstLastTx (p s : Nat) : Nat := (0x3A00+32*p+s) * 256 + (0x05)

/-- `fbst[p][s].lost_outputs`, 3A00h+32p+s:06. -/
def Ent.fbstLostOutputs (p s : Nat) : Nat := (0x3A00+32*p+s) * 256 + (0x06)

/-- `fbst[p][s].drops`, 3A00h+32p+s:07. -/
def Ent.fbstDrops (p s : Nat) : Nat := (0x3A00+32*p+s) * 256 + (0x07)

/-- `fbst[p][s].length_errors`, 3A00h+32p+s:08. -/
def Ent.fbstLengthErrors (p s : Nat) : Nat := (0x3A00+32*p+s) * 256 + (0x08)

/-- `acq.stream.list`, 3C00h:01. -/
def Ent.acqStreamList : Nat := (0x3C00) * 256 + (0x01)

/-- `acq.stream.link`, 3C00h:02. -/
def Ent.acqStreamLink : Nat := (0x3C00) * 256 + (0x02)

/-- `acq.stream.dest_addr`, 3C00h:03. -/
def Ent.acqStreamDestAddr : Nat := (0x3C00) * 256 + (0x03)

/-- `acq.stream.dest_port`, 3C00h:04. -/
def Ent.acqStreamDestPort : Nat := (0x3C00) * 256 + (0x04)

/-- `acq.stream.packing`, 3C00h:05. -/
def Ent.acqStreamPacking : Nat := (0x3C00) * 256 + (0x05)

/-- `acq.stream.key_interval`, 3C00h:06. -/
def Ent.acqStreamKeyInterval : Nat := (0x3C00) * 256 + (0x06)

/-- `acq.stream.attach`, 3C00h:07. -/
def Ent.acqStreamAttach : Nat := (0x3C00) * 256 + (0x07)

/-- `acq.stream.session`, 3C00h:08. -/
def Ent.acqStreamSession : Nat := (0x3C00) * 256 + (0x08)

/-- `acq.stream.seq`, 3C00h:09. -/
def Ent.acqStreamSeq : Nat := (0x3C00) * 256 + (0x09)

/-- `acq.stream.staged`, 3C00h:0A. -/
def Ent.acqStreamStaged : Nat := (0x3C00) * 256 + (0x0A)

/-- `acq.stream.dropped_blocks`, 3C00h:0B. -/
def Ent.acqStreamDroppedBlocks : Nat := (0x3C00) * 256 + (0x0B)

/-- `acq.stream.rate`, 3C00h:0C. -/
def Ent.acqStreamRate : Nat := (0x3C00) * 256 + (0x0C)

/-- `acq.late_writes`, 3C00h:0D. -/
def Ent.acqLateWrites : Nat := (0x3C00) * 256 + (0x0D)

/-- `acq.copy_words`, 3C00h:0E. -/
def Ent.acqCopyWords : Nat := (0x3C00) * 256 + (0x0E)

/-- `acq.stream.ratio`, 3C00h:0F. -/
def Ent.acqStreamRatio : Nat := (0x3C00) * 256 + (0x0F)

/-- `acq.trig_out0`, 3C00h:10. -/
def Ent.acqTrigOut0 : Nat := (0x3C00) * 256 + (0x10)

/-- `acq.trig_out1`, 3C00h:11. -/
def Ent.acqTrigOut1 : Nat := (0x3C00) * 256 + (0x11)

/-- `win[w].list`, 3C40h+w:01. -/
def Ent.winList (w : Nat) : Nat := (0x3C40+w) * 256 + (0x01)

/-- `win[w].group`, 3C40h+w:02. -/
def Ent.winGroup (w : Nat) : Nat := (0x3C40+w) * 256 + (0x02)

/-- `win[w].size_mb`, 3C40h+w:03. -/
def Ent.winSizeMb (w : Nat) : Nat := (0x3C40+w) * 256 + (0x03)

/-- `win[w].slots`, 3C40h+w:04. -/
def Ent.winSlots (w : Nat) : Nat := (0x3C40+w) * 256 + (0x04)

/-- `win[w].pre`, 3C40h+w:05. -/
def Ent.winPre (w : Nat) : Nat := (0x3C40+w) * 256 + (0x05)

/-- `win[w].post`, 3C40h+w:06. -/
def Ent.winPost (w : Nat) : Nat := (0x3C40+w) * 256 + (0x06)

/-- `win[w].mode`, 3C40h+w:07. -/
def Ent.winMode (w : Nat) : Nat := (0x3C40+w) * 256 + (0x07)

/-- `win[w].packing`, 3C40h+w:08. -/
def Ent.winPacking (w : Nat) : Nat := (0x3C40+w) * 256 + (0x08)

/-- `win[w].full_policy`, 3C40h+w:09. -/
def Ent.winFullPolicy (w : Nat) : Nat := (0x3C40+w) * 256 + (0x09)

/-- `win[w].trig_source`, 3C40h+w:0A. -/
def Ent.winTrigSource (w : Nat) : Nat := (0x3C40+w) * 256 + (0x0A)

/-- `win[w].trig_spec`, 3C40h+w:0B. -/
def Ent.winTrigSpec (w : Nat) : Nat := (0x3C40+w) * 256 + (0x0B)

/-- `win[w].trig_kind`, 3C40h+w:0C. -/
def Ent.winTrigKind (w : Nat) : Nat := (0x3C40+w) * 256 + (0x0C)

/-- `win[w].trig_a`, 3C40h+w:0D. -/
def Ent.winTrigA (w : Nat) : Nat := (0x3C40+w) * 256 + (0x0D)

/-- `win[w].trig_b`, 3C40h+w:0E. -/
def Ent.winTrigB (w : Nat) : Nat := (0x3C40+w) * 256 + (0x0E)

/-- `win[w].trig_qual`, 3C40h+w:0F. -/
def Ent.winTrigQual (w : Nat) : Nat := (0x3C40+w) * 256 + (0x0F)

/-- `win[w].trig_chain`, 3C40h+w:10. -/
def Ent.winTrigChain (w : Nat) : Nat := (0x3C40+w) * 256 + (0x10)

/-- `win[w].trig_time`, 3C40h+w:11. -/
def Ent.winTrigTime (w : Nat) : Nat := (0x3C40+w) * 256 + (0x11)

/-- `win[w].trig_edge`, 3C40h+w:12. -/
def Ent.winTrigEdge (w : Nat) : Nat := (0x3C40+w) * 256 + (0x12)

/-- `win[w].command`, 3C40h+w:13. -/
def Ent.winCommand (w : Nat) : Nat := (0x3C40+w) * 256 + (0x13)

/-- `win[w].release`, 3C40h+w:14. -/
def Ent.winRelease (w : Nat) : Nat := (0x3C40+w) * 256 + (0x14)

/-- `win[w].state`, 3C60h+w:01. -/
def Ent.winState (w : Nat) : Nat := (0x3C60+w) * 256 + (0x01)

/-- `win[w].captures`, 3C60h+w:02. -/
def Ent.winCaptures (w : Nat) : Nat := (0x3C60+w) * 256 + (0x02)

/-- `win[w].missed`, 3C60h+w:03. -/
def Ent.winMissed (w : Nat) : Nat := (0x3C60+w) * 256 + (0x03)

/-- `win[w].missed_since`, 3C60h+w:04. -/
def Ent.winMissedSince (w : Nat) : Nat := (0x3C60+w) * 256 + (0x04)

/-- `win[w].dead_ticks`, 3C60h+w:05. -/
def Ent.winDeadTicks (w : Nat) : Nat := (0x3C60+w) * 256 + (0x05)

/-- `win[w].dead_since`, 3C60h+w:06. -/
def Ent.winDeadSince (w : Nat) : Nat := (0x3C60+w) * 256 + (0x06)

/-- `win[w].coincident`, 3C60h+w:07. -/
def Ent.winCoincident (w : Nat) : Nat := (0x3C60+w) * 256 + (0x07)

/-- `win[w].pre_valid`, 3C60h+w:08. -/
def Ent.winPreValid (w : Nat) : Nat := (0x3C60+w) * 256 + (0x08)

/-- `win[w].finished`, 3C60h+w:09. -/
def Ent.winFinished (w : Nat) : Nat := (0x3C60+w) * 256 + (0x09)

/-- `win[w].last_slot`, 3C60h+w:0A. -/
def Ent.winLastSlot (w : Nat) : Nat := (0x3C60+w) * 256 + (0x0A)

/-- `win[w].last_trigger`, 3C60h+w:0B. -/
def Ent.winLastTrigger (w : Nat) : Nat := (0x3C60+w) * 256 + (0x0B)

/-- `win[w].short_pre`, 3C60h+w:0C. -/
def Ent.winShortPre (w : Nat) : Nat := (0x3C60+w) * 256 + (0x0C)

/-- `agate.repeat_window`, 3E00h:01. -/
def Ent.agateRepeatWindow : Nat := (0x3E00) * 256 + (0x01)

/-- `agate.warn_level`, 3E00h:02. -/
def Ent.agateWarnLevel : Nat := (0x3E00) * 256 + (0x02)

/-- `agate.used`, 3E00h:03. -/
def Ent.agateUsed : Nat := (0x3E00) * 256 + (0x03)

/-- `agate.capacity`, 3E00h:04. -/
def Ent.agateCapacity : Nat := (0x3E00) * 256 + (0x04)

/-- `agate.base_seq`, 3E00h:05. -/
def Ent.agateBaseSeq : Nat := (0x3E00) * 256 + (0x05)

/-- `agate.last_seq`, 3E00h:06. -/
def Ent.agateLastSeq : Nat := (0x3E00) * 256 + (0x06)

/-- `agate.lost`, 3E00h:07. -/
def Ent.agateLost : Nat := (0x3E00) * 256 + (0x07)

/-- `agate.first_lost`, 3E00h:08. -/
def Ent.agateFirstLost : Nat := (0x3E00) * 256 + (0x08)

/-- `agate.last_lost`, 3E00h:09. -/
def Ent.agateLastLost : Nat := (0x3E00) * 256 + (0x09)

/-- `agate.queue_used`, 3E00h:0A. -/
def Ent.agateQueueUsed : Nat := (0x3E00) * 256 + (0x0A)

/-- `agate.queue_peak`, 3E00h:0B. -/
def Ent.agateQueuePeak : Nat := (0x3E00) * 256 + (0x0B)

/-- `agate.queue_overflow`, 3E00h:0C. -/
def Ent.agateQueueOverflow : Nat := (0x3E00) * 256 + (0x0C)

/-- `agate.repeat_open`, 3E00h:0D. -/
def Ent.agateRepeatOpen : Nat := (0x3E00) * 256 + (0x0D)

/-- `agate.repeat_table_full`, 3E00h:0E. -/
def Ent.agateRepeatTableFull : Nat := (0x3E00) * 256 + (0x0E)

/-- `agate.folded`, 3E00h:0F. -/
def Ent.agateFolded : Nat := (0x3E00) * 256 + (0x0F)

/-- `agate.clear`, 3E00h:10. -/
def Ent.agateClear : Nat := (0x3E00) * 256 + (0x10)

/-- `agate.clear_time`, 3E00h:11. -/
def Ent.agateClearTime : Nat := (0x3E00) * 256 + (0x11)

/-- `agate.torn`, 3E00h:12. -/
def Ent.agateTorn : Nat := (0x3E00) * 256 + (0x12)

/-- `agate.note`, 3E00h:13. -/
def Ent.agateNote : Nat := (0x3E00) * 256 + (0x13)

/-- `agate.tail`, 3E00h:14. -/
def Ent.agateTail : Nat := (0x3E00) * 256 + (0x14)

/-- `time.now`, 1400h:01. -/
def Ent.timeNow : Nat := (0x1400) * 256 + (0x01)

/-- `time.state`, 1400h:02. -/
def Ent.timeState : Nat := (0x1400) * 256 + (0x02)

/-- `time.source`, 1400h:03. -/
def Ent.timeSource : Nat := (0x1400) * 256 + (0x03)

/-- `time.increment`, 1400h:04. -/
def Ent.timeIncrement : Nat := (0x1400) * 256 + (0x04)

/-- `time.rate`, 1400h:05. -/
def Ent.timeRate : Nat := (0x1400) * 256 + (0x05)

/-- `time.offset`, 1400h:06. -/
def Ent.timeOffset : Nat := (0x1400) * 256 + (0x06)

/-- `time.path_delay`, 1400h:07. -/
def Ent.timePathDelay : Nat := (0x1400) * 256 + (0x07)

/-- `time.utc_offset`, 1400h:08. -/
def Ent.timeUtcOffset : Nat := (0x1400) * 256 + (0x08)

/-- `time.utc_valid`, 1400h:09. -/
def Ent.timeUtcValid : Nat := (0x1400) * 256 + (0x09)

/-- `time.leap`, 1400h:0A. -/
def Ent.timeLeap : Nat := (0x1400) * 256 + (0x0A)

/-- `time.set`, 1400h:0B. -/
def Ent.timeSet : Nat := (0x1400) * 256 + (0x0B)

/-- `time.accept_step`, 1400h:0C. -/
def Ent.timeAcceptStep : Nat := (0x1400) * 256 + (0x0C)

/-- `time.gm_jump`, 1400h:0D. -/
def Ent.timeGmJump : Nat := (0x1400) * 256 + (0x0D)

/-- `time.step_s`, 1400h:0E. -/
def Ent.timeStepS : Nat := (0x1400) * 256 + (0x0E)

/-- `time.step_ns`, 1400h:0F. -/
def Ent.timeStepNs : Nat := (0x1400) * 256 + (0x0F)

/-- `time.steps`, 1400h:10. -/
def Ent.timeSteps : Nat := (0x1400) * 256 + (0x10)

/-- `time.jump_threshold`, 1400h:11. -/
def Ent.timeJumpThreshold : Nat := (0x1400) * 256 + (0x11)

/-- `time.jump_count`, 1400h:12. -/
def Ent.timeJumpCount : Nat := (0x1400) * 256 + (0x12)

/-- `time.holdover_allow`, 1400h:13. -/
def Ent.timeHoldoverAllow : Nat := (0x1400) * 256 + (0x13)

/-- `time.lock_window`, 1400h:14. -/
def Ent.timeLockWindow : Nat := (0x1400) * 256 + (0x14)

/-- `time.group_aligned`, 1400h:15. -/
def Ent.timeGroupAligned : Nat := (0x1400) * 256 + (0x15)

/-- `time.outliers`, 1400h:16. -/
def Ent.timeOutliers : Nat := (0x1400) * 256 + (0x16)

/-- `time.last_lock`, 1400h:17. -/
def Ent.timeLastLock : Nat := (0x1400) * 256 + (0x17)

/-- `ptp.mode`, 1410h:01. -/
def Ent.ptpMode : Nat := (0x1410) * 256 + (0x01)

/-- `ptp.domain`, 1410h:02. -/
def Ent.ptpDomain : Nat := (0x1410) * 256 + (0x02)

/-- `ptp.transport`, 1410h:03. -/
def Ent.ptpTransport : Nat := (0x1410) * 256 + (0x03)

/-- `ptp.port_select`, 1410h:04. -/
def Ent.ptpPortSelect : Nat := (0x1410) * 256 + (0x04)

/-- `ptp.two_step`, 1410h:05. -/
def Ent.ptpTwoStep : Nat := (0x1410) * 256 + (0x05)

/-- `ptp.log_sync`, 1410h:06. -/
def Ent.ptpLogSync : Nat := (0x1410) * 256 + (0x06)

/-- `ptp.log_announce`, 1410h:07. -/
def Ent.ptpLogAnnounce : Nat := (0x1410) * 256 + (0x07)

/-- `ptp.log_delay_req`, 1410h:08. -/
def Ent.ptpLogDelayReq : Nat := (0x1410) * 256 + (0x08)

/-- `ptp.announce_timeout`, 1410h:09. -/
def Ent.ptpAnnounceTimeout : Nat := (0x1410) * 256 + (0x09)

/-- `ptp.priority1`, 1410h:0A. -/
def Ent.ptpPriority1 : Nat := (0x1410) * 256 + (0x0A)

/-- `ptp.priority2`, 1410h:0B. -/
def Ent.ptpPriority2 : Nat := (0x1410) * 256 + (0x0B)

/-- `ptp.clock_class`, 1410h:0C. -/
def Ent.ptpClockClass : Nat := (0x1410) * 256 + (0x0C)

/-- `ptp.sync_timeout`, 1410h:0D. -/
def Ent.ptpSyncTimeout : Nat := (0x1410) * 256 + (0x0D)

/-- `ptp.servo_kp`, 1410h:0E. -/
def Ent.ptpServoKp : Nat := (0x1410) * 256 + (0x0E)

/-- `ptp.servo_ki`, 1410h:0F. -/
def Ent.ptpServoKi : Nat := (0x1410) * 256 + (0x0F)

/-- `ptp.port_active`, 1410h:10. -/
def Ent.ptpPortActive : Nat := (0x1410) * 256 + (0x10)

/-- `ptp.gm_identity`, 1410h:11. -/
def Ent.ptpGmIdentity : Nat := (0x1410) * 256 + (0x11)

/-- `ptp.steps_removed`, 1410h:12. -/
def Ent.ptpStepsRemoved : Nat := (0x1410) * 256 + (0x12)

/-- `ptp.sync_rx`, 1410h:13. -/
def Ent.ptpSyncRx : Nat := (0x1410) * 256 + (0x13)

/-- `ptp.link[k].ingress`, 1420h+k:01. -/
def Ent.ptpLinkIngress (k : Nat) : Nat := (0x1420+k) * 256 + (0x01)

/-- `ptp.link[k].egress`, 1420h+k:02. -/
def Ent.ptpLinkEgress (k : Nat) : Nat := (0x1420+k) * 256 + (0x02)

/-- `ptp.link[k].stamps`, 1420h+k:03. -/
def Ent.ptpLinkStamps (k : Nat) : Nat := (0x1420+k) * 256 + (0x03)

/-- `cal.time`, 1440h:01. -/
def Ent.calTime : Nat := (0x1440) * 256 + (0x01)

/-- `cal.valid`, 1440h:02. -/
def Ent.calValid : Nat := (0x1440) * 256 + (0x02)

/-- `cal.auto_trim`, 1440h:03. -/
def Ent.calAutoTrim : Nat := (0x1440) * 256 + (0x03)

/-- `cal.trim`, 1440h:04. -/
def Ent.calTrim : Nat := (0x1440) * 256 + (0x04)

/-- `cal.charge`, 1440h:05. -/
def Ent.calCharge : Nat := (0x1440) * 256 + (0x05)

/-- `cal.backup_mv`, 1440h:06. -/
def Ent.calBackupMv : Nat := (0x1440) * 256 + (0x06)

/-- `cal.error`, 1440h:07. -/
def Ent.calError : Nat := (0x1440) * 256 + (0x07)

/-- `red.enable`, 1C00h:01. -/
def Ent.redEnable : Nat := (0x1C00) * 256 + (0x01)

/-- `red.auto_resync`, 1C00h:02. -/
def Ent.redAutoResync : Nat := (0x1C00) * 256 + (0x02)

/-- `red.resync_retry`, 1C00h:03. -/
def Ent.redResyncRetry : Nat := (0x1C00) * 256 + (0x03)

/-- `red.verify_takeover`, 1C00h:04. -/
def Ent.redVerifyTakeover : Nat := (0x1C00) * 256 + (0x04)

/-- `red.cold_takeover`, 1C00h:05. -/
def Ent.redColdTakeover : Nat := (0x1C00) * 256 + (0x05)

/-- `red.handover`, 1C00h:06. -/
def Ent.redHandover : Nat := (0x1C00) * 256 + (0x06)

/-- `red.demote`, 1C00h:07. -/
def Ent.redDemote : Nat := (0x1C00) * 256 + (0x07)

/-- `red.resync`, 1C00h:08. -/
def Ent.redResync : Nat := (0x1C00) * 256 + (0x08)

/-- `red.verify_ticks`, 1C00h:09. -/
def Ent.redVerifyTicks : Nat := (0x1C00) * 256 + (0x09)

/-- `red.role`, 1C10h:01. -/
def Ent.redRole : Nat := (0x1C10) * 256 + (0x01)

/-- `red.state`, 1C10h:02. -/
def Ent.redState : Nat := (0x1C10) * 256 + (0x02)

/-- `red.member`, 1C10h:03. -/
def Ent.redMember : Nat := (0x1C10) * 256 + (0x03)

/-- `red.partner_serial`, 1C10h:04. -/
def Ent.redPartnerSerial : Nat := (0x1C10) * 256 + (0x04)

/-- `red.link_state`, 1C10h:05. -/
def Ent.redLinkState : Nat := (0x1C10) * 256 + (0x05)

/-- `red.lines_partner`, 1C10h:06. -/
def Ent.redLinesPartner : Nat := (0x1C10) * 256 + (0x06)

/-- `red.partner_pwr_ok`, 1C10h:07. -/
def Ent.redPartnerPwrOk : Nat := (0x1C10) * 256 + (0x07)

/-- `red.reason`, 1C10h:08. -/
def Ent.redReason : Nat := (0x1C10) * 256 + (0x08)

/-- `red.redundant`, 1C10h:09. -/
def Ent.redRedundant : Nat := (0x1C10) * 256 + (0x09)

/-- `red.token_wiring`, 1C10h:0A. -/
def Ent.redTokenWiring : Nat := (0x1C10) * 256 + (0x0A)

/-- `red.verify_count`, 1C10h:0B. -/
def Ent.redVerifyCount : Nat := (0x1C10) * 256 + (0x0B)

/-- `red.resync_progress`, 1C10h:0C. -/
def Ent.redResyncProgress : Nat := (0x1C10) * 256 + (0x0C)

/-- `red.switchovers`, 1C10h:0D. -/
def Ent.redSwitchovers : Nat := (0x1C10) * 256 + (0x0D)

/-- `red.last_takeover`, 1C10h:0E. -/
def Ent.redLastTakeover : Nat := (0x1C10) * 256 + (0x0E)

/-- `red.retired_instances`, 1C10h:0F. -/
def Ent.redRetiredInstances : Nat := (0x1C10) * 256 + (0x0F)

/-- `red.late_commits`, 1C10h:10. -/
def Ent.redLateCommits : Nat := (0x1C10) * 256 + (0x10)

/-- `red.mismatches`, 1C10h:11. -/
def Ent.redMismatches : Nat := (0x1C10) * 256 + (0x11)

/-- `red.claim_conflicts`, 1C10h:12. -/
def Ent.redClaimConflicts : Nat := (0x1C10) * 256 + (0x12)

/-- `red.link_resends`, 1C10h:13. -/
def Ent.redLinkResends : Nat := (0x1C10) * 256 + (0x13)

/-- `clk.fault`, 1000h:01. -/
def Ent.clkFault : Nat := (0x1000) * 256 + (0x01)

/-- `clk.source`, 1000h:02. -/
def Ent.clkSource : Nat := (0x1000) * 256 + (0x02)

/-- `clk.tcxo_attempts`, 1000h:03. -/
def Ent.clkTcxoAttempts : Nat := (0x1000) * 256 + (0x03)

/-- `clk.monitor_armed`, 1000h:04. -/
def Ent.clkMonitorArmed : Nat := (0x1000) * 256 + (0x04)

/-- `clk.pll_lock`, 1000h:05. -/
def Ent.clkPllLock : Nat := (0x1000) * 256 + (0x05)

/-- `clk.loop_hz`, 1000h:06. -/
def Ent.clkLoopHz : Nat := (0x1000) * 256 + (0x06)

/-- `clk.step`, 1000h:07. -/
def Ent.clkStep : Nat := (0x1000) * 256 + (0x07)

/-- `clk.switches`, 1000h:08. -/
def Ent.clkSwitches : Nat := (0x1000) * 256 + (0x08)

/-- `clk.rc_fault`, 1000h:09. -/
def Ent.clkRcFault : Nat := (0x1000) * 256 + (0x09)

/-- `clk.tcxo_dev`, 1000h:0A. -/
def Ent.clkTcxoDev : Nat := (0x1000) * 256 + (0x0A)

/-- `clk.mgmt_div`, 1000h:0B. -/
def Ent.clkMgmtDiv : Nat := (0x1000) * 256 + (0x0B)

/-- `clk.motion_div`, 1000h:0C. -/
def Ent.clkMotionDiv : Nat := (0x1000) * 256 + (0x0C)

/-- `gate[b].run_en`, 1020h+b:01. -/
def Ent.gateRunEn (b : Nat) : Nat := (0x1020+b) * 256 + (0x01)

/-- `gate[b].sleep_en`, 1020h+b:02. -/
def Ent.gateSleepEn (b : Nat) : Nat := (0x1020+b) * 256 + (0x02)

/-- `gate[b].deep_en`, 1020h+b:03. -/
def Ent.gateDeepEn (b : Nat) : Nat := (0x1020+b) * 256 + (0x03)

/-- `gate[b].gated`, 1020h+b:04. -/
def Ent.gateGated (b : Nat) : Nat := (0x1020+b) * 256 + (0x04)

/-- `gate[b].wakes`, 1020h+b:05. -/
def Ent.gateWakes (b : Nat) : Nat := (0x1020+b) * 256 + (0x05)

/-- `gate[b].refused`, 1020h+b:06. -/
def Ent.gateRefused (b : Nat) : Nat := (0x1020+b) * 256 + (0x06)

/-- `gate[b].max_defer`, 1020h+b:07. -/
def Ent.gateMaxDefer (b : Nat) : Nat := (0x1020+b) * 256 + (0x07)

/-- `pwr.state`, 1100h:01. -/
def Ent.pwrState : Nat := (0x1100) * 256 + (0x01)

/-- `pwr.state_req`, 1100h:02. -/
def Ent.pwrStateReq : Nat := (0x1100) * 256 + (0x02)

/-- `pwr.wake_mask`, 1100h:03. -/
def Ent.pwrWakeMask : Nat := (0x1100) * 256 + (0x03)

/-- `pwr.wake_time`, 1100h:04. -/
def Ent.pwrWakeTime : Nat := (0x1100) * 256 + (0x04)

/-- `pwr.last_wake`, 1100h:05. -/
def Ent.pwrLastWake : Nat := (0x1100) * 256 + (0x05)

/-- `pwr.input_mv`, 1100h:06. -/
def Ent.pwrInputMv : Nat := (0x1100) * 256 + (0x06)

/-- `pwr.input_mw`, 1100h:07. -/
def Ent.pwrInputMw : Nat := (0x1100) * 256 + (0x07)

/-- `pwr.bank_mv`, 1100h:08. -/
def Ent.pwrBankMv : Nat := (0x1100) * 256 + (0x08)

/-- `pwr.bank_uj`, 1100h:09. -/
def Ent.pwrBankUj : Nat := (0x1100) * 256 + (0x09)

/-- `pwr.bank_uf`, 1100h:0A. -/
def Ent.pwrBankUf : Nat := (0x1100) * 256 + (0x0A)

/-- `pwr.full_ms`, 1100h:0B. -/
def Ent.pwrFullMs : Nat := (0x1100) * 256 + (0x0B)

/-- `pwr.reserve_uj`, 1100h:0C. -/
def Ent.pwrReserveUj : Nat := (0x1100) * 256 + (0x0C)

/-- `pwr.ridethroughs`, 1100h:0D. -/
def Ent.pwrRidethroughs : Nat := (0x1100) * 256 + (0x0D)

/-- `pwr.last_full_us`, 1100h:0E. -/
def Ent.pwrLastFullUs : Nat := (0x1100) * 256 + (0x0E)

/-- `pwr.last_persist_us`, 1100h:0F. -/
def Ent.pwrLastPersistUs : Nat := (0x1100) * 256 + (0x0F)

/-- `pwr.last_min_step`, 1100h:10. -/
def Ent.pwrLastMinStep : Nat := (0x1100) * 256 + (0x10)

/-- `pwr.last_end_uj`, 1100h:11. -/
def Ent.pwrLastEndUj : Nat := (0x1100) * 256 + (0x11)

/-- `sec.lifecycle`, 1800h:01. -/
def Ent.secLifecycle : Nat := (0x1800) * 256 + (0x01)

/-- `sec.lifecycle_req`, 1800h:02. -/
def Ent.secLifecycleReq : Nat := (0x1800) * 256 + (0x02)

/-- `sec.lifecycle_confirm`, 1800h:03. -/
def Ent.secLifecycleConfirm : Nat := (0x1800) * 256 + (0x03)

/-- `sec.runtime_slot`, 1800h:04. -/
def Ent.secRuntimeSlot : Nat := (0x1800) * 256 + (0x04)

/-- `sec.runtime_sv`, 1800h:05. -/
def Ent.secRuntimeSv : Nat := (0x1800) * 256 + (0x05)

/-- `sec.sv_counter`, 1800h:06. -/
def Ent.secSvCounter : Nat := (0x1800) * 256 + (0x06)

/-- `sec.commit_sv`, 1800h:07. -/
def Ent.secCommitSv : Nat := (0x1800) * 256 + (0x07)

/-- `sec.runtime_update`, 1800h:08. -/
def Ent.secRuntimeUpdate : Nat := (0x1800) * 256 + (0x08)

/-- `sec.slot_pref`, 1800h:09. -/
def Ent.secSlotPref : Nat := (0x1800) * 256 + (0x09)

/-- `sec.sig_reason`, 1800h:0A. -/
def Ent.secSigReason : Nat := (0x1800) * 256 + (0x0A)

/-- `sec.sig_entry`, 1800h:0B. -/
def Ent.secSigEntry : Nat := (0x1800) * 256 + (0x0B)

/-- `sec.fuse_rows`, 1800h:0C. -/
def Ent.secFuseRows : Nat := (0x1800) * 256 + (0x0C)

/-- `sec.validity_unchecked`, 1800h:0D. -/
def Ent.secValidityUnchecked : Nat := (0x1800) * 256 + (0x0D)

/-- `sec.anchor[k].cert`, 1810h+k:01. -/
def Ent.secAnchorCert (k : Nat) : Nat := (0x1810+k) * 256 + (0x01)

/-- `sec.anchor[k].use`, 1810h+k:02. -/
def Ent.secAnchorUse (k : Nat) : Nat := (0x1810+k) * 256 + (0x02)

/-- `sec.anchor[k].fingerprint`, 1810h+k:03. -/
def Ent.secAnchorFingerprint (k : Nat) : Nat := (0x1810+k) * 256 + (0x03)

/-- `sec.anchor[k].hits`, 1810h+k:04. -/
def Ent.secAnchorHits (k : Nat) : Nat := (0x1810+k) * 256 + (0x04)

/-- `sec.root_hash`, 1820h:01. -/
def Ent.secRootHash : Nat := (0x1820) * 256 + (0x01)

/-- `sec.commissioning_fp`, 1820h:02. -/
def Ent.secCommissioningFp : Nat := (0x1820) * 256 + (0x02)

/-- `sec.service_fp`, 1820h:03. -/
def Ent.secServiceFp : Nat := (0x1820) * 256 + (0x03)

/-- `att.nonce`, 1830h:01. -/
def Ent.attNonce : Nat := (0x1830) * 256 + (0x01)

/-- `att.report`, 1830h:02. -/
def Ent.attReport : Nat := (0x1830) * 256 + (0x02)

/-- `att.cert`, 1830h:03. -/
def Ent.attCert : Nat := (0x1830) * 256 + (0x03)

/-- `att.identity_cert`, 1830h:04. -/
def Ent.attIdentityCert : Nat := (0x1830) * 256 + (0x04)

/-- `att.reports`, 1830h:05. -/
def Ent.attReports : Nat := (0x1830) * 256 + (0x05)

/-- `dbg.level`, 1840h:01. -/
def Ent.dbgLevel : Nat := (0x1840) * 256 + (0x01)

/-- `dbg.request`, 1840h:02. -/
def Ent.dbgRequest : Nat := (0x1840) * 256 + (0x02)

/-- `dbg.challenge`, 1840h:03. -/
def Ent.dbgChallenge : Nat := (0x1840) * 256 + (0x03)

/-- `dbg.token`, 1840h:04. -/
def Ent.dbgToken : Nat := (0x1840) * 256 + (0x04)

/-- `dbg.expires`, 1840h:05. -/
def Ent.dbgExpires : Nat := (0x1840) * 256 + (0x05)

/-- `dbg.service_until`, 1840h:06. -/
def Ent.dbgServiceUntil : Nat := (0x1840) * 256 + (0x06)

/-- `dbg.refused`, 1840h:07. -/
def Ent.dbgRefused : Nat := (0x1840) * 256 + (0x07)

/-- `dbg.scan_blocked`, 1840h:08. -/
def Ent.dbgScanBlocked : Nat := (0x1840) * 256 + (0x08)

/-- `dbg.idcode`, 1840h:09. -/
def Ent.dbgIdcode : Nat := (0x1840) * 256 + (0x09)

/-- `sess[i].id`, 1850h+i:01. -/
def Ent.sessId (i : Nat) : Nat := (0x1850+i) * 256 + (0x01)

/-- `sess[i].role`, 1850h+i:02. -/
def Ent.sessRole (i : Nat) : Nat := (0x1850+i) * 256 + (0x02)

/-- `sess[i].link`, 1850h+i:03. -/
def Ent.sessLink (i : Nat) : Nat := (0x1850+i) * 256 + (0x03)

/-- `sess[i].peer`, 1850h+i:04. -/
def Ent.sessPeer (i : Nat) : Nat := (0x1850+i) * 256 + (0x04)

/-- `sess[i].opened`, 1850h+i:05. -/
def Ent.sessOpened (i : Nat) : Nat := (0x1850+i) * 256 + (0x05)

/-- `sess[i].client_fp`, 1850h+i:06. -/
def Ent.sessClientFp (i : Nat) : Nat := (0x1850+i) * 256 + (0x06)

/-- `mod.slot`, 1140h:01. -/
def Ent.modSlot : Nat := (0x1140) * 256 + (0x01)

/-- `mod.present`, 1140h:02. -/
def Ent.modPresent : Nat := (0x1140) * 256 + (0x02)

/-- `mod.present_glitches`, 1140h:03. -/
def Ent.modPresentGlitches : Nat := (0x1140) * 256 + (0x03)

/-- `mod.power_ups`, 1140h:04. -/
def Ent.modPowerUps : Nat := (0x1140) * 256 + (0x04)

/-- `mod.removals`, 1140h:05. -/
def Ent.modRemovals : Nat := (0x1140) * 256 + (0x05)

/-- `mod.aborted_insertions`, 1140h:06. -/
def Ent.modAbortedInsertions : Nat := (0x1140) * 256 + (0x06)

/-- `mod.charge_ms`, 1140h:07. -/
def Ent.modChargeMs : Nat := (0x1140) * 256 + (0x07)

/-- `mod.plate_temp`, 1140h:08. -/
def Ent.modPlateTemp : Nat := (0x1140) * 256 + (0x08)

/-- `mod.soc_temp`, 1140h:09. -/
def Ent.modSocTemp : Nat := (0x1140) * 256 + (0x09)

/-- `mod.plate_temp_max`, 1140h:0A. -/
def Ent.modPlateTempMax : Nat := (0x1140) * 256 + (0x0A)

/-- `mod.thermal`, 1140h:0B. -/
def Ent.modThermal : Nat := (0x1140) * 256 + (0x0B)

/-- `mod.thermal_warn`, 1140h:0C. -/
def Ent.modThermalWarn : Nat := (0x1140) * 256 + (0x0C)

/-- `mod.hours`, 1140h:0D. -/
def Ent.modHours : Nat := (0x1140) * 256 + (0x0D)

/-- `boot.phase`, 0200h:01. -/
def Ent.bootPhase : Nat := (0x200) * 256 + (0x01)

/-- `boot.ready`, 0200h:02. -/
def Ent.bootReady : Nat := (0x200) * 256 + (0x02)

/-- `boot.ready_ms`, 0200h:03. -/
def Ent.bootReadyMs : Nat := (0x200) * 256 + (0x03)

/-- `boot.cause`, 0200h:04. -/
def Ent.bootCause : Nat := (0x200) * 256 + (0x04)

/-- `boot.faults`, 0200h:05. -/
def Ent.bootFaults : Nat := (0x200) * 256 + (0x05)

/-- `boot.started`, 0200h:06. -/
def Ent.bootStarted : Nat := (0x200) * 256 + (0x06)

/-- `boot.refused`, 0200h:07. -/
def Ent.bootRefused : Nat := (0x200) * 256 + (0x07)

end Sys2Proof.Machine
end

