-- ==== Sys2Proof/Machine/Bits.lean ====
section
/-! DEFINITION. Byte order, sign extension, saturation, and the two CRCs of the manual. -/

namespace Sys2Proof.Machine

/-- The `n` bytes of a number, least significant byte first (R42). -/
def leBytes : Nat → Nat → List Byte
  | 0, _ => []
  | n + 1, v => BitVec.ofNat 8 v :: leBytes n (v / 256)

/-- The number that bytes spell, least significant byte first (R42). -/
def leNat : List Byte → Nat
  | [] => 0
  | b :: bs => b.toNat + 256 * leNat bs

/-- Bytes `lo .. lo + n - 1` of a list, as a number; absent bytes read as 0. -/
def leAt (bs : List Byte) (lo n : Nat) : Nat := leNat ((bs.drop lo).take n)

/-- Bit `i` of a number. -/
def bit (v i : Nat) : Bool := v.testBit i

/-- Bits `hi .. lo` of a number. -/
def bits (v hi lo : Nat) : Nat := v / 2 ^ lo % 2 ^ (hi + 1 - lo)

/-- The bytes of a signed image before its signature block, whose length stands in the last 4 bytes (Table 16.3). -/
def imagePart (bs : List Byte) : List Byte := bs.take (bs.length - leAt bs (bs.length - 4) 4)

/-- A Bool as the number 0 or 1. -/
def b01 (b : Bool) : Nat := if b then 1 else 0

/-- The signed reading of the low `n` bits of a number. -/
def sint (n v : Nat) : Int := (BitVec.ofNat n v).toInt

/-- The `n`-bit two's complement code of an integer. -/
def uint (n : Nat) (i : Int) : Nat := (BitVec.ofInt n i).toNat

/-- Saturation of an integer to `n` signed bits; it is always named where it applies (R9). -/
def satInt (n : Nat) (i : Int) : Int :=
  if i < -(2 ^ (n - 1) : Int) then -(2 ^ (n - 1) : Int)
  else if i > (2 ^ (n - 1) : Int) - 1 then (2 ^ (n - 1) : Int) - 1 else i

/-- A number held at its largest value `2^n - 1`. -/
def satNat (n v : Nat) : Nat := if v < 2 ^ n then v else 2 ^ n - 1

/-- An integer saturated to 20 bits. -/
def satQ (i : Int) : Q := BitVec.ofInt 20 (satInt 20 i)

/-- An integer kept to its low 20 bits. -/
def wrapQ (i : Int) : Q := BitVec.ofInt 20 i

/-- The wire value of a 20-bit value outside the process image: bits [31:20] repeat bit 19 (Table 2.1). -/
def qWire (q : Q) : Nat := (q.signExtend 32).toNat

/-- The 20-bit value of a wire value. -/
def wireQ (v : Nat) : Q := BitVec.ofNat 20 v

/-- The wire value of a T80: bytes 0 to 5 the seconds, bytes 6 to 9 the nanoseconds (Table 2.1). -/
def t80Wire (t : T80) : Nat := t.sec % 2 ^ 48 + 2 ^ 48 * t.ns

/-- The T80 of a wire value. -/
def wireT80 (v : Nat) : T80 := ⟨v % 2 ^ 48, v / 2 ^ 48 % 2 ^ 32⟩

/-- One bit of a reflected CRC register with polynomial `p`. -/
def crcBit {n : Nat} (p : BitVec n) (c : BitVec n) : BitVec n :=
  if c.getLsbD 0 then (c >>> 1) ^^^ p else c >>> 1

/-- One byte into a reflected CRC-32 register. -/
def crc32Byte (c : BitVec 32) (b : Byte) : BitVec 32 :=
  (List.range 8).foldl (fun c _ => crcBit 0x82F63B78#32 c) (c ^^^ b.zeroExtend 32)

/-- CRC-32C: polynomial 1EDC_6F41h, reflected, initial value and final XOR FFFF_FFFFh (R54). -/
def crc32c (bs : List Byte) : Nat := ((bs.foldl crc32Byte 0xFFFFFFFF#32) ^^^ 0xFFFFFFFF#32).toNat

/-- The bytes of an ASCII text. -/
def ascii (s : String) : List Byte := s.toList.map (fun c => BitVec.ofNat 8 c.toNat)

/-- The first `n` bytes of a list, with 00h after its end. -/
def padTo (n : Nat) (bs : List Byte) : List Byte := (bs ++ List.replicate n 0).take n

/-- Keep the last `n` elements. -/
def keepLast {α : Type} (n : Nat) (l : List α) : List α := l.drop (l.length - n)

/-- The first element that meets a condition, mapped; the others unchanged. -/
def mapFirst {α : Type} (p : α → Bool) (f : α → α) : List α → List α
  | [] => []
  | a :: l => if p a then f a :: l else a :: mapFirst p f l

/-- Apply `f` to the element at a position. -/
def modAt {α : Type} (i : Nat) (f : α → α) (l : List α) : List α := l.modify i f

/-- Fold an action over the numbers `0 .. n - 1`, in rising order. -/
def forN {σ : Type} (n : Nat) (f : Nat → σ → σ) (s : σ) : σ := (List.range n).foldl (fun s i => f i s) s

/-- Fold an action over a list, in order. -/
def forL {σ α : Type} (l : List α) (f : α → σ → σ) (s : σ) : σ := l.foldl (fun s a => f a s) s

/-- One bit of a CRC-16 register, most significant bit first, polynomial 1021h. -/
def crc16Bit (c : BitVec 16) : BitVec 16 := if c.getLsbD 15 then (c <<< 1) ^^^ 0x1021#16 else c <<< 1

/-- One byte into a CRC-16 register. -/
def crc16Byte (c : BitVec 16) (b : Byte) : BitVec 16 :=
  (List.range 8).foldl (fun c _ => crc16Bit c) (c ^^^ (b.zeroExtend 16 <<< 8))

/-- CRC-16: polynomial 1021h, initial value FFFFh, not reflected (Table 9.7). -/
def crc16 (bs : List Byte) : Nat := (bs.foldl crc16Byte 0xFFFF#16).toNat

end Sys2Proof.Machine
end

