-- ==== Sys2Proof/Machine/Rows.lean ====
section
/-! DEFINITION. The parameter dictionary's entries, row by row as the chapters' tables give them: type, access, default, listed values or range, and key. -/

namespace Sys2Proof.Machine

/-- Data types (Table 2.1). -/
inductive Ty where
  | bool | u8 | u16 | u32 | u64 | i20 | i32 | i48 | q20 | f32 | t80 | str | dom
  deriving DecidableEq, Repr

/-- Access codes (Table 2.2). -/
inductive Access where
  | const | ro | rw | wo | rws
  deriving DecidableEq, Repr

/-- The type code of Table 2.1. -/
def Ty.code : Ty → Nat
  | .bool => 1 | .u8 => 2 | .u16 => 3 | .u32 => 4 | .u64 => 5 | .i20 => 6 | .i32 => 7 | .i48 => 8
  | .q20 => 9 | .f32 => 10 | .t80 => 11 | .str => 12 | .dom => 13

/-- Wire bytes of a type; 0 for STR and DOM (R43). -/
def Ty.size : Ty → Nat
  | .bool => 1 | .u8 => 1 | .u16 => 2 | .u32 => 4 | .u64 => 8 | .i20 => 4 | .i32 => 4 | .i48 => 8
  | .q20 => 4 | .f32 => 4 | .t80 => 10 | .str => 0 | .dom => 0

/-- The encoding rule of Table 2.1 on a raw value of the type's size. -/
def Ty.encOk (t : Ty) (v : Nat) : Bool :=
  match t with
  | .bool => decide (v ≤ 1)
  | .i20 | .q20 => decide (v = qWire (wireQ v))
  | .i48 => decide (v = uint 64 (sint 48 v))
  | .f32 => decide (bits v 30 23 ≠ 255)
  | .t80 => decide (v / 2 ^ 48 < 1000000000)
  | _ => true

/-- Rows of entries that share all but their instance numbers: first index, number of indices, first sub, number of subs and their step, type, access, default as a raw value, longest STR or DOM, and the listed values or range. -/
structure Row where
  idx : Nat
  n : Nat
  sub : Nat
  ns : Nat
  step : Nat
  ty : Ty
  acc : Access
  dflt : Nat
  max : Nat
  ok : Nat → Bool

/-- The row holds this index and sub. -/
def Row.has (r : Row) (idx sub : Nat) : Bool :=
  decide (r.idx ≤ idx) && decide (idx < r.idx + r.n) && decide (r.sub ≤ sub) &&
    decide ((sub - r.sub) % r.step = 0) && decide ((sub - r.sub) / r.step < r.ns)

/-- Every value of the type is accepted. -/
def any (_ : Nat) : Bool := true
/-- At most `hi`. -/
def upto (hi v : Nat) : Bool := decide (v ≤ hi)
/-- At least `lo`. -/
def atLeast (lo v : Nat) : Bool := decide (lo ≤ v)
/-- Below `hi`. -/
def below (hi v : Nat) : Bool := decide (v < hi)
/-- `lo` to `hi`. -/
def range (lo hi v : Nat) : Bool := decide (lo ≤ v) && decide (v ≤ hi)
/-- `lo` to `hi` as a signed number of `n` bits. -/
def within (n : Nat) (lo hi : Int) (v : Nat) : Bool := decide (lo ≤ sint n v) && decide (sint n v ≤ hi)
/-- One value. -/
def only (x v : Nat) : Bool := decide (v = x)
/-- One of a list. -/
def oneOf (l : List Nat) (v : Nat) : Bool := l.contains v
/-- Only bits of a mask. -/
def maskOk (mask v : Nat) : Bool := decide (Nat.land v mask = v)
/-- A word address, or FFFF_FFFFh for none (R112). -/
def wordAddr (v : Nat) : Bool := decide (v ≤ 0x3FFFF) || decide (v = 0xFFFFFFFF)
/-- A Q20 value of 0 or more. -/
def qNonneg (v : Nat) : Bool := decide (0 ≤ sint 20 v)
/-- A Q20 value above 0. -/
def qPos (v : Nat) : Bool := decide (0 < sint 20 v)
/-- At most `n` bits set among 32. -/
def atMostBits (n v : Nat) : Bool := decide (((List.range 32).filter (bit v)).length ≤ n)
/-- `slate.valve[v]`: [43:21] 0, or all ones. -/
def valveOk (v : Nat) : Bool := decide (v = 0xFFFFFFFFFFFFFFFF) || decide (bits v 43 21 = 0)
/-- A force entry without a reserved bit (R232): [63:44] value, [43:19] 0, [18] ENABLE, [17:0] address. -/
def forceOk (v : Nat) : Bool := decide (bits v 43 19 = 0)
/-- An axis command: [63:40] 0 and a known code (R245, R247). -/
def axisCmdOk (v : Nat) : Bool := decide (v < 2 ^ 40) && range 1 14 (bits v 39 32)
/-- A trunk map entry: all ones, or [28:24] and [20:18] 0. -/
def trunkMapOk (v : Nat) : Bool :=
  decide (v = 0xFFFFFFFF) || (decide (bits v 28 24 = 0) && decide (bits v 20 18 = 0) && decide (bits v 30 29 ≤ 2))
/-- An object to cancel, 0 to 127, or FFh for the queue. -/
def cancelOk (v : Nat) : Bool := decide (v ≤ 127) || decide (v = 255)
/-- An ISO 11898-1 payload length. -/
def canLen (v : Nat) : Bool := oneOf [0, 1, 2, 3, 4, 5, 6, 7, 8, 12, 16, 20, 24, 32, 48, 64] v
/-- `agate.note`: [47:32] 0 (R391). -/
def noteOk (v : Nat) : Bool := decide (bits v 47 32 = 0)

/-- Entries of 0000h to 0FFFh. -/
def rowsLow : List Row :=
  [⟨0x0100, 1, 0x00, 1, 1, .u8, .const, 6, 0, any⟩,
   ⟨0x0100, 1, 0x01, 1, 1, .str, .const, 0, 16, any⟩,
   ⟨0x0100, 1, 0x02, 1, 1, .u8, .const, 0, 0, any⟩,
   ⟨0x0100, 1, 0x03, 1, 1, .str, .const, 0, 16, any⟩,
   ⟨0x0100, 1, 0x04, 1, 1, .u32, .ro, 0, 0, any⟩,
   ⟨0x0100, 1, 0x05, 1, 1, .u32, .const, 0, 0, any⟩,
   ⟨0x0100, 1, 0x06, 1, 1, .u32, .const, 0, 0, any⟩,
   ⟨0x0400, 1539, 0x00, 1, 1, .u8, .const, 13, 0, any⟩,
   ⟨0x0400, 1539, 0x01, 1, 1, .u8, .ro, 0, 0, any⟩,
   ⟨0x0400, 1539, 0x02, 1, 1, .u16, .const, 0, 0, any⟩,
   ⟨0x0400, 1539, 0x03, 1, 1, .u32, .rw, 0, 0, any⟩,
   ⟨0x0400, 1539, 0x04, 1, 1, .bool, .ro, 0, 0, any⟩,
   ⟨0x0400, 1539, 0x05, 1, 1, .u32, .ro, 0, 0, any⟩,
   ⟨0x0400, 1539, 0x06, 1, 1, .u32, .ro, 0, 0, any⟩,
   ⟨0x0400, 1539, 0x07, 1, 1, .bool, .ro, 0, 0, any⟩,
   ⟨0x0400, 1539, 0x08, 1, 1, .u32, .ro, 0, 0, any⟩,
   ⟨0x0400, 1539, 0x09, 1, 1, .u8, .ro, 0, 0, any⟩,
   ⟨0x0400, 1539, 0x0A, 1, 1, .u64, .ro, 0xffffffffffffffff, 0, any⟩,
   ⟨0x0400, 1539, 0x0B, 1, 1, .u16, .ro, 0, 0, any⟩,
   ⟨0x0400, 1539, 0x0C, 1, 1, .u32, .ro, 0, 0, any⟩,
   ⟨0x0400, 1539, 0x0D, 1, 1, .u32, .ro, 0, 0, any⟩,
   ⟨0x0210, 1, 0x00, 1, 1, .u8, .const, 9, 0, any⟩,
   ⟨0x0210, 1, 0x01, 1, 1, .u8, .ro, 0, 0, any⟩,
   ⟨0x0210, 1, 0x02, 1, 1, .u32, .ro, 0, 0, any⟩,
   ⟨0x0210, 1, 0x03, 1, 1, .u8, .ro, 0, 0, any⟩,
   ⟨0x0210, 1, 0x04, 1, 1, .u8, .ro, 0, 0, any⟩,
   ⟨0x0210, 1, 0x05, 1, 1, .u32, .ro, 0, 0, any⟩,
   ⟨0x0210, 1, 0x06, 1, 1, .u32, .const, 0x1ffffc0, 0, any⟩,
   ⟨0x0210, 1, 0x07, 1, 1, .bool, .ro, 0, 0, any⟩,
   ⟨0x0210, 1, 0x08, 1, 1, .bool, .ro, 0, 0, any⟩,
   ⟨0x0210, 1, 0x09, 1, 1, .t80, .ro, 0, 0, any⟩,
   ⟨0x0220, 1, 0x00, 1, 1, .u8, .const, 5, 0, any⟩,
   ⟨0x0220, 1, 0x01, 1, 1, .u8, .ro, 0, 0, any⟩,
   ⟨0x0220, 1, 0x02, 1, 1, .u16, .rw, 30, 0, (range 5 3600)⟩,
   ⟨0x0220, 1, 0x03, 1, 1, .u32, .ro, 0, 0, any⟩,
   ⟨0x0220, 1, 0x04, 1, 1, .u32, .ro, 0, 0, any⟩,
   ⟨0x0220, 1, 0x05, 1, 1, .u8, .ro, 0, 0, any⟩,
   ⟨0x0200, 1, 0x00, 1, 1, .u8, .const, 7, 0, any⟩,
   ⟨0x0200, 1, 0x01, 1, 1, .u8, .ro, 0, 0, any⟩,
   ⟨0x0200, 1, 0x02, 1, 1, .bool, .ro, 0, 0, any⟩]
  ++
  [⟨0x0200, 1, 0x03, 1, 1, .u32, .ro, 0, 0, any⟩,
   ⟨0x0200, 1, 0x04, 1, 1, .u8, .ro, 0, 0, any⟩,
   ⟨0x0200, 1, 0x05, 1, 1, .u16, .ro, 0, 0, any⟩,
   ⟨0x0200, 1, 0x06, 1, 1, .u16, .ro, 0, 0, any⟩,
   ⟨0x0200, 1, 0x07, 1, 1, .u16, .ro, 0, 0, any⟩,
   ⟨0x0001, 13, 0x00, 1, 1, .u8, .const, 2, 0, any⟩,
   ⟨0x0001, 13, 0x01, 1, 1, .u16, .const, 0, 0, any⟩,
   ⟨0x0001, 13, 0x02, 1, 1, .str, .const, 0, 4, any⟩]

/-- Entries of 1000h to 13FFh. -/
def rowsClk : List Row :=
  [⟨0x1000, 1, 0x00, 1, 1, .u8, .const, 12, 0, any⟩,
   ⟨0x1000, 1, 0x01, 1, 1, .bool, .ro, 0, 0, any⟩,
   ⟨0x1000, 1, 0x02, 1, 1, .u8, .ro, 0, 0, any⟩,
   ⟨0x1000, 1, 0x03, 1, 1, .u8, .ro, 0, 0, any⟩,
   ⟨0x1000, 1, 0x04, 1, 1, .bool, .ro, 0, 0, any⟩,
   ⟨0x1000, 1, 0x05, 1, 1, .u8, .ro, 0, 0, any⟩,
   ⟨0x1000, 1, 0x06, 1, 1, .u32, .ro, 0xbebc200, 0, any⟩,
   ⟨0x1000, 1, 0x07, 1, 1, .u8, .ro, 0, 0, any⟩,
   ⟨0x1000, 1, 0x08, 1, 1, .u32, .ro, 0, 0, any⟩,
   ⟨0x1000, 1, 0x09, 1, 1, .bool, .ro, 0, 0, any⟩,
   ⟨0x1000, 1, 0x0A, 1, 1, .i32, .ro, 0, 0, any⟩,
   ⟨0x1000, 1, 0x0B, 1, 1, .u8, .rw, 2, 0, (oneOf [2, 4, 8])⟩,
   ⟨0x1000, 1, 0x0C, 1, 1, .u8, .rw, 16, 0, (oneOf [16, 32])⟩,
   ⟨0x1020, 14, 0x00, 1, 1, .u8, .const, 7, 0, any⟩,
   ⟨0x1020, 14, 0x01, 1, 1, .bool, .rw, 0, 0, any⟩,
   ⟨0x1020, 14, 0x02, 1, 1, .bool, .rw, 0, 0, any⟩,
   ⟨0x1020, 14, 0x03, 1, 1, .bool, .rw, 0, 0, any⟩,
   ⟨0x1020, 14, 0x04, 1, 1, .bool, .ro, 0, 0, any⟩,
   ⟨0x1020, 14, 0x05, 1, 1, .u32, .ro, 0, 0, any⟩,
   ⟨0x1020, 14, 0x06, 1, 1, .u32, .ro, 0, 0, any⟩,
   ⟨0x1020, 14, 0x07, 1, 1, .u16, .ro, 0, 0, any⟩,
   ⟨0x1100, 1, 0x00, 1, 1, .u8, .const, 17, 0, any⟩,
   ⟨0x1100, 1, 0x01, 1, 1, .u8, .ro, 1, 0, any⟩,
   ⟨0x1100, 1, 0x02, 1, 1, .u8, .wo, 0, 0, (only 2)⟩,
   ⟨0x1100, 1, 0x03, 1, 1, .u8, .rw, 1, 0, (upto 31)⟩,
   ⟨0x1100, 1, 0x04, 1, 1, .t80, .rw, 0, 0, any⟩,
   ⟨0x1100, 1, 0x05, 1, 1, .u8, .ro, 255, 0, any⟩,
   ⟨0x1100, 1, 0x06, 1, 1, .u32, .ro, 0, 0, any⟩,
   ⟨0x1100, 1, 0x07, 1, 1, .u32, .ro, 0, 0, any⟩,
   ⟨0x1100, 1, 0x08, 1, 1, .u32, .ro, 0, 0, any⟩,
   ⟨0x1100, 1, 0x09, 1, 1, .u32, .ro, 0, 0, any⟩,
   ⟨0x1100, 1, 0x0A, 1, 1, .u16, .const, 0, 0, any⟩,
   ⟨0x1100, 1, 0x0B, 1, 1, .u16, .rw, 10, 0, (upto 50)⟩,
   ⟨0x1100, 1, 0x0C, 1, 1, .u32, .const, 0x20594, 0, any⟩,
   ⟨0x1100, 1, 0x0D, 1, 1, .u32, .ro, 0, 0, any⟩,
   ⟨0x1100, 1, 0x0E, 1, 1, .u32, .ro, 0, 0, any⟩,
   ⟨0x1100, 1, 0x0F, 1, 1, .u32, .ro, 0, 0, any⟩,
   ⟨0x1100, 1, 0x10, 1, 1, .u8, .ro, 0, 0, any⟩,
   ⟨0x1100, 1, 0x11, 1, 1, .u32, .ro, 0, 0, any⟩,
   ⟨0x1140, 1, 0x00, 1, 1, .u8, .const, 13, 0, any⟩]
  ++
  [⟨0x1140, 1, 0x01, 1, 1, .u8, .ro, 0, 0, any⟩,
   ⟨0x1140, 1, 0x02, 1, 1, .u8, .ro, 3, 0, any⟩,
   ⟨0x1140, 1, 0x03, 1, 1, .u32, .ro, 0, 0, any⟩,
   ⟨0x1140, 1, 0x04, 1, 1, .u32, .ro, 0, 0, any⟩,
   ⟨0x1140, 1, 0x05, 1, 1, .u32, .ro, 0, 0, any⟩,
   ⟨0x1140, 1, 0x06, 1, 1, .u32, .ro, 0, 0, any⟩,
   ⟨0x1140, 1, 0x07, 1, 1, .u16, .ro, 0, 0, any⟩,
   ⟨0x1140, 1, 0x08, 1, 1, .i32, .ro, 0, 0, any⟩,
   ⟨0x1140, 1, 0x09, 1, 1, .i32, .ro, 0, 0, any⟩,
   ⟨0x1140, 1, 0x0A, 1, 1, .i32, .ro, 0, 0, any⟩,
   ⟨0x1140, 1, 0x0B, 1, 1, .u8, .ro, 0, 0, any⟩,
   ⟨0x1140, 1, 0x0C, 1, 1, .i32, .rw, 0x11170, 0, (range 50000 75000)⟩,
   ⟨0x1140, 1, 0x0D, 1, 1, .u32, .ro, 0, 0, any⟩]

/-- Entries of 1400h to 17FFh. -/
def rowsTime : List Row :=
  [⟨0x1400, 1, 0x00, 1, 1, .u8, .const, 23, 0, any⟩,
   ⟨0x1400, 1, 0x01, 1, 1, .t80, .ro, 0, 0, any⟩,
   ⟨0x1400, 1, 0x02, 1, 1, .u8, .ro, 0, 0, any⟩,
   ⟨0x1400, 1, 0x03, 1, 1, .u8, .ro, 0, 0, any⟩,
   ⟨0x1400, 1, 0x04, 1, 1, .u64, .ro, 0x800000000, 0, any⟩,
   ⟨0x1400, 1, 0x05, 1, 1, .i32, .ro, 0, 0, any⟩,
   ⟨0x1400, 1, 0x06, 1, 1, .i32, .ro, 0, 0, any⟩,
   ⟨0x1400, 1, 0x07, 1, 1, .u32, .ro, 0, 0, any⟩,
   ⟨0x1400, 1, 0x08, 1, 1, .i32, .rw, 37, 0, any⟩,
   ⟨0x1400, 1, 0x09, 1, 1, .bool, .ro, 0, 0, any⟩,
   ⟨0x1400, 1, 0x0A, 1, 1, .u8, .ro, 0, 0, any⟩,
   ⟨0x1400, 1, 0x0B, 1, 1, .t80, .wo, 0, 0, any⟩,
   ⟨0x1400, 1, 0x0C, 1, 1, .bool, .wo, 0, 0, any⟩,
   ⟨0x1400, 1, 0x0D, 1, 1, .bool, .ro, 0, 0, any⟩,
   ⟨0x1400, 1, 0x0E, 1, 1, .i48, .ro, 0, 0, any⟩,
   ⟨0x1400, 1, 0x0F, 1, 1, .u32, .ro, 0, 0, any⟩,
   ⟨0x1400, 1, 0x10, 1, 1, .u32, .ro, 0, 0, any⟩,
   ⟨0x1400, 1, 0x11, 1, 1, .u32, .rws, 1000, 0, (range 100 1000000)⟩,
   ⟨0x1400, 1, 0x12, 1, 1, .u8, .rws, 3, 0, (range 1 16)⟩,
   ⟨0x1400, 1, 0x13, 1, 1, .u32, .rws, 500, 0, (upto 100000)⟩,
   ⟨0x1400, 1, 0x14, 1, 1, .u32, .rws, 100, 0, (range 10 10000)⟩,
   ⟨0x1400, 1, 0x15, 1, 1, .bool, .ro, 1, 0, any⟩,
   ⟨0x1400, 1, 0x16, 1, 1, .u32, .ro, 0, 0, any⟩,
   ⟨0x1400, 1, 0x17, 1, 1, .t80, .ro, 0, 0, any⟩,
   ⟨0x1410, 1, 0x00, 1, 1, .u8, .const, 19, 0, any⟩,
   ⟨0x1410, 1, 0x01, 1, 1, .u8, .rws, 0, 0, (upto 1)⟩,
   ⟨0x1410, 1, 0x02, 1, 1, .u8, .rws, 0, 0, (upto 127)⟩,
   ⟨0x1410, 1, 0x03, 1, 1, .u8, .rws, 0, 0, (upto 2)⟩,
   ⟨0x1410, 1, 0x04, 1, 1, .u8, .rws, 3, 0, (upto 3)⟩,
   ⟨0x1410, 1, 0x05, 1, 1, .bool, .rws, 1, 0, any⟩,
   ⟨0x1410, 1, 0x06, 1, 1, .i32, .rws, 0, 0, (within 32 (-7) 1)⟩,
   ⟨0x1410, 1, 0x07, 1, 1, .i32, .rws, 1, 0, (upto 4)⟩,
   ⟨0x1410, 1, 0x08, 1, 1, .i32, .rws, 0, 0, (within 32 (-7) 5)⟩,
   ⟨0x1410, 1, 0x09, 1, 1, .u8, .rws, 3, 0, (range 2 10)⟩,
   ⟨0x1410, 1, 0x0A, 1, 1, .u8, .rws, 128, 0, any⟩,
   ⟨0x1410, 1, 0x0B, 1, 1, .u8, .rws, 128, 0, any⟩,
   ⟨0x1410, 1, 0x0C, 1, 1, .u8, .rws, 248, 0, any⟩,
   ⟨0x1410, 1, 0x0D, 1, 1, .u8, .rws, 4, 0, (range 2 255)⟩,
   ⟨0x1410, 1, 0x0E, 1, 1, .f32, .rws, 0x3f333333, 0, any⟩,
   ⟨0x1410, 1, 0x0F, 1, 1, .f32, .rws, 0x3e99999a, 0, any⟩]
  ++
  [⟨0x1410, 1, 0x10, 1, 1, .u8, .ro, 255, 0, any⟩,
   ⟨0x1410, 1, 0x11, 1, 1, .u64, .ro, 0, 0, any⟩,
   ⟨0x1410, 1, 0x12, 1, 1, .u16, .ro, 0, 0, any⟩,
   ⟨0x1410, 1, 0x13, 1, 1, .u32, .ro, 0, 0, any⟩,
   ⟨0x1420, 3, 0x00, 1, 1, .u8, .const, 3, 0, any⟩,
   ⟨0x1420, 3, 0x01, 1, 1, .u32, .rws, 0, 0, any⟩,
   ⟨0x1420, 3, 0x02, 1, 1, .u32, .rws, 0, 0, any⟩,
   ⟨0x1420, 3, 0x03, 1, 1, .u32, .ro, 0, 0, any⟩,
   ⟨0x1440, 1, 0x00, 1, 1, .u8, .const, 7, 0, any⟩,
   ⟨0x1440, 1, 0x01, 1, 1, .t80, .ro, 0, 0, any⟩,
   ⟨0x1440, 1, 0x02, 1, 1, .bool, .ro, 0, 0, any⟩,
   ⟨0x1440, 1, 0x03, 1, 1, .bool, .rw, 1, 0, any⟩,
   ⟨0x1440, 1, 0x04, 1, 1, .i32, .rw, 0, 0, (within 32 (-63) 63)⟩,
   ⟨0x1440, 1, 0x05, 1, 1, .bool, .rw, 0, 0, any⟩,
   ⟨0x1440, 1, 0x06, 1, 1, .u16, .ro, 0, 0, any⟩,
   ⟨0x1440, 1, 0x07, 1, 1, .i32, .ro, 0, 0, any⟩]

/-- Entries of 1800h to 1BFFh. -/
def rowsSec : List Row :=
  [⟨0x1800, 1, 0x00, 1, 1, .u8, .const, 13, 0, any⟩,
   ⟨0x1800, 1, 0x01, 1, 1, .u8, .ro, 0, 0, any⟩,
   ⟨0x1800, 1, 0x02, 1, 1, .u8, .wo, 0, 0, (upto 4)⟩,
   ⟨0x1800, 1, 0x03, 1, 1, .str, .wo, 0, 16, any⟩,
   ⟨0x1800, 1, 0x04, 1, 1, .u8, .ro, 0, 0, any⟩,
   ⟨0x1800, 1, 0x05, 1, 1, .u32, .ro, 0, 0, any⟩,
   ⟨0x1800, 1, 0x06, 1, 1, .u32, .ro, 0, 0, any⟩,
   ⟨0x1800, 1, 0x07, 1, 1, .bool, .wo, 0, 0, any⟩,
   ⟨0x1800, 1, 0x08, 1, 1, .dom, .wo, 0, 8388608, any⟩,
   ⟨0x1800, 1, 0x09, 1, 1, .u8, .rw, 0, 0, (upto 1)⟩,
   ⟨0x1800, 1, 0x0A, 1, 1, .u8, .ro, 0, 0, any⟩,
   ⟨0x1800, 1, 0x0B, 1, 1, .u32, .ro, 0, 0, any⟩,
   ⟨0x1800, 1, 0x0C, 1, 1, .u8, .ro, 0, 0, any⟩,
   ⟨0x1800, 1, 0x0D, 1, 1, .u32, .ro, 0, 0, any⟩,
   ⟨0x1810, 8, 0x00, 1, 1, .u8, .const, 4, 0, any⟩,
   ⟨0x1810, 8, 0x01, 1, 1, .dom, .rw, 0, 2048, any⟩,
   ⟨0x1810, 8, 0x02, 1, 1, .u8, .rw, 0, 0, (upto 3)⟩,
   ⟨0x1810, 8, 0x03, 1, 1, .dom, .ro, 0, 0, any⟩,
   ⟨0x1810, 8, 0x04, 1, 1, .u32, .ro, 0, 0, any⟩,
   ⟨0x1820, 1, 0x00, 1, 1, .u8, .const, 3, 0, any⟩,
   ⟨0x1820, 1, 0x01, 1, 1, .dom, .ro, 0, 0, any⟩,
   ⟨0x1820, 1, 0x02, 1, 1, .dom, .ro, 0, 0, any⟩,
   ⟨0x1820, 1, 0x03, 1, 1, .dom, .ro, 0, 0, any⟩,
   ⟨0x1830, 1, 0x00, 1, 1, .u8, .const, 5, 0, any⟩,
   ⟨0x1830, 1, 0x01, 1, 1, .dom, .wo, 0, 32, any⟩,
   ⟨0x1830, 1, 0x02, 1, 1, .dom, .ro, 0, 0, any⟩,
   ⟨0x1830, 1, 0x03, 1, 1, .dom, .ro, 0, 2048, any⟩,
   ⟨0x1830, 1, 0x04, 1, 1, .dom, .ro, 0, 2048, any⟩,
   ⟨0x1830, 1, 0x05, 1, 1, .u32, .ro, 0, 0, any⟩,
   ⟨0x1840, 1, 0x00, 1, 1, .u8, .const, 9, 0, any⟩,
   ⟨0x1840, 1, 0x01, 1, 1, .u8, .ro, 0, 0, any⟩,
   ⟨0x1840, 1, 0x02, 1, 1, .u8, .wo, 0, 0, (upto 1)⟩,
   ⟨0x1840, 1, 0x03, 1, 1, .dom, .ro, 0, 0, any⟩,
   ⟨0x1840, 1, 0x04, 1, 1, .dom, .wo, 0, 3232, any⟩,
   ⟨0x1840, 1, 0x05, 1, 1, .t80, .ro, 0, 0, any⟩,
   ⟨0x1840, 1, 0x06, 1, 1, .t80, .ro, 0, 0, any⟩,
   ⟨0x1840, 1, 0x07, 1, 1, .u32, .ro, 0, 0, any⟩,
   ⟨0x1840, 1, 0x08, 1, 1, .u32, .ro, 0, 0, any⟩,
   ⟨0x1840, 1, 0x09, 1, 1, .u32, .const, 0, 0, any⟩,
   ⟨0x1850, 8, 0x00, 1, 1, .u8, .const, 6, 0, any⟩]
  ++
  [⟨0x1850, 8, 0x01, 1, 1, .u32, .ro, 0, 0, any⟩,
   ⟨0x1850, 8, 0x02, 1, 1, .u8, .ro, 255, 0, any⟩,
   ⟨0x1850, 8, 0x03, 1, 1, .u8, .ro, 255, 0, any⟩,
   ⟨0x1850, 8, 0x04, 1, 1, .str, .ro, 0, 45, any⟩,
   ⟨0x1850, 8, 0x05, 1, 1, .t80, .ro, 0, 0, any⟩,
   ⟨0x1850, 8, 0x06, 1, 1, .dom, .ro, 0, 0, any⟩]

/-- Entries of 1C00h to 1FFFh. -/
def rowsRed : List Row :=
  [⟨0x1C00, 1, 0x00, 1, 1, .u8, .const, 9, 0, any⟩,
   ⟨0x1C00, 1, 0x01, 1, 1, .bool, .rws, 1, 0, any⟩,
   ⟨0x1C00, 1, 0x02, 1, 1, .bool, .rws, 1, 0, any⟩,
   ⟨0x1C00, 1, 0x03, 1, 1, .u32, .rws, 0x2710, 0, (range 100 600000)⟩,
   ⟨0x1C00, 1, 0x04, 1, 1, .bool, .rws, 0, 0, any⟩,
   ⟨0x1C00, 1, 0x05, 1, 1, .bool, .rws, 1, 0, any⟩,
   ⟨0x1C00, 1, 0x06, 1, 1, .u8, .wo, 0, 0, (only 1)⟩,
   ⟨0x1C00, 1, 0x07, 1, 1, .u8, .wo, 0, 0, (only 1)⟩,
   ⟨0x1C00, 1, 0x08, 1, 1, .u8, .wo, 0, 0, (only 1)⟩,
   ⟨0x1C00, 1, 0x09, 1, 1, .u16, .const, 1000, 0, any⟩,
   ⟨0x1C10, 1, 0x00, 1, 1, .u8, .const, 19, 0, any⟩,
   ⟨0x1C10, 1, 0x01, 1, 1, .u8, .ro, 0, 0, any⟩,
   ⟨0x1C10, 1, 0x02, 1, 1, .u8, .ro, 0, 0, any⟩,
   ⟨0x1C10, 1, 0x03, 1, 1, .u8, .ro, 255, 0, any⟩,
   ⟨0x1C10, 1, 0x04, 1, 1, .str, .ro, 0, 16, any⟩,
   ⟨0x1C10, 1, 0x05, 1, 1, .u8, .ro, 0, 0, any⟩,
   ⟨0x1C10, 1, 0x06, 1, 1, .u8, .ro, 2, 0, any⟩,
   ⟨0x1C10, 1, 0x07, 1, 1, .bool, .ro, 0, 0, any⟩,
   ⟨0x1C10, 1, 0x08, 1, 1, .u8, .ro, 0, 0, any⟩,
   ⟨0x1C10, 1, 0x09, 1, 1, .bool, .ro, 0, 0, any⟩,
   ⟨0x1C10, 1, 0x0A, 1, 1, .bool, .ro, 0, 0, any⟩,
   ⟨0x1C10, 1, 0x0B, 1, 1, .u16, .ro, 0, 0, any⟩,
   ⟨0x1C10, 1, 0x0C, 1, 1, .u8, .ro, 0, 0, any⟩,
   ⟨0x1C10, 1, 0x0D, 1, 1, .u32, .ro, 0, 0, any⟩,
   ⟨0x1C10, 1, 0x0E, 1, 1, .u64, .ro, 0, 0, any⟩,
   ⟨0x1C10, 1, 0x0F, 1, 1, .u32, .ro, 0, 0, any⟩,
   ⟨0x1C10, 1, 0x10, 1, 1, .u32, .ro, 0, 0, any⟩,
   ⟨0x1C10, 1, 0x11, 1, 1, .u32, .ro, 0, 0, any⟩,
   ⟨0x1C10, 1, 0x12, 1, 1, .u32, .ro, 0, 0, any⟩,
   ⟨0x1C10, 1, 0x13, 1, 1, .u32, .ro, 0, 0, any⟩]

/-- Entries of 2000h to 27FFh. -/
def rowsLoop : List Row :=
  [⟨0x2000, 1024, 0x00, 1, 1, .u8, .const, 151, 0, any⟩,
   ⟨0x2000, 1024, 0x01, 1, 1, .u8, .rws, 0, 0, (upto 7)⟩,
   ⟨0x2000, 1024, 0x02, 1, 1, .u16, .rws, 0, 0, any⟩,
   ⟨0x2000, 1024, 0x03, 1, 1, .u8, .rws, 0, 0, (upto 8)⟩,
   ⟨0x2000, 1024, 0x04, 1, 1, .u16, .rws, 0, 0, (upto 15)⟩,
   ⟨0x2000, 1024, 0x05, 1, 1, .q20, .rws, 0x20000, 0, any⟩,
   ⟨0x2000, 1024, 0x06, 1, 1, .q20, .rws, 0, 0, any⟩,
   ⟨0x2000, 1024, 0x07, 1, 1, .q20, .rws, 0, 0, any⟩,
   ⟨0x2000, 1024, 0x08, 1, 1, .q20, .rws, 0, 0, any⟩,
   ⟨0x2000, 1024, 0x09, 1, 1, .q20, .rws, 0, 0, any⟩,
   ⟨0x2000, 1024, 0x0A, 1, 1, .u32, .rws, 0xffffffff, 0, wordAddr⟩,
   ⟨0x2000, 1024, 0x0B, 1, 1, .u32, .rws, 0xffffffff, 0, wordAddr⟩,
   ⟨0x2000, 1024, 0x0C, 1, 1, .u8, .rws, 0, 0, (upto 2)⟩,
   ⟨0x2000, 1024, 0x0D, 1, 1, .u8, .rws, 0, 0, (upto 3)⟩,
   ⟨0x2000, 1024, 0x0E, 1, 1, .u8, .rws, 0, 0, any⟩,
   ⟨0x2000, 1024, 0x0F, 1, 1, .q20, .rws, 0x20000, 0, any⟩,
   ⟨0x2000, 1024, 0x10, 1, 1, .q20, .rws, 0, 0, any⟩,
   ⟨0x2000, 1024, 0x11, 1, 1, .q20, .rws, 0, 0, qNonneg⟩,
   ⟨0x2000, 1024, 0x12, 1, 1, .u32, .rws, 0xffffffff, 0, wordAddr⟩,
   ⟨0x2000, 1024, 0x13, 1, 1, .u32, .rws, 0xffffffff, 0, wordAddr⟩,
   ⟨0x2000, 1024, 0x14, 1, 1, .u32, .rws, 0xffffffff, 0, wordAddr⟩,
   ⟨0x2000, 1024, 0x15, 1, 1, .u32, .rws, 0xffffffff, 0, wordAddr⟩,
   ⟨0x2000, 1024, 0x16, 1, 1, .u32, .rws, 0xffffffff, 0, wordAddr⟩,
   ⟨0x2000, 1024, 0x17, 1, 1, .u32, .rws, 0xffffffff, 0, wordAddr⟩,
   ⟨0x2000, 1024, 0x18, 1, 1, .q20, .rws, 0x7ffff, 0, any⟩,
   ⟨0x2000, 1024, 0x19, 1, 1, .q20, .rws, 0xfff80000, 0, any⟩,
   ⟨0x2000, 1024, 0x1A, 1, 1, .q20, .rws, 0, 0, qNonneg⟩,
   ⟨0x2000, 1024, 0x1B, 1, 1, .q20, .rws, 0x7ffff, 0, any⟩,
   ⟨0x2000, 1024, 0x1C, 1, 1, .q20, .rws, 0xfff80000, 0, any⟩,
   ⟨0x2000, 1024, 0x1D, 1, 1, .q20, .rws, 0, 0, qNonneg⟩,
   ⟨0x2000, 1024, 0x1E, 1, 1, .q20, .rws, 0, 0, qNonneg⟩,
   ⟨0x2000, 1024, 0x1F, 1, 1, .q20, .rws, 0, 0, any⟩,
   ⟨0x2000, 1024, 0x20, 1, 1, .q20, .rws, 0, 0, qNonneg⟩,
   ⟨0x2000, 1024, 0x21, 1, 1, .u16, .rws, 1, 0, any⟩,
   ⟨0x2000, 1024, 0x22, 1, 1, .u8, .rws, 0, 0, (upto 2)⟩,
   ⟨0x2000, 1024, 0x23, 1, 1, .u8, .rws, 0, 0, (upto 2)⟩,
   ⟨0x2000, 1024, 0x24, 1, 1, .u8, .rws, 0, 0, (upto 1)⟩,
   ⟨0x2000, 1024, 0x25, 1, 1, .u8, .rws, 0, 0, (upto 1)⟩,
   ⟨0x2000, 1024, 0x26, 1, 1, .u16, .rws, 0xffff, 0, any⟩,
   ⟨0x2000, 1024, 0x30, 8, 5, .q20, .rws, 0x20000, 0, any⟩]
  ++
  [⟨0x2000, 1024, 0x31, 8, 5, .q20, .rws, 0, 0, any⟩,
   ⟨0x2000, 1024, 0x32, 8, 5, .q20, .rws, 0, 0, any⟩,
   ⟨0x2000, 1024, 0x33, 8, 5, .q20, .rws, 0, 0, any⟩,
   ⟨0x2000, 1024, 0x34, 8, 5, .q20, .rws, 0, 0, any⟩,
   ⟨0x2000, 1024, 0x60, 1, 1, .u8, .rw, 0, 0, (upto 4)⟩,
   ⟨0x2000, 1024, 0x61, 1, 1, .q20, .rw, 0, 0, any⟩,
   ⟨0x2000, 1024, 0x62, 1, 1, .q20, .rw, 0, 0, any⟩,
   ⟨0x2000, 1024, 0x63, 1, 1, .u8, .wo, 0, 0, (only 1)⟩,
   ⟨0x2000, 1024, 0x64, 1, 1, .q20, .rw, 0x20000, 0, any⟩,
   ⟨0x2000, 1024, 0x65, 1, 1, .q20, .rw, 0, 0, any⟩,
   ⟨0x2000, 1024, 0x66, 1, 1, .q20, .rw, 0, 0, any⟩,
   ⟨0x2000, 1024, 0x67, 1, 1, .q20, .rw, 0, 0, any⟩,
   ⟨0x2000, 1024, 0x68, 1, 1, .q20, .rw, 0, 0, any⟩,
   ⟨0x2000, 1024, 0x70, 8, 5, .q20, .rw, 0x20000, 0, any⟩,
   ⟨0x2000, 1024, 0x71, 8, 5, .q20, .rw, 0, 0, any⟩,
   ⟨0x2000, 1024, 0x72, 8, 5, .q20, .rw, 0, 0, any⟩,
   ⟨0x2000, 1024, 0x73, 8, 5, .q20, .rw, 0, 0, any⟩,
   ⟨0x2000, 1024, 0x74, 8, 5, .q20, .rw, 0, 0, any⟩,
   ⟨0x2400, 1024, 0x00, 1, 1, .u8, .const, 16, 0, any⟩,
   ⟨0x2400, 1024, 0x01, 1, 1, .u8, .ro, 0, 0, any⟩,
   ⟨0x2400, 1024, 0x02, 1, 1, .u16, .ro, 0, 0, any⟩,
   ⟨0x2400, 1024, 0x03, 1, 1, .u8, .ro, 0, 0, any⟩,
   ⟨0x2400, 1024, 0x04, 1, 1, .u8, .ro, 0, 0, any⟩,
   ⟨0x2400, 1024, 0x05, 1, 1, .q20, .ro, 0, 0, any⟩,
   ⟨0x2400, 1024, 0x06, 1, 1, .q20, .ro, 0, 0, any⟩,
   ⟨0x2400, 1024, 0x07, 1, 1, .q20, .ro, 0, 0, any⟩,
   ⟨0x2400, 1024, 0x08, 1, 1, .q20, .ro, 0, 0, any⟩,
   ⟨0x2400, 1024, 0x09, 1, 1, .q20, .ro, 0, 0, any⟩,
   ⟨0x2400, 1024, 0x0A, 1, 1, .q20, .ro, 0, 0, any⟩,
   ⟨0x2400, 1024, 0x0B, 1, 1, .i48, .ro, 0, 0, any⟩,
   ⟨0x2400, 1024, 0x0C, 1, 1, .u8, .ro, 0, 0, any⟩,
   ⟨0x2400, 1024, 0x0D, 1, 1, .u32, .ro, 0, 0, any⟩,
   ⟨0x2400, 1024, 0x0E, 1, 1, .u32, .ro, 0, 0, any⟩,
   ⟨0x2400, 1024, 0x0F, 1, 1, .u32, .ro, 0, 0, any⟩,
   ⟨0x2400, 1024, 0x10, 1, 1, .u64, .ro, 0, 0, any⟩]

/-- Entries of 2800h to 28FFh. -/
def rowsTick : List Row :=
  [⟨0x2801, 1, 0x00, 1, 1, .u8, .const, 12, 0, any⟩,
   ⟨0x2801, 1, 0x01, 1, 1, .u64, .ro, 0, 0, any⟩,
   ⟨0x2801, 1, 0x02, 1, 1, .t80, .ro, 0, 0, any⟩,
   ⟨0x2801, 1, 0x03, 1, 1, .u8, .ro, 0, 0, any⟩,
   ⟨0x2801, 1, 0x04, 1, 1, .u16, .ro, 4000, 0, any⟩,
   ⟨0x2801, 1, 0x05, 1, 1, .u32, .ro, 0, 0, any⟩,
   ⟨0x2801, 1, 0x06, 1, 1, .u32, .ro, 0, 0, any⟩,
   ⟨0x2801, 1, 0x07, 1, 1, .i32, .ro, 0, 0, any⟩,
   ⟨0x2801, 1, 0x08, 1, 1, .u32, .ro, 0, 0, any⟩,
   ⟨0x2801, 1, 0x09, 1, 1, .bool, .rws, 1, 0, any⟩,
   ⟨0x2801, 1, 0x0A, 1, 1, .u16, .ro, 0, 0, any⟩,
   ⟨0x2801, 1, 0x0B, 1, 1, .u16, .ro, 0, 0, any⟩,
   ⟨0x2801, 1, 0x0C, 1, 1, .i32, .ro, 0, 0, any⟩,
   ⟨0x2810, 8, 0x00, 1, 1, .u8, .const, 7, 0, any⟩,
   ⟨0x2810, 1, 0x01, 1, 1, .u32, .rws, 0, 0, (range 880 3600)⟩,
   ⟨0x2811, 1, 0x01, 1, 1, .u32, .rws, 0, 0, (range 880 7600)⟩,
   ⟨0x2812, 1, 0x01, 1, 1, .u32, .rws, 0, 0, (range 880 15600)⟩,
   ⟨0x2813, 1, 0x01, 1, 1, .u32, .rws, 0, 0, (range 880 19600)⟩,
   ⟨0x2814, 1, 0x01, 1, 1, .u32, .rws, 0, 0, (range 880 39600)⟩,
   ⟨0x2815, 1, 0x01, 1, 1, .u32, .rws, 0, 0, (range 880 79600)⟩,
   ⟨0x2816, 1, 0x01, 1, 1, .u32, .rws, 0, 0, (range 880 199600)⟩,
   ⟨0x2817, 1, 0x01, 1, 1, .u32, .rws, 0, 0, (range 880 399600)⟩,
   ⟨0x2810, 8, 0x02, 1, 1, .u8, .const, 0, 0, any⟩,
   ⟨0x2810, 8, 0x03, 1, 1, .u32, .const, 0, 0, any⟩,
   ⟨0x2810, 8, 0x04, 1, 1, .u32, .ro, 0, 0, any⟩,
   ⟨0x2810, 8, 0x05, 1, 1, .i32, .ro, 0, 0, any⟩,
   ⟨0x2810, 8, 0x06, 1, 1, .u16, .ro, 0, 0, any⟩,
   ⟨0x2810, 8, 0x07, 1, 1, .u32, .ro, 0, 0, any⟩,
   ⟨0x2840, 64, 0x00, 1, 1, .u8, .const, 132, 0, any⟩,
   ⟨0x2840, 64, 0x01, 132, 1, .q20, .rw, 0, 0, any⟩,
   ⟨0x2800, 1, 0x00, 1, 1, .u8, .const, 3, 0, any⟩,
   ⟨0x2800, 1, 0x01, 1, 1, .u16, .ro, 0, 0, any⟩,
   ⟨0x2800, 1, 0x02, 1, 1, .u32, .ro, 0, 0, any⟩,
   ⟨0x2800, 1, 0x03, 1, 1, .u32, .ro, 0, 0, any⟩,
   ⟨0x2818, 8, 0x00, 1, 1, .u8, .const, 6, 0, any⟩,
   ⟨0x2818, 8, 0x01, 1, 1, .u8, .rws, 3, 0, (range 1 255)⟩,
   ⟨0x2818, 8, 0x02, 1, 1, .u8, .rws, 0, 0, (upto 2)⟩,
   ⟨0x2818, 8, 0x03, 1, 1, .u32, .rws, 0xffffffff, 0, wordAddr⟩,
   ⟨0x2818, 8, 0x04, 1, 1, .bool, .ro, 0, 0, any⟩,
   ⟨0x2818, 8, 0x05, 1, 1, .bool, .wo, 0, 0, any⟩,
   ⟨0x2818, 8, 0x06, 1, 1, .u32, .ro, 0, 0, any⟩]

/-- Entries of 2900h to 29FFh. -/
def rowsLane : List Row :=
  [⟨0x2900, 1, 0x00, 1, 1, .u8, .const, 10, 0, any⟩,
   ⟨0x2900, 1, 0x01, 1, 1, .dom, .rws, 0, 69632, any⟩,
   ⟨0x2900, 1, 0x02, 1, 1, .u16, .ro, 0, 0, any⟩,
   ⟨0x2900, 1, 0x03, 1, 1, .u8, .ro, 0, 0, any⟩,
   ⟨0x2900, 1, 0x04, 1, 1, .u32, .ro, 0xffffffff, 0, any⟩,
   ⟨0x2900, 1, 0x05, 1, 1, .u8, .ro, 0, 0, any⟩,
   ⟨0x2900, 1, 0x06, 1, 1, .u32, .ro, 0, 0, any⟩,
   ⟨0x2900, 1, 0x07, 1, 1, .u32, .ro, 0, 0, any⟩,
   ⟨0x2900, 1, 0x08, 1, 1, .u32, .ro, 0, 0, any⟩,
   ⟨0x2900, 1, 0x09, 1, 1, .u64, .ro, 0, 0, any⟩,
   ⟨0x2900, 1, 0x0A, 1, 1, .u64, .ro, 0, 0, any⟩,
   ⟨0x2901, 1, 0x00, 1, 1, .u8, .const, 255, 0, any⟩,
   ⟨0x2901, 1, 0x01, 255, 1, .u16, .ro, 0, 0, any⟩]

/-- Entries of 2A00h to 2BFFh. -/
def rowsDisp : List Row :=
  [⟨0x2A00, 1, 0x00, 1, 1, .u8, .const, 13, 0, any⟩,
   ⟨0x2A00, 1, 0x01, 1, 1, .u16, .ro, 0, 0, any⟩,
   ⟨0x2A00, 1, 0x02, 1, 1, .u16, .ro, 0x3b00, 0, any⟩,
   ⟨0x2A00, 1, 0x03, 1, 1, .u32, .ro, 0, 0, any⟩,
   ⟨0x2A00, 1, 0x04, 1, 1, .u32, .ro, 0, 0, any⟩,
   ⟨0x2A00, 1, 0x05, 1, 1, .u32, .ro, 0, 0, any⟩,
   ⟨0x2A00, 1, 0x06, 1, 1, .u32, .ro, 0, 0, any⟩,
   ⟨0x2A00, 1, 0x07, 1, 1, .u64, .ro, 0, 0, any⟩,
   ⟨0x2A00, 1, 0x08, 1, 1, .u64, .ro, 0, 0, any⟩,
   ⟨0x2A00, 1, 0x09, 1, 1, .u16, .ro, 0, 0, any⟩,
   ⟨0x2A00, 1, 0x0A, 1, 1, .u16, .ro, 0xffff, 0, any⟩,
   ⟨0x2A00, 1, 0x0B, 1, 1, .u8, .ro, 0, 0, any⟩,
   ⟨0x2A00, 1, 0x0C, 1, 1, .u8, .ro, 0, 0, any⟩,
   ⟨0x2A00, 1, 0x0D, 1, 1, .u32, .ro, 0, 0, any⟩,
   ⟨0x2A10, 1, 0x00, 1, 1, .u8, .const, 2, 0, any⟩,
   ⟨0x2A10, 1, 0x01, 1, 1, .dom, .rws, 0, 241664, any⟩,
   ⟨0x2A10, 1, 0x02, 1, 1, .dom, .ro, 0, 262144, any⟩,
   ⟨0x2A20, 8, 0x00, 1, 1, .u8, .const, 4, 0, any⟩,
   ⟨0x2A20, 8, 0x01, 1, 1, .u16, .ro, 0, 0, any⟩,
   ⟨0x2A20, 8, 0x02, 1, 1, .u32, .ro, 0, 0, any⟩,
   ⟨0x2A20, 8, 0x03, 1, 1, .u32, .ro, 0, 0, any⟩,
   ⟨0x2A20, 8, 0x04, 1, 1, .u16, .ro, 0, 0, any⟩,
   ⟨0x2A40, 16, 0x00, 1, 1, .u8, .const, 64, 0, any⟩,
   ⟨0x2A40, 16, 0x01, 64, 1, .u64, .rws, 0, 0, (below (2 ^ 59))⟩,
   ⟨0x2A50, 16, 0x00, 1, 1, .u8, .const, 64, 0, any⟩,
   ⟨0x2A50, 16, 0x01, 64, 1, .u32, .rws, 0, 0, (below (2 ^ 21))⟩]

/-- Entries of 2C00h to 2FFFh. -/
def rowsSlate : List Row :=
  [⟨0x2C00, 1, 0x00, 1, 1, .u8, .const, 11, 0, any⟩,
   ⟨0x2C00, 1, 0x01, 1, 1, .u16, .ro, 0, 0, any⟩,
   ⟨0x2C00, 1, 0x02, 1, 1, .u16, .ro, 0, 0, any⟩,
   ⟨0x2C00, 1, 0x03, 1, 1, .u32, .ro, 0, 0, any⟩,
   ⟨0x2C00, 1, 0x04, 1, 1, .u32, .ro, 0, 0, any⟩,
   ⟨0x2C00, 1, 0x05, 1, 1, .u64, .ro, 0, 0, any⟩,
   ⟨0x2C00, 1, 0x06, 1, 1, .u64, .ro, 0, 0, any⟩,
   ⟨0x2C00, 1, 0x07, 1, 1, .u32, .ro, 0, 0, any⟩,
   ⟨0x2C00, 1, 0x08, 1, 1, .u32, .ro, 0, 0, any⟩,
   ⟨0x2C00, 1, 0x09, 1, 1, .u16, .ro, 0, 0, any⟩,
   ⟨0x2C00, 1, 0x0A, 1, 1, .u32, .ro, 0, 0, any⟩,
   ⟨0x2C00, 1, 0x0B, 1, 1, .u16, .ro, 0, 0, any⟩,
   ⟨0x2C10, 4, 0x00, 1, 1, .u8, .const, 64, 0, any⟩,
   ⟨0x2C10, 4, 0x01, 64, 1, .u64, .rws, 0xffffffffffffffff, 0, valveOk⟩,
   ⟨0x2C40, 64, 0x00, 1, 1, .u8, .const, 17, 0, any⟩,
   ⟨0x2C40, 64, 0x01, 1, 1, .dom, .rws, 0, 2097152, any⟩,
   ⟨0x2C40, 64, 0x02, 1, 1, .u8, .wo, 0, 0, (range 1 5)⟩,
   ⟨0x2C40, 64, 0x03, 1, 1, .u16, .rw, 0xffff, 0, any⟩,
   ⟨0x2C40, 64, 0x04, 1, 1, .u8, .ro, 0, 0, any⟩,
   ⟨0x2C40, 64, 0x05, 1, 1, .u16, .ro, 0xffff, 0, any⟩,
   ⟨0x2C40, 64, 0x06, 1, 1, .u64, .ro, 0, 0, any⟩,
   ⟨0x2C40, 64, 0x07, 1, 1, .u32, .ro, 0, 0, any⟩,
   ⟨0x2C40, 64, 0x08, 1, 1, .u8, .ro, 255, 0, any⟩,
   ⟨0x2C40, 64, 0x09, 1, 1, .u32, .ro, 0, 0, any⟩,
   ⟨0x2C40, 64, 0x0A, 1, 1, .u32, .ro, 0, 0, any⟩,
   ⟨0x2C40, 64, 0x0B, 1, 1, .u32, .ro, 0, 0, any⟩,
   ⟨0x2C40, 64, 0x0C, 1, 1, .u8, .ro, 0, 0, any⟩,
   ⟨0x2C40, 64, 0x0D, 1, 1, .u32, .ro, 0, 0, any⟩,
   ⟨0x2C40, 64, 0x0E, 1, 1, .u16, .ro, 0, 0, any⟩,
   ⟨0x2C40, 64, 0x0F, 1, 1, .u16, .ro, 0xffff, 0, any⟩,
   ⟨0x2C40, 64, 0x10, 1, 1, .u8, .ro, 0, 0, any⟩,
   ⟨0x2C40, 64, 0x11, 1, 1, .u16, .ro, 0, 0, any⟩]

/-- Entries of 3000h to 30FFh. -/
def rowsFlint : List Row :=
  [⟨0x3000, 1, 0x00, 1, 1, .u8, .const, 18, 0, any⟩,
   ⟨0x3000, 1, 0x01, 1, 1, .dom, .rws, 0, 655360, any⟩,
   ⟨0x3000, 1, 0x02, 1, 1, .dom, .rw, 0, 655360, any⟩,
   ⟨0x3000, 1, 0x03, 1, 1, .u8, .wo, 0, 0, (range 1 2)⟩,
   ⟨0x3000, 1, 0x04, 1, 1, .u8, .ro, 0, 0, any⟩,
   ⟨0x3000, 1, 0x05, 1, 1, .u8, .ro, 0, 0, any⟩,
   ⟨0x3000, 1, 0x06, 1, 1, .u32, .ro, 0, 0, any⟩,
   ⟨0x3000, 1, 0x07, 1, 1, .u32, .ro, 0, 0, any⟩,
   ⟨0x3000, 1, 0x08, 1, 1, .u32, .ro, 0xffffffff, 0, any⟩,
   ⟨0x3000, 1, 0x09, 1, 1, .u8, .ro, 0, 0, any⟩,
   ⟨0x3000, 1, 0x0A, 1, 1, .u8, .rws, 1, 0, (upto 1)⟩,
   ⟨0x3000, 1, 0x0B, 1, 1, .bool, .rws, 1, 0, any⟩,
   ⟨0x3000, 1, 0x0C, 1, 1, .u32, .rws, 1000, 0, (range 1 50000000)⟩,
   ⟨0x3000, 1, 0x0D, 1, 1, .u32, .ro, 0, 0, any⟩,
   ⟨0x3000, 1, 0x0E, 1, 1, .u64, .ro, 0, 0, any⟩,
   ⟨0x3000, 1, 0x0F, 1, 1, .u16, .ro, 0, 0, any⟩,
   ⟨0x3000, 1, 0x10, 1, 1, .u16, .ro, 0, 0, any⟩,
   ⟨0x3000, 1, 0x11, 1, 1, .u16, .ro, 0, 0, any⟩,
   ⟨0x3000, 1, 0x12, 1, 1, .u16, .ro, 0, 0, any⟩,
   ⟨0x3010, 8, 0x00, 1, 1, .u8, .const, 14, 0, any⟩,
   ⟨0x3010, 8, 0x01, 1, 1, .u32, .ro, 0, 0, any⟩,
   ⟨0x3010, 8, 0x02, 1, 1, .u32, .ro, 0, 0, any⟩,
   ⟨0x3010, 8, 0x03, 1, 1, .u32, .ro, 0, 0, any⟩,
   ⟨0x3010, 8, 0x04, 1, 1, .u32, .ro, 0, 0, any⟩,
   ⟨0x3010, 8, 0x05, 1, 1, .u32, .ro, 0, 0, any⟩,
   ⟨0x3010, 8, 0x06, 1, 1, .u8, .ro, 0, 0, any⟩,
   ⟨0x3010, 8, 0x07, 1, 1, .u32, .ro, 0, 0, any⟩,
   ⟨0x3010, 8, 0x08, 1, 1, .u32, .ro, 0, 0, any⟩,
   ⟨0x3010, 8, 0x09, 1, 1, .u32, .ro, 0, 0, any⟩,
   ⟨0x3010, 8, 0x0A, 1, 1, .bool, .ro, 0, 0, any⟩,
   ⟨0x3010, 8, 0x0B, 1, 1, .bool, .wo, 0, 0, any⟩,
   ⟨0x3010, 8, 0x0C, 1, 1, .u32, .ro, 0, 0, any⟩,
   ⟨0x3010, 8, 0x0D, 1, 1, .u64, .ro, 0, 0, any⟩,
   ⟨0x3010, 8, 0x0E, 1, 1, .u64, .ro, 0, 0, any⟩,
   ⟨0x3020, 32, 0x00, 1, 1, .u8, .const, 32, 0, any⟩,
   ⟨0x3020, 32, 0x01, 32, 1, .u64, .rw, 0, 0, forceOk⟩,
   ⟨0x3040, 32, 0x00, 1, 1, .u8, .const, 32, 0, any⟩,
   ⟨0x3040, 32, 0x01, 32, 1, .u8, .ro, 0, 0, any⟩,
   ⟨0x3060, 16, 0x00, 1, 1, .u8, .const, 64, 0, any⟩,
   ⟨0x3060, 16, 0x01, 64, 1, .u32, .ro, 0, 0, any⟩]
  ++
  [⟨0x3070, 1, 0x00, 1, 1, .u8, .const, 64, 0, any⟩,
   ⟨0x3070, 1, 0x01, 64, 1, .u32, .ro, 0, 0, any⟩,
   ⟨0x3071, 4, 0x00, 1, 1, .u8, .const, 64, 0, any⟩,
   ⟨0x3071, 4, 0x01, 64, 1, .u32, .ro, 0, 0, any⟩,
   ⟨0x3078, 8, 0x00, 1, 1, .u8, .const, 64, 0, any⟩,
   ⟨0x3078, 8, 0x01, 64, 1, .u32, .ro, 0, 0, any⟩,
   ⟨0x3080, 4, 0x00, 1, 1, .u8, .const, 64, 0, any⟩,
   ⟨0x3080, 4, 0x01, 64, 1, .u32, .ro, 0, 0, any⟩]

/-- Entries of 3100h to 33FFh. -/
def rowsAxis : List Row :=
  [⟨0x3110, 32, 0x00, 1, 1, .u8, .const, 39, 0, any⟩,
   ⟨0x3110, 32, 0x01, 1, 1, .u8, .rws, 0, 0, (upto 7)⟩,
   ⟨0x3110, 32, 0x02, 1, 1, .u8, .rws, 0, 0, (upto 2)⟩,
   ⟨0x3110, 32, 0x03, 1, 1, .u8, .rws, 0, 0, (upto 1)⟩,
   ⟨0x3110, 32, 0x04, 1, 1, .u16, .rws, 1, 0, (range 1 256)⟩,
   ⟨0x3110, 32, 0x05, 1, 1, .i48, .rws, 0x100000000, 0, any⟩,
   ⟨0x3110, 32, 0x06, 1, 1, .u32, .rws, 0x100000, 0, any⟩,
   ⟨0x3110, 32, 0x07, 1, 1, .u32, .rws, 0x100000, 0, any⟩,
   ⟨0x3110, 32, 0x08, 1, 1, .u32, .rws, 0x100000, 0, any⟩,
   ⟨0x3110, 32, 0x09, 1, 1, .u32, .rws, 0, 0, any⟩,
   ⟨0x3110, 32, 0x0A, 1, 1, .i48, .rws, 0, 0, any⟩,
   ⟨0x3110, 32, 0x0B, 1, 1, .u8, .rws, 16, 0, (upto 31)⟩,
   ⟨0x3110, 32, 0x0C, 1, 1, .u32, .rws, 0xffffffff, 0, wordAddr⟩,
   ⟨0x3110, 32, 0x0D, 1, 1, .u32, .rws, 0xffffffff, 0, wordAddr⟩,
   ⟨0x3110, 32, 0x0E, 1, 1, .u32, .rws, 0xffffffff, 0, wordAddr⟩,
   ⟨0x3110, 32, 0x0F, 1, 1, .u32, .rws, 0xffffffff, 0, wordAddr⟩,
   ⟨0x3110, 32, 0x10, 1, 1, .u32, .rws, 0xffffffff, 0, wordAddr⟩,
   ⟨0x3110, 32, 0x11, 1, 1, .u8, .rws, 0, 0, (upto 3)⟩,
   ⟨0x3110, 32, 0x12, 1, 1, .u16, .rws, 1, 0, (range 1 256)⟩,
   ⟨0x3110, 32, 0x13, 1, 1, .u32, .rws, 0x30d40, 0, (range 100 10000000)⟩,
   ⟨0x3110, 32, 0x14, 1, 1, .u8, .rws, 10, 0, (range 2 12)⟩,
   ⟨0x3110, 32, 0x15, 1, 1, .u8, .rws, 20, 0, (range 5 255)⟩,
   ⟨0x3110, 32, 0x16, 1, 1, .u8, .rws, 0, 0, (upto 15)⟩,
   ⟨0x3110, 32, 0x17, 1, 1, .u16, .rws, 25, 0, any⟩,
   ⟨0x3110, 32, 0x18, 1, 1, .u8, .rws, 0, 0, (upto 1)⟩,
   ⟨0x3110, 32, 0x19, 1, 1, .i32, .rws, 0x10000, 0, any⟩,
   ⟨0x3110, 32, 0x1A, 1, 1, .u32, .rws, 0, 0, any⟩,
   ⟨0x3110, 32, 0x1B, 1, 1, .u16, .rws, 1, 0, (range 1 65535)⟩,
   ⟨0x3110, 32, 0x1C, 1, 1, .u8, .rws, 0, 0, (upto 15)⟩,
   ⟨0x3110, 32, 0x1D, 1, 1, .u8, .rws, 1, 0, (upto 2)⟩,
   ⟨0x3110, 32, 0x1E, 1, 1, .u8, .rws, 2, 0, (range 1 255)⟩,
   ⟨0x3110, 32, 0x1F, 1, 1, .u8, .rws, 25, 0, (range 1 255)⟩,
   ⟨0x3110, 32, 0x20, 1, 1, .u8, .rws, 51, 0, (maskOk 0x33)⟩,
   ⟨0x3110, 32, 0x21, 1, 1, .i48, .rws, 0x7fffffffffff, 0, any⟩,
   ⟨0x3110, 32, 0x22, 1, 1, .i48, .rws, 0xffff800000000000, 0, any⟩,
   ⟨0x3110, 32, 0x23, 1, 1, .u8, .rws, 8, 0, any⟩,
   ⟨0x3110, 32, 0x24, 1, 1, .u32, .rws, 0x40000000, 0, any⟩,
   ⟨0x3110, 32, 0x25, 1, 1, .u32, .rws, 0x1000000, 0, (atLeast 65536)⟩,
   ⟨0x3110, 32, 0x26, 1, 1, .i48, .rws, 0, 0, any⟩,
   ⟨0x3110, 32, 0x27, 1, 1, .u32, .rws, 0xffffffff, 0, any⟩]
  ++
  [⟨0x3130, 32, 0x00, 1, 1, .u8, .const, 19, 0, any⟩,
   ⟨0x3130, 32, 0x01, 1, 1, .u64, .wo, 0, 0, axisCmdOk⟩,
   ⟨0x3130, 32, 0x02, 1, 1, .u8, .ro, 0, 0, any⟩,
   ⟨0x3130, 32, 0x03, 1, 1, .i48, .ro, 0, 0, any⟩,
   ⟨0x3130, 32, 0x04, 1, 1, .i48, .ro, 0, 0, any⟩,
   ⟨0x3130, 32, 0x05, 1, 1, .i48, .ro, 0, 0, any⟩,
   ⟨0x3130, 32, 0x06, 1, 1, .i48, .ro, 0, 0, any⟩,
   ⟨0x3130, 32, 0x07, 1, 1, .u32, .ro, 0, 0, any⟩,
   ⟨0x3130, 32, 0x08, 1, 1, .i48, .ro, 0, 0, any⟩,
   ⟨0x3130, 32, 0x09, 1, 1, .i48, .ro, 0, 0, any⟩,
   ⟨0x3130, 32, 0x0A, 1, 1, .u8, .ro, 0, 0, any⟩,
   ⟨0x3130, 32, 0x0B, 1, 1, .u8, .ro, 0, 0, any⟩,
   ⟨0x3130, 32, 0x0C, 1, 1, .u32, .ro, 0, 0, any⟩,
   ⟨0x3130, 32, 0x0D, 1, 1, .u32, .ro, 0, 0, any⟩,
   ⟨0x3130, 32, 0x0E, 1, 1, .bool, .ro, 0, 0, any⟩,
   ⟨0x3130, 32, 0x0F, 1, 1, .i48, .ro, 0, 0, any⟩,
   ⟨0x3130, 32, 0x10, 1, 1, .u8, .ro, 0, 0, any⟩,
   ⟨0x3130, 32, 0x11, 1, 1, .u32, .ro, 0, 0, any⟩,
   ⟨0x3130, 32, 0x12, 1, 1, .i48, .ro, 0, 0, any⟩,
   ⟨0x3130, 32, 0x13, 1, 1, .u32, .ro, 0, 0, any⟩,
   ⟨0x3150, 8, 0x00, 1, 1, .u8, .const, 10, 0, any⟩,
   ⟨0x3150, 8, 0x01, 1, 1, .u32, .rws, 0, 0, (atMostBits 8)⟩,
   ⟨0x3150, 8, 0x02, 1, 1, .i48, .rws, 0x100000000, 0, any⟩,
   ⟨0x3150, 8, 0x03, 1, 1, .u32, .rws, 0x100000, 0, any⟩,
   ⟨0x3150, 8, 0x04, 1, 1, .u32, .rws, 0x100000, 0, any⟩,
   ⟨0x3150, 8, 0x05, 1, 1, .u32, .rws, 0x100000, 0, any⟩,
   ⟨0x3150, 8, 0x06, 1, 1, .u16, .rws, 1, 0, (range 1 256)⟩,
   ⟨0x3150, 8, 0x07, 1, 1, .u8, .ro, 255, 0, any⟩,
   ⟨0x3150, 8, 0x08, 1, 1, .i48, .ro, 0, 0, any⟩,
   ⟨0x3150, 8, 0x09, 1, 1, .i48, .ro, 0, 0, any⟩,
   ⟨0x3150, 8, 0x0A, 1, 1, .u8, .ro, 0, 0, any⟩]

/-- Entries of 3400h to 37FFh. -/
def rowsIo : List Row :=
  [⟨0x3400, 64, 0x00, 1, 1, .u8, .const, 21, 0, any⟩,
   ⟨0x3400, 64, 0x01, 1, 1, .u8, .rws, 0, 0, (upto 6)⟩,
   ⟨0x3400, 64, 0x02, 1, 1, .u8, .rws, 0, 0, (upto 7)⟩,
   ⟨0x3400, 64, 0x03, 1, 1, .u32, .rws, 0xffffffff, 0, wordAddr⟩,
   ⟨0x3400, 64, 0x04, 1, 1, .u32, .rws, 0xffffffff, 0, wordAddr⟩,
   ⟨0x3400, 64, 0x05, 1, 1, .u8, .rws, 0, 0, (upto 3)⟩,
   ⟨0x3400, 64, 0x06, 1, 1, .u8, .rws, 0, 0, any⟩,
   ⟨0x3400, 64, 0x07, 1, 1, .q20, .rws, 0x20000, 0, any⟩,
   ⟨0x3400, 64, 0x08, 1, 1, .q20, .rws, 0, 0, any⟩,
   ⟨0x3400, 64, 0x09, 1, 1, .q20, .rws, 0, 0, qNonneg⟩,
   ⟨0x3400, 64, 0x0A, 1, 1, .u16, .rws, 0, 0, (upto 15)⟩,
   ⟨0x3400, 64, 0x0B, 1, 1, .u8, .rws, 0, 0, (upto 7)⟩,
   ⟨0x3400, 64, 0x0C, 1, 1, .u8, .rws, 4, 0, (range 2 4)⟩,
   ⟨0x3400, 64, 0x0D, 1, 1, .u8, .rws, 0, 0, (upto 2)⟩,
   ⟨0x3400, 64, 0x0E, 1, 1, .u32, .rws, 0xffffffff, 0, wordAddr⟩,
   ⟨0x3400, 64, 0x0F, 1, 1, .q20, .rws, 6400, 0, any⟩,
   ⟨0x3400, 64, 0x10, 1, 1, .u8, .rws, 0, 0, (upto 3)⟩,
   ⟨0x3400, 64, 0x11, 1, 1, .q20, .rws, 0, 0, any⟩,
   ⟨0x3400, 64, 0x12, 1, 1, .q20, .rws, 4096, 0, qPos⟩,
   ⟨0x3400, 64, 0x13, 1, 1, .u16, .rws, 50, 0, (range 1 65535)⟩,
   ⟨0x3400, 64, 0x14, 1, 1, .q20, .rw, 0x20000, 0, any⟩,
   ⟨0x3400, 64, 0x15, 1, 1, .q20, .rw, 0, 0, any⟩,
   ⟨0x3440, 64, 0x00, 1, 1, .u8, .const, 18, 0, any⟩,
   ⟨0x3440, 64, 0x01, 1, 1, .q20, .ro, 0, 0, any⟩,
   ⟨0x3440, 64, 0x02, 1, 1, .u16, .ro, 0, 0, any⟩,
   ⟨0x3440, 64, 0x03, 1, 1, .u16, .ro, 0, 0, any⟩,
   ⟨0x3440, 64, 0x04, 1, 1, .u32, .ro, 0, 0, any⟩,
   ⟨0x3440, 64, 0x05, 1, 1, .q20, .ro, 0, 0, any⟩,
   ⟨0x3440, 64, 0x06, 6, 2, .q20, .const, 0, 0, any⟩,
   ⟨0x3440, 64, 0x07, 6, 2, .q20, .const, 0, 0, any⟩,
   ⟨0x3440, 64, 0x12, 1, 1, .t80, .const, 0, 0, any⟩,
   ⟨0x3480, 8, 0x00, 1, 1, .u8, .const, 5, 0, any⟩,
   ⟨0x3480, 8, 0x01, 1, 1, .u16, .ro, 0, 0, any⟩,
   ⟨0x3480, 8, 0x02, 1, 1, .u16, .ro, 0, 0, any⟩,
   ⟨0x3480, 8, 0x03, 1, 1, .u8, .ro, 0, 0, any⟩,
   ⟨0x3480, 8, 0x04, 1, 1, .u32, .ro, 0, 0, any⟩,
   ⟨0x3480, 8, 0x05, 1, 1, .q20, .ro, 0, 0, any⟩,
   ⟨0x3500, 1, 0x00, 1, 1, .u8, .const, 39, 0, any⟩,
   ⟨0x3500, 1, 0x01, 1, 1, .u8, .rws, 0, 0, (upto 7)⟩,
   ⟨0x3500, 1, 0x02, 1, 1, .u32, .rws, 0xffffffff, 0, wordAddr⟩]
  ++
  [⟨0x3500, 1, 0x03, 1, 1, .u32, .rws, 0xffffffff, 0, wordAddr⟩,
   ⟨0x3500, 1, 0x04, 1, 1, .u32, .rws, 0, 0, any⟩,
   ⟨0x3500, 1, 0x05, 1, 1, .u32, .ro, 0, 0, any⟩,
   ⟨0x3500, 1, 0x06, 1, 1, .u32, .ro, 0, 0, any⟩,
   ⟨0x3500, 1, 0x07, 1, 1, .u32, .ro, 0, 0, any⟩,
   ⟨0x3500, 1, 0x08, 32, 1, .u8, .rws, 0, 0, any⟩,
   ⟨0x3510, 1, 0x00, 1, 1, .u8, .const, 12, 0, any⟩,
   ⟨0x3510, 1, 0x01, 1, 1, .u8, .rws, 0, 0, (upto 7)⟩,
   ⟨0x3510, 1, 0x02, 1, 1, .u8, .rws, 0, 0, (upto 1)⟩,
   ⟨0x3510, 1, 0x03, 1, 1, .u32, .rws, 0xffffffff, 0, wordAddr⟩,
   ⟨0x3510, 1, 0x04, 1, 1, .u32, .rws, 0, 0, any⟩,
   ⟨0x3510, 1, 0x05, 1, 1, .u16, .rws, 100, 0, any⟩,
   ⟨0x3510, 1, 0x06, 1, 1, .u32, .rws, 0, 0, any⟩,
   ⟨0x3510, 1, 0x07, 1, 1, .u32, .ro, 0, 0, any⟩,
   ⟨0x3510, 1, 0x08, 1, 1, .u32, .ro, 0, 0, any⟩,
   ⟨0x3510, 1, 0x09, 1, 1, .u32, .ro, 0, 0, any⟩,
   ⟨0x3510, 1, 0x0A, 1, 1, .u32, .wo, 0, 0, any⟩,
   ⟨0x3510, 1, 0x0B, 1, 1, .u8, .ro, 0, 0, any⟩,
   ⟨0x3510, 1, 0x0C, 1, 1, .u32, .ro, 0, 0, any⟩]

/-- Entries of 3800h to 3BFFh. -/
def rowsFb : List Row :=
  [⟨0x3800, 8, 0x00, 1, 1, .u8, .const, 27, 0, any⟩,
   ⟨0x3800, 8, 0x01, 1, 1, .u8, .rws, 1, 0, (range 1 32)⟩,
   ⟨0x3800, 8, 0x02, 1, 1, .u16, .rws, 63, 0, (range 2 256)⟩,
   ⟨0x3800, 8, 0x03, 1, 1, .u8, .rws, 16, 0, (range 1 128)⟩,
   ⟨0x3800, 8, 0x04, 1, 1, .u8, .rws, 16, 0, (range 1 128)⟩,
   ⟨0x3800, 8, 0x05, 1, 1, .u8, .rws, 1, 0, (range 1 32)⟩,
   ⟨0x3800, 8, 0x06, 1, 1, .u8, .rws, 15, 0, (range 1 32)⟩,
   ⟨0x3800, 8, 0x07, 1, 1, .u8, .rws, 4, 0, (range 1 16)⟩,
   ⟨0x3800, 8, 0x08, 1, 1, .u8, .rws, 4, 0, (range 1 16)⟩,
   ⟨0x3800, 8, 0x09, 1, 1, .bool, .rws, 1, 0, any⟩,
   ⟨0x3800, 8, 0x0A, 1, 1, .u8, .rws, 0, 0, (upto 127)⟩,
   ⟨0x3800, 8, 0x0B, 1, 1, .u8, .rws, 0, 0, (upto 2)⟩,
   ⟨0x3800, 8, 0x0C, 1, 1, .bool, .rws, 0, 0, any⟩,
   ⟨0x3800, 8, 0x0D, 1, 1, .dom, .rws, 0, 4512, any⟩,
   ⟨0x3800, 8, 0x0E, 1, 1, .u8, .rws, 0, 0, (upto 1)⟩,
   ⟨0x3800, 8, 0x0F, 1, 1, .u16, .rws, 0, 0, any⟩,
   ⟨0x3800, 8, 0x10, 1, 1, .u8, .rws, 0, 0, (upto 1)⟩,
   ⟨0x3800, 8, 0x11, 1, 1, .u8, .rws, 0, 0, (upto 2)⟩,
   ⟨0x3800, 8, 0x12, 1, 1, .u32, .rws, 0, 0, any⟩,
   ⟨0x3800, 8, 0x13, 1, 1, .u32, .rws, 0, 0, any⟩,
   ⟨0x3800, 8, 0x14, 1, 1, .u8, .rws, 0, 0, (upto 8)⟩,
   ⟨0x3800, 8, 0x15, 1, 1, .u64, .rws, 0, 0, any⟩,
   ⟨0x3800, 8, 0x16, 1, 1, .u64, .rws, 0, 0, any⟩,
   ⟨0x3800, 8, 0x17, 1, 1, .u8, .wo, 0, 0, (range 1 2)⟩,
   ⟨0x3800, 8, 0x18, 1, 1, .bool, .wo, 0, 0, any⟩,
   ⟨0x3800, 8, 0x19, 1, 1, .u8, .wo, 0, 0, cancelOk⟩,
   ⟨0x3800, 8, 0x1A, 1, 1, .dom, .wo, 0, 72, any⟩,
   ⟨0x3800, 8, 0x1B, 1, 1, .dom, .ro, 0, 49152, any⟩,
   ⟨0x3808, 8, 0x00, 1, 1, .u8, .const, 21, 0, any⟩,
   ⟨0x3808, 8, 0x01, 1, 1, .u8, .ro, 0, 0, any⟩,
   ⟨0x3808, 8, 0x02, 1, 1, .u16, .ro, 0, 0, any⟩,
   ⟨0x3808, 8, 0x03, 1, 1, .u8, .ro, 0, 0, any⟩,
   ⟨0x3808, 8, 0x04, 1, 1, .u8, .ro, 255, 0, any⟩,
   ⟨0x3808, 8, 0x05, 1, 1, .u64, .ro, 0, 0, any⟩,
   ⟨0x3808, 8, 0x06, 1, 1, .u64, .ro, 0, 0, any⟩,
   ⟨0x3808, 8, 0x07, 1, 1, .u32, .ro, 0, 0, any⟩,
   ⟨0x3808, 8, 0x08, 1, 1, .u32, .ro, 0, 0, any⟩,
   ⟨0x3808, 8, 0x09, 1, 1, .u32, .ro, 0, 0, any⟩,
   ⟨0x3808, 8, 0x0A, 1, 1, .u32, .ro, 0, 0, any⟩,
   ⟨0x3808, 8, 0x0B, 1, 1, .u32, .ro, 0, 0, any⟩]
  ++
  [⟨0x3808, 8, 0x0C, 1, 1, .u32, .ro, 0, 0, any⟩,
   ⟨0x3808, 8, 0x0D, 1, 1, .u32, .ro, 0, 0, any⟩,
   ⟨0x3808, 8, 0x0E, 1, 1, .u8, .ro, 0, 0, any⟩,
   ⟨0x3808, 8, 0x0F, 1, 1, .u8, .ro, 0, 0, any⟩,
   ⟨0x3808, 8, 0x10, 1, 1, .u32, .ro, 0, 0, any⟩,
   ⟨0x3808, 8, 0x11, 1, 1, .u32, .ro, 0, 0, any⟩,
   ⟨0x3808, 8, 0x12, 1, 1, .u32, .ro, 0, 0, any⟩,
   ⟨0x3808, 8, 0x13, 1, 1, .u32, .ro, 0, 0, any⟩,
   ⟨0x3808, 8, 0x14, 1, 1, .u16, .ro, 0xffff, 0, any⟩,
   ⟨0x3808, 8, 0x15, 1, 1, .u8, .ro, 0, 0, any⟩,
   ⟨0x3810, 8, 0x00, 1, 1, .u8, .const, 128, 0, any⟩,
   ⟨0x3810, 8, 0x01, 128, 1, .u64, .rws, 0, 0, any⟩,
   ⟨0x3818, 8, 0x00, 1, 1, .u8, .const, 128, 0, any⟩,
   ⟨0x3818, 8, 0x01, 128, 1, .u8, .ro, 0, 0, any⟩,
   ⟨0x3820, 16, 0x00, 1, 1, .u8, .const, 128, 0, any⟩,
   ⟨0x3820, 16, 0x01, 128, 1, .u64, .rws, 0, 0, any⟩,
   ⟨0x3B00, 64, 0x00, 1, 1, .u8, .const, 128, 0, any⟩,
   ⟨0x3B00, 64, 0x01, 128, 1, .u64, .rw, 0, 0, any⟩,
   ⟨0x3900, 256, 0x00, 1, 1, .u8, .const, 38, 0, any⟩,
   ⟨0x3900, 256, 0x01, 1, 1, .u8, .rws, 0, 0, (upto 7)⟩,
   ⟨0x3900, 256, 0x02, 1, 1, .u32, .rws, 0xffffffff, 0, any⟩,
   ⟨0x3900, 256, 0x03, 1, 1, .u8, .rws, 0, 0, canLen⟩,
   ⟨0x3900, 256, 0x04, 1, 1, .u8, .rws, 255, 0, any⟩,
   ⟨0x3900, 256, 0x05, 1, 1, .u8, .rws, 2, 0, (range 1 255)⟩,
   ⟨0x3900, 256, 0x06, 1, 1, .u8, .rws, 2, 0, (range 1 255)⟩,
   ⟨0x3900, 256, 0x07, 16, 1, .u32, .rws, 0xffffffff, 0, any⟩,
   ⟨0x3900, 256, 0x17, 16, 1, .u32, .rws, 0xffffffff, 0, any⟩,
   ⟨0x3A00, 256, 0x00, 1, 1, .u8, .const, 8, 0, any⟩,
   ⟨0x3A00, 256, 0x01, 1, 1, .u8, .ro, 0, 0, any⟩,
   ⟨0x3A00, 256, 0x02, 1, 1, .u8, .ro, 0, 0, any⟩,
   ⟨0x3A00, 256, 0x03, 1, 1, .u8, .ro, 0, 0, any⟩,
   ⟨0x3A00, 256, 0x04, 1, 1, .t80, .ro, 0, 0, any⟩,
   ⟨0x3A00, 256, 0x05, 1, 1, .t80, .ro, 0, 0, any⟩,
   ⟨0x3A00, 256, 0x06, 1, 1, .u32, .ro, 0, 0, any⟩,
   ⟨0x3A00, 256, 0x07, 1, 1, .u32, .ro, 0, 0, any⟩,
   ⟨0x3A00, 256, 0x08, 1, 1, .u32, .ro, 0, 0, any⟩]

/-- Entries of 3C00h to 3DFFh. -/
def rowsAcq : List Row :=
  [⟨0x3C00, 1, 0x00, 1, 1, .u8, .const, 17, 0, any⟩,
   ⟨0x3C00, 1, 0x01, 1, 1, .dom, .rws, 0, 65536, any⟩,
   ⟨0x3C00, 1, 0x02, 1, 1, .u8, .rws, 0, 0, (upto 2)⟩,
   ⟨0x3C00, 1, 0x03, 1, 1, .str, .rws, 0, 45, any⟩,
   ⟨0x3C00, 1, 0x04, 1, 1, .u16, .rws, 0xca13, 0, any⟩,
   ⟨0x3C00, 1, 0x05, 1, 1, .u8, .rws, 1, 0, (upto 1)⟩,
   ⟨0x3C00, 1, 0x06, 1, 1, .u16, .rws, 50, 0, (range 1 50000)⟩,
   ⟨0x3C00, 1, 0x07, 1, 1, .bool, .wo, 0, 0, any⟩,
   ⟨0x3C00, 1, 0x08, 1, 1, .u32, .ro, 0, 0, any⟩,
   ⟨0x3C00, 1, 0x09, 1, 1, .u64, .ro, 0, 0, any⟩,
   ⟨0x3C00, 1, 0x0A, 1, 1, .u64, .ro, 0, 0, any⟩,
   ⟨0x3C00, 1, 0x0B, 1, 1, .u32, .ro, 0, 0, any⟩,
   ⟨0x3C00, 1, 0x0C, 1, 1, .u32, .ro, 0, 0, any⟩,
   ⟨0x3C00, 1, 0x0D, 1, 1, .u32, .ro, 0, 0, any⟩,
   ⟨0x3C00, 1, 0x0E, 1, 1, .u16, .ro, 0, 0, any⟩,
   ⟨0x3C00, 1, 0x0F, 1, 1, .u16, .ro, 100, 0, any⟩,
   ⟨0x3C00, 1, 0x10, 1, 1, .u16, .rws, 0, 0, any⟩,
   ⟨0x3C00, 1, 0x11, 1, 1, .u16, .rws, 0, 0, any⟩,
   ⟨0x3C40, 16, 0x00, 1, 1, .u8, .const, 20, 0, any⟩,
   ⟨0x3C40, 16, 0x01, 1, 1, .dom, .rws, 0, 2048, any⟩,
   ⟨0x3C40, 16, 0x02, 1, 1, .u8, .rws, 0, 0, (upto 7)⟩,
   ⟨0x3C40, 16, 0x03, 1, 1, .u16, .rws, 0, 0, (range 1 2048)⟩,
   ⟨0x3C40, 16, 0x04, 1, 1, .u8, .rws, 1, 0, (range 1 64)⟩,
   ⟨0x3C40, 16, 0x05, 1, 1, .u32, .rws, 0, 0, any⟩,
   ⟨0x3C40, 16, 0x06, 1, 1, .u32, .rws, 1, 0, (atLeast 1)⟩,
   ⟨0x3C40, 16, 0x07, 1, 1, .u8, .rws, 1, 0, (upto 1)⟩,
   ⟨0x3C40, 16, 0x08, 1, 1, .u8, .rws, 0, 0, (upto 1)⟩,
   ⟨0x3C40, 16, 0x09, 1, 1, .u8, .rws, 0, 0, (upto 1)⟩,
   ⟨0x3C40, 16, 0x0A, 1, 1, .u8, .rws, 0, 0, (upto 5)⟩,
   ⟨0x3C40, 16, 0x0B, 1, 1, .u32, .rws, 0xffffffff, 0, any⟩,
   ⟨0x3C40, 16, 0x0C, 1, 1, .u8, .rws, 1, 0, (range 1 8)⟩,
   ⟨0x3C40, 16, 0x0D, 1, 1, .q20, .rws, 0, 0, any⟩,
   ⟨0x3C40, 16, 0x0E, 1, 1, .q20, .rws, 0, 0, any⟩,
   ⟨0x3C40, 16, 0x0F, 1, 1, .u16, .rws, 1, 0, (range 1 65535)⟩,
   ⟨0x3C40, 16, 0x10, 1, 1, .u16, .rws, 0, 0, any⟩,
   ⟨0x3C40, 16, 0x11, 1, 1, .t80, .rws, 0, 0, any⟩,
   ⟨0x3C40, 16, 0x12, 1, 1, .u8, .rws, 0, 0, (upto 1)⟩,
   ⟨0x3C40, 16, 0x13, 1, 1, .u8, .wo, 0, 0, (range 1 3)⟩,
   ⟨0x3C40, 16, 0x14, 1, 1, .u8, .wo, 0, 0, any⟩,
   ⟨0x3C60, 16, 0x00, 1, 1, .u8, .const, 12, 0, any⟩]
  ++
  [⟨0x3C60, 16, 0x01, 1, 1, .u8, .ro, 0, 0, any⟩,
   ⟨0x3C60, 16, 0x02, 1, 1, .u32, .ro, 0, 0, any⟩,
   ⟨0x3C60, 16, 0x03, 1, 1, .u32, .ro, 0, 0, any⟩,
   ⟨0x3C60, 16, 0x04, 1, 1, .u32, .ro, 0, 0, any⟩,
   ⟨0x3C60, 16, 0x05, 1, 1, .u64, .ro, 0, 0, any⟩,
   ⟨0x3C60, 16, 0x06, 1, 1, .u32, .ro, 0, 0, any⟩,
   ⟨0x3C60, 16, 0x07, 1, 1, .u32, .ro, 0, 0, any⟩,
   ⟨0x3C60, 16, 0x08, 1, 1, .u32, .ro, 0, 0, any⟩,
   ⟨0x3C60, 16, 0x09, 1, 1, .u64, .ro, 0, 0, any⟩,
   ⟨0x3C60, 16, 0x0A, 1, 1, .u8, .ro, 255, 0, any⟩,
   ⟨0x3C60, 16, 0x0B, 1, 1, .u64, .ro, 0, 0, any⟩,
   ⟨0x3C60, 16, 0x0C, 1, 1, .u32, .ro, 0, 0, any⟩]

/-- Entries of 3E00h to 3EFFh. -/
def rowsAgate : List Row :=
  [⟨0x3E00, 1, 0x00, 1, 1, .u8, .const, 20, 0, any⟩,
   ⟨0x3E00, 1, 0x01, 1, 1, .u16, .rws, 1000, 0, (upto 60000)⟩,
   ⟨0x3E00, 1, 0x02, 1, 1, .u8, .rws, 90, 0, (range 1 100)⟩,
   ⟨0x3E00, 1, 0x03, 1, 1, .u32, .ro, 0, 0, any⟩,
   ⟨0x3E00, 1, 0x04, 1, 1, .u32, .const, 0x200000, 0, any⟩,
   ⟨0x3E00, 1, 0x05, 1, 1, .u32, .ro, 0, 0, any⟩,
   ⟨0x3E00, 1, 0x06, 1, 1, .u32, .ro, 0, 0, any⟩,
   ⟨0x3E00, 1, 0x07, 1, 1, .u32, .ro, 0, 0, any⟩,
   ⟨0x3E00, 1, 0x08, 1, 1, .t80, .ro, 0, 0, any⟩,
   ⟨0x3E00, 1, 0x09, 1, 1, .t80, .ro, 0, 0, any⟩,
   ⟨0x3E00, 1, 0x0A, 1, 1, .u16, .ro, 0, 0, any⟩,
   ⟨0x3E00, 1, 0x0B, 1, 1, .u16, .ro, 0, 0, any⟩,
   ⟨0x3E00, 1, 0x0C, 1, 1, .u32, .ro, 0, 0, any⟩,
   ⟨0x3E00, 1, 0x0D, 1, 1, .u16, .ro, 0, 0, any⟩,
   ⟨0x3E00, 1, 0x0E, 1, 1, .u32, .ro, 0, 0, any⟩,
   ⟨0x3E00, 1, 0x0F, 1, 1, .u64, .ro, 0, 0, any⟩,
   ⟨0x3E00, 1, 0x10, 1, 1, .u32, .wo, 0, 0, any⟩,
   ⟨0x3E00, 1, 0x11, 1, 1, .t80, .ro, 0, 0, any⟩,
   ⟨0x3E00, 1, 0x12, 1, 1, .u32, .ro, 0, 0, any⟩,
   ⟨0x3E00, 1, 0x13, 1, 1, .u64, .wo, 0, 0, noteOk⟩,
   ⟨0x3E00, 1, 0x14, 1, 1, .dom, .ro, 0, 0, any⟩]

/-- Entries of 3F00h to 3FFFh. -/
def rowsTrunk : List Row :=
  [⟨0x3F00, 2, 0x00, 1, 1, .u8, .const, 15, 0, any⟩,
   ⟨0x3F00, 2, 0x01, 1, 1, .u8, .ro, 0, 0, any⟩,
   ⟨0x3F00, 2, 0x02, 1, 1, .u32, .ro, 0, 0, any⟩,
   ⟨0x3F00, 2, 0x03, 1, 1, .u32, .ro, 0, 0, any⟩,
   ⟨0x3F00, 2, 0x04, 1, 1, .u32, .ro, 0, 0, any⟩,
   ⟨0x3F00, 2, 0x05, 1, 1, .str, .ro, 0, 32, any⟩,
   ⟨0x3F00, 2, 0x06, 1, 1, .u32, .rws, 2000, 0, (range 500 10000)⟩,
   ⟨0x3F00, 2, 0x07, 1, 1, .u8, .rws, 10, 0, (range 1 255)⟩,
   ⟨0x3F00, 2, 0x08, 1, 1, .u8, .rws, 5, 0, (range 1 255)⟩,
   ⟨0x3F00, 2, 0x09, 1, 1, .u32, .rws, 0xffffffff, 0, wordAddr⟩,
   ⟨0x3F00, 2, 0x0A, 1, 1, .dom, .rws, 0, 4096, any⟩,
   ⟨0x3F00, 2, 0x0B, 1, 1, .u8, .ro, 0, 0, any⟩,
   ⟨0x3F00, 2, 0x0C, 1, 1, .u16, .ro, 0, 0, any⟩,
   ⟨0x3F00, 2, 0x0D, 1, 1, .u32, .ro, 0, 0, any⟩,
   ⟨0x3F00, 2, 0x0E, 1, 1, .u32, .ro, 0, 0, any⟩,
   ⟨0x3F00, 2, 0x0F, 1, 1, .u32, .ro, 0, 0, any⟩,
   ⟨0x3F10, 2, 0x00, 1, 1, .u8, .const, 128, 0, any⟩,
   ⟨0x3F10, 2, 0x01, 128, 1, .u32, .rws, 0xffffffff, 0, trunkMapOk⟩]

/-- The rows of the range an index lies in (Table 2.3). -/
def rowsOf (idx : Nat) : List Row :=
  if idx ≤ 0x0FFF then rowsLow else
  if idx ≤ 0x13FF then rowsClk else
  if idx ≤ 0x17FF then rowsTime else
  if idx ≤ 0x1BFF then rowsSec else
  if idx ≤ 0x1FFF then rowsRed else
  if idx ≤ 0x27FF then rowsLoop else
  if idx ≤ 0x28FF then rowsTick else
  if idx ≤ 0x29FF then rowsLane else
  if idx ≤ 0x2BFF then rowsDisp else
  if idx ≤ 0x2FFF then rowsSlate else
  if idx ≤ 0x30FF then rowsFlint else
  if idx ≤ 0x33FF then rowsAxis else
  if idx ≤ 0x37FF then rowsIo else
  if idx ≤ 0x3BFF then rowsFb else
  if idx ≤ 0x3DFF then rowsAcq else
  if idx ≤ 0x3EFF then rowsAgate else
  if idx ≤ 0x3FFF then rowsTrunk else
  []

end Sys2Proof.Machine
end

