-- ==== Sys2Proof/Config.lean ====
section
/-! DEFINITION. What one unit or its surroundings fix, and the values the manual leaves open: opaque constants with no body, so no proof can lean on a value of theirs. -/

namespace Sys2Proof

/-! ### Per unit (Table 2.4, Tables 9.11, 15.5, 16.11, 16.12) -/

/-- `id.serial`. -/
opaque Config.serial : List Byte
/-- `id.hw_issue`. -/
opaque Config.hwIssue : Nat
/-- `id.kernel_rom_version`. -/
opaque Config.romVersion : Nat
/-- `id.boot_rom_version`. -/
opaque Config.bootRomVersion : Nat
/-- Factory gain of a channel and mode, Q2.17, as a 20-bit value. -/
opaque Config.calGain : Nat → Nat → Q
/-- Factory offset of a channel and mode, Q0.19. -/
opaque Config.calOffset : Nat → Nat → Q
/-- `chan[c].cal_time`. -/
opaque Config.calTime : Nat → T80
/-- `pwr.bank_uf`. -/
opaque Config.bankUf : Nat
/-- `dbg.idcode`. -/
opaque Config.idcode : Nat
/-- Factory ingress and egress latency of a link, ps (Table 13.6). -/
opaque Config.linkIngress : Nat → Nat
opaque Config.linkEgress : Nat → Nat
/-- The fused firmware root hash. -/
opaque Config.rootHash : List Byte
/-- The commissioning anchor and the vendor service anchor of the boot ROM. -/
opaque Config.commissioningAnchor : List Byte
opaque Config.serviceAnchor : List Byte
/-- The identity certificate. -/
opaque Config.identityCert : List Byte
/-- The module's PTP clockIdentity. -/
opaque Config.clockIdentity : Nat
/-- The runtime slots of the boot flash as the unit left manufacture (R475). -/
opaque Config.flashImage : Nat → List Byte

/-! ### Cryptography (R64, R65, R473 to R485)

The standards fix these functions; the model leaves them without a body. -/

/-- SHA-384; its output is used through `padTo 48`. -/
opaque Config.sha384 : List Byte → List Byte
/-- ECDSA P-384 with SHA-384: the signature of some bytes verifies under the subject key of a certificate. -/
opaque Config.verify : (cert data sig : List Byte) → Bool
/-- A chain is well formed, with its certificates, leaf first. -/
opaque Config.chainCerts : List Byte → Option (List (List Byte))
/-- The chain's last certificate was issued by the anchor, and each by the next. -/
opaque Config.issuedBy : (chain anchor : List Byte) → Bool
/-- Some certificate of a chain is outside its validity period at this TAI second less UTC offset. -/
opaque Config.chainExpired : (chain : List Byte) → Int → Bool
/-- The public key that heads a runtime image's chain (Table 16.1). -/
opaque Config.headKey : (chain : List Byte) → List Byte
/-- organizationalUnitName of a certificate's subject (R474). -/
opaque Config.certOu : List Byte → List Byte
/-- A fresh 32-byte nonce, by the number of nonces drawn before it. -/
opaque Config.nonce : Nat → List Byte
/-- The module's signature with its attestation key, by measurement. -/
opaque Config.attSign : (measurement data : List Byte) → List Byte
/-- The attestation certificate, by measurement and security version. -/
opaque Config.attCert : (measurement : List Byte) → Nat → List Byte
/-- The module's ephemeral ECDH public key, by the number of nonces drawn. -/
opaque Config.ecdhKey : Nat → List Byte
/-- The ECDH shared secret, by the server nonce drawn with the module's key pair and by the client's public key. -/
opaque Config.ecdhSecret : (serverNonce clientKey : List Byte) → List Byte
/-- HKDF with SHA-384: salt, info, secret. -/
opaque Config.hkdf : (salt info secret : List Byte) → List Byte
/-- Major, minor and build of a runtime image, as 0100h:04 gives them. -/
opaque Config.runtimeVersion : List Byte → Nat

/-! ### Values the manual leaves open -/

/-- A clamp whose limits are crossed: value, low limit, high limit. -/
opaque Config.clampCrossed : Int → Int → Int → Int
/-- The square root of a negative value above a negative cutoff (Table 4.8, SQRT). -/
opaque Config.sqrtNegative : Int → Int
/-- Linearisation of a Pt sensor (IEC 60751) and the thermocouple functions (IEC 60584-1): channel sensor code and raw value; the thermocouple takes its cold junction too. -/
opaque Config.ptLinear : Nat → Int → Int
opaque Config.tcLinear : Nat → Int → Int → Int
/-- The bytes of a configuration bank's body are not laid out by the manual: its bytes are a function of the number of the snapshot. -/
opaque Config.bodyBytes : Nat → List Byte
/-- A value that nothing constrains: a fresh one for each number. -/
opaque Config.freeValue : Nat → Nat

end Sys2Proof
end

