-- ==== Sys2Proof/Machine/State.lean ====
section
/-! DEFINITION. The state of the block: the module's parts, the queue of waiting commands, the fuses; the faults and refusals; and the state after reset. -/

namespace Sys2Proof.Machine

/-- Why a command stops the block. -/
inductive Fault where
  /-- A lane meets a word that R142 calls undefined: a C-operand form whose [11:9] is not 0, or LPSUP or LPOUT outside ROM. Raised by the lane instructions. Safe: the hardware's static check keeps such words out of every image. -/
  | undefinedWord
  deriving DecidableEq, Repr

/-- Why a command is not taken. -/
inductive Refusal where
  /-- The command has no meaning yet. Raised by `exec` alone. Safe. -/
  | notModelled (mnemonic : String)
  deriving DecidableEq, Repr

/-- The parts of the module. -/
structure Module where
  dict : Dict
  /-- Function state table (R51), by function number. -/
  funcs : Sparse FuncRec
  /-- Functions whose boot state in the configuration in use is RUNNING (R59). -/
  bootRunning : List Nat
  tick : Tick
  /-- The process image (R32), by word address. -/
  pi : Sparse Word
  odp : Odp
  agate : Agate
  loop : Loop
  lanes : Sparse Lane
  disp : Disp
  slate : Slate
  flint : Flint
  motion : Motion
  io : Io
  ports : Sparse Port
  acq : Acq
  time : Time
  cal : Calendar
  power : Power
  red : Red
  sec : Sec
  nv : Nv
  /-- What the module has handed to its links and pins, oldest first. -/
  out : List Out
  /-- Free values taken so far; each is a value of `Config.freeValue`. -/
  free : Nat
  deriving DecidableEq, Repr

/-- The state of the block: the waiting commands, first in, first out; the module; its fuses. -/
structure State where
  pending : List Instr
  mod : Module
  fuses : Fuses
  deriving DecidableEq, Repr

/-- The dictionary with every entry at its default. -/
def Dict.reset : Dict := ⟨[], [], [], [], [], []⟩

/-- The tick while no epoch has run. -/
def Tick.reset : Tick := ⟨none, 0, 0, .free, 0, T80.zero, 0, T80.zero, 5000, [], [], 0, [], [], 0, 0⟩

/-- The dictionary server with no session. -/
def Odp.reset : Odp := ⟨[], [], 0, [], [], [], [], [], [], 0, none, []⟩

/-- Agate before its boot scan. -/
def Agate.reset : Agate := ⟨[], [], 0, [], none, false, 0, Descr.init⟩

/-- The loop engine with zeroed memory. -/
def Loop.reset : Loop := ⟨[], [], [], [], [], [], []⟩

/-- The dispatcher with no live descriptor. -/
def Disp.reset : Disp := ⟨[], [], none, [], []⟩

/-- Slate with no run. -/
def Slate.reset : Slate := ⟨[], [], [], [], []⟩

/-- Flint with no image. -/
def Flint.reset : Flint := ⟨FlintImage.empty, none, .none, 0, [], FData.init, [], [], [], [], [], [], none, false⟩

/-- Motion with every axis at its initial state. -/
def Motion.reset : Motion := ⟨[], [], [], []⟩

/-- Onboard I/O with every output off. -/
def Io.reset : Io := ⟨[], [], [], 0, 0, 0, 0, 0, [], [], [], [], []⟩

/-- Acquisition with nothing staged. -/
def Acq.reset : Acq := ⟨[], [], [], [], none, 0, 0, [], [], [], 0, [], 0, 0, 0⟩

/-- The time unit with its counter at 0 and the nominal increment (R397, R409). -/
def Time.reset : Time where
  ctr := 0
  st := .unset
  source := 0
  incr := 34359738368
  rate := 0
  acc := 0
  offset := 0
  lastMeas := none
  agree := []
  lockRun := 0
  jumpRun := 0
  outs := []
  delays := []
  stepped := false
  seeded := false
  gmJump := false
  pendStep := 0
  accept := false
  holdSince := none
  sync := none
  msDiff := none
  dreq := none
  dreqSeq := 0
  syncSeq := 0
  annSeq := 0
  master := none
  heard := []
  holdNs := none
  managed := 0
  runStep := 0
  aligned := true

/-- The calendar with no backup part ever fitted: CAL_LOST stands. -/
def Calendar.reset : Calendar := ⟨0, 0, true⟩

/-- Clocks and power at reset release (R504, R513): RC and TCXO not yet enabled, outputs disabled, RELEASE driven. -/
def Power.reset : Power where
  stage := .off
  switching := []
  onPll := []
  gateReq := []
  deepEntry := false
  ride := .none
  prevState := 1
  sincePfail := 0
  persistUs := 0
  workBytes := 0
  journalBytes := 0
  inputGood := true
  insertion := .released
  thermalHold := false
  pwrOk := true
  diode := true
  charger := false
  gneissMain := true
  outputs := false
  nextCause := 1
  recovery := false
  dramFault := false
  booted := false

/-- The redundancy unit at reset release: no partner known, RELEASE driven, lines ambiguous. -/
def Red.reset : Red where
  st := 0
  hold := false
  driving := true
  link := 0
  delay := 0
  partner := none
  partnerState := 0
  lines := 2
  pwrOk := false
  reason := 0
  wiring := false
  verifyFails := 0
  retryDue := true
  verifyCount := 0
  capture := none
  recBytes := []
  slotDone := []
  joined := []
  phase := 0
  computing := true
  txSeq := 0
  rxSeq := none
  replay := []
  mirrors := []
  changes := []
  changeNo := 0
  tickEpoch := none
  waiting := false
  decisions := []
  digests := []
  recs := []
  forwards := []
  releaseDue := none
  dogExpired := false
  claimWait := false
  takeover := none
  owed := []
  lastDone := 0
  lag := 0
  suspended := 0
  fromHold := false
  strobeHeld := false

/-- Security and debug at reset: D0 (R483), no token, no nonce. -/
def Sec.reset : Sec := ⟨0, [], [], none, none, none, none, [], 0, 0, 0, 0, [], .bypass, 0, 0, false, false⟩

/-- MRAM and boot flash of a unit as it leaves Wirraward: nothing saved, nothing recorded, no owner anchor. -/
def Nv.reset : Nv :=
  ⟨none, none, none, [], none, none, none, [], none, [], 1, 0, 0, 0, 0, false, 0, Config.flashImage 0, Config.flashImage 1⟩

/-- Fuses of a unit as it leaves Wirraward, in PROVISIONED (R481). -/
def Fuses.reset : Fuses := ⟨[1], 0, false, true⟩

/-- The module right after reset release. -/
def Module.reset : Module where
  dict := Dict.reset
  funcs := []
  bootRunning := []
  tick := Tick.reset
  pi := []
  odp := Odp.reset
  agate := Agate.reset
  loop := Loop.reset
  lanes := []
  disp := Disp.reset
  slate := Slate.reset
  flint := Flint.reset
  motion := Motion.reset
  io := Io.reset
  ports := []
  acq := Acq.reset
  time := Time.reset
  cal := Calendar.reset
  power := Power.reset
  red := Red.reset
  sec := Sec.reset
  nv := Nv.reset
  out := []
  free := 0

/-- The block right after reset, with no command waiting. -/
def State.reset : State := ⟨[], Module.reset, Fuses.reset⟩

end Sys2Proof.Machine
end

