-- ==== Sys2Proof/Machine/Dict.lean ====
section
/-! DEFINITION. The parameter dictionary as a store: which entry a key names, its default, its owner and least role, and the cells that hold its values. -/

namespace Sys2Proof.Machine

/-! ### Status codes (Table 2.13) -/

/-- OK. -/
def stOk : Nat := 0x00
/-- OK_NOCHANGE. -/
def stOkNochange : Nat := 0x01
/-- IN_PROGRESS. -/
def stInProgress : Nat := 0x02
/-- NO_ENTRY. -/
def stNoEntry : Nat := 0x10
/-- NO_SUB. -/
def stNoSub : Nat := 0x11
/-- READ_ONLY. -/
def stReadOnly : Nat := 0x12
/-- WRITE_ONLY. -/
def stWriteOnly : Nat := 0x13
/-- NOT_STOPPED. -/
def stNotStopped : Nat := 0x14
/-- BAD_TYPE. -/
def stBadType : Nat := 0x15
/-- BAD_VALUE. -/
def stBadValue : Nat := 0x16
/-- ROLE. -/
def stRole : Nat := 0x17
/-- VENDOR_RANGE. -/
def stVendorRange : Nat := 0x18
/-- BAD_OPCODE. -/
def stBadOpcode : Nat := 0x19
/-- BAD_FLAGS. -/
def stBadFlags : Nat := 0x1A
/-- DUP_ID. -/
def stDupId : Nat := 0x1B
/-- TOO_LONG. -/
def stTooLong : Nat := 0x1C
/-- CFG_CRC. -/
def stCfgCrc : Nat := 0x20
/-- OUT_CAPACITY. -/
def stOutCapacity : Nat := 0x21
/-- PARENT_STOPPED. -/
def stParentStopped : Nat := 0x22
/-- CHILDREN_RUNNING. -/
def stChildrenRunning : Nat := 0x23
/-- BUSY. -/
def stBusy : Nat := 0x24
/-- NV_FULL. -/
def stNvFull : Nat := 0x25
/-- NV_FAIL. -/
def stNvFail : Nat := 0x26
/-- SEG_ORDER. -/
def stSegOrder : Nat := 0x27
/-- SEG_CRC. -/
def stSegCrc : Nat := 0x28
/-- SIG_FAIL. -/
def stSigFail : Nat := 0x29
/-- SUB_LIMIT. -/
def stSubLimit : Nat := 0x2A

/-- The key of an index and sub. -/
def keyOf (idx sub : Nat) : Nat := idx * 256 + sub

/-- The listed function numbers (Table 2.5). -/
def isFn (f : Nat) : Bool :=
  decide (f ≤ 0x40A) || decide (f = 0x410) || range 0x440 0x480 f || range 0x488 0x48F f || range 0x4A0 0x4C7 f ||
    range 0x500 0x541 f || range 0x548 0x549 f || range 0x580 0x587 f || decide (f = 0x5C0) || range 0x5D0 0x5DF f ||
    range 0x600 0x602 f

/-- Every listed function number, in ascending order. -/
def allFns : List Nat := (List.range 0x603).filter isFn

/-- The divisor D_g of a rate group (Table 1.1). -/
def divisor (g : Nat) : Nat := [1, 2, 4, 5, 10, 20, 50, 100].getD g 1

/-- The default phase of a rate group (Table 1.1). -/
def defaultPhase (g : Nat) : Nat := [1600, 3200].getD g 4000

/-- The fixed name of a type (R43). -/
def Ty.name : Nat → String
  | 1 => "BOOL" | 2 => "U8" | 3 => "U16" | 4 => "U32" | 5 => "U64" | 6 => "I20" | 7 => "I32" | 8 => "I48"
  | 9 => "Q20" | 10 => "F32" | 11 => "T80" | 12 => "STR" | 13 => "DOM" | _ => ""

/-- The wire size entry of a type code (R43). -/
def typeSize : Nat → Nat
  | 1 => 1 | 2 => 1 | 3 => 2 | 4 => 4 | 5 => 8 | 6 => 4 | 7 => 4 | 8 => 8 | 9 => 4 | 10 => 4 | 11 => 10 | _ => 0

/-- Point `i` of a characteristic table as it stands by default: p_i = (i − 16) × 2^15, p32 = 7_FFFFh (R87). -/
def defaultPoint (i : Nat) : Nat :=
  if i = 32 then 0x7FFFF else uint 32 (((i : Int) - 16) * 32768)

/-- RUN_EN, SLEEP_EN and DEEP_EN by default (Table 15.3). -/
def defaultGate (b which : Nat) : Nat :=
  match which with
  | 1 => 1
  | 2 => b01 ([1, 2, 3, 6, 8, 9, 10, 11, 13].contains b)
  | _ => b01 (b == 1 || b == 13)

/-- An enable that Table 15.3 marks CONST. -/
def gateConst (b which : Nat) : Bool := (which == 1 && b == 0) || b == 1 || b == 13

/-- The row that holds an index and sub. -/
def rowAt (idx sub : Nat) : Option Row := (rowsOf idx).find? (fun r => r.has idx sub)

/-- The index is populated: its highest sub (R40). -/
def highest (idx : Nat) : Option Nat :=
  if range 0x400 0xBFF idx && !isFn (idx - 0x400) then none
  else (rowAt idx 0).map Row.dflt

/-- The access of an entry, with the enables that Table 15.3 fixes. -/
def Row.access (r : Row) (idx sub : Nat) : Access :=
  if range 0x1020 0x102D idx && range 1 3 sub && gateConst (idx - 0x1020) sub then .const else r.acc

/-- The value an entry holds by default, where it does not depend on the unit (R41). -/
def dfltCell (key : Nat) : Nat :=
  let idx := key / 256
  let sub := key % 256
  if range 0x2810 0x2817 idx && sub == 1 then defaultPhase (idx - 0x2810)
  else if range 0x2810 0x2817 idx && sub == 2 then divisor (idx - 0x2810)
  else if range 0x2810 0x2817 idx && sub == 3 then divisor (idx - 0x2810) * 4000
  else if range 0x2840 0x287F idx && range 1 132 sub then defaultPoint ((sub - 1) % 33)
  else if range 0x1020 0x102D idx && range 1 3 sub then defaultGate (idx - 0x1020) sub
  else if range 1 13 idx && sub == 1 then typeSize idx
  else if range 0x400 0xBFF idx && sub == 2 then idx - 0x400
  else if range 0x1420 0x1422 idx && sub == 1 then Config.linkIngress (idx - 0x1420) % 2 ^ 32
  else if range 0x1420 0x1422 idx && sub == 2 then Config.linkEgress (idx - 0x1420) % 2 ^ 32
  else match rowAt idx sub with
    | some r => r.dflt
    | none => 0

/-- The bytes a STR or DOM entry holds by default. -/
def dfltBytes (_ : Nat) : List Byte := []

/-- The live value of an entry. -/
def Module.cfg (m : Module) (key : Nat) : Nat := Sparse.get dfltCell m.dict.live key
/-- The shadow or last written value of an entry. -/
def Module.shad (m : Module) (key : Nat) : Nat := Sparse.get dfltCell m.dict.shadow key
/-- The value of an RO entry kept as a cell. -/
def Module.stat (m : Module) (key : Nat) : Nat := Sparse.get dfltCell m.dict.stat key
/-- Put cells into a store. -/
def putCells {α : Type} [DecidableEq α] (dflt : Nat → α) (new old : Sparse α) : Sparse α :=
  new.foldl (fun (acc : Sparse α) (x : Nat × α) => Sparse.set dflt acc x.1 x.2) old

/-- The cells of a store that meet a condition are those given. -/
def swapCells {α : Type} [DecidableEq α] (dflt : Nat → α) (p : Nat → Bool) (new old : Sparse α) : Sparse α :=
  putCells dflt new (old.filter fun x => !p x.1)

/-- The live bytes of a STR or DOM. -/
def Module.cfgB (m : Module) (key : Nat) : List Byte := Sparse.get dfltBytes m.dict.liveB key
/-- The shadow bytes of a STR or DOM. -/
def Module.shadB (m : Module) (key : Nat) : List Byte := Sparse.get dfltBytes m.dict.shadowB key
/-- The bytes of an RO STR or DOM kept as a cell. -/
def Module.statB (m : Module) (key : Nat) : List Byte := Sparse.get dfltBytes m.dict.statB key
/-- The live value as a signed 20-bit number. -/
def Module.cfgQ (m : Module) (key : Nat) : Int := sint 20 (m.cfg key)
/-- The live value as a signed 48-bit number. -/
def Module.cfgI48 (m : Module) (key : Nat) : Int := sint 48 (m.cfg key)
/-- The live value as a signed 32-bit number. -/
def Module.cfgI32 (m : Module) (key : Nat) : Int := sint 32 (m.cfg key)
/-- The live value as a Bool. -/
def Module.cfgOn (m : Module) (key : Nat) : Bool := m.cfg key != 0

def Module.setCfg (key v : Nat) (m : Module) : Module := { m with dict := { m.dict with live := Sparse.set dfltCell m.dict.live key v } }
def Module.setShad (key v : Nat) (m : Module) : Module := { m with dict := { m.dict with shadow := Sparse.set dfltCell m.dict.shadow key v } }
def Module.setStat (key v : Nat) (m : Module) : Module := { m with dict := { m.dict with stat := Sparse.set dfltCell m.dict.stat key v } }
def Module.setCfgB (key : Nat) (v : List Byte) (m : Module) : Module := { m with dict := { m.dict with liveB := Sparse.set dfltBytes m.dict.liveB key v } }
def Module.setShadB (key : Nat) (v : List Byte) (m : Module) : Module := { m with dict := { m.dict with shadowB := Sparse.set dfltBytes m.dict.shadowB key v } }
def Module.setStatB (key : Nat) (v : List Byte) (m : Module) : Module := { m with dict := { m.dict with statB := Sparse.set dfltBytes m.dict.statB key v } }

/-- Write both copies of an entry: a value the module sets in an RW entry (Table 2.2), or a shadow made live. -/
def Module.setBoth (key v : Nat) (m : Module) : Module := (m.setShad key v).setCfg key v

/-- The largest value an entry's type holds. -/
def maxOf (key : Nat) : Nat :=
  match rowAt (key / 256) (key % 256) with
  | some r => 2 ^ (8 * r.ty.size) - 1
  | none => 2 ^ 64 - 1

/-- Count up an RO counter; it stays at its largest value (R518). -/
def Module.bumpBy (key n : Nat) (m : Module) : Module := m.setStat key (min (m.stat key + n) (maxOf key))
/-- Count one. -/
def Module.bump (key : Nat) (m : Module) : Module := m.bumpBy key 1
/-- Keep the largest value seen. -/
def Module.peak (key v : Nat) (m : Module) : Module := if m.stat key < v then m.setStat key v else m
/-- Store a signed value of `n` bits in a cell. -/
def Module.setStatI (key n : Nat) (i : Int) (m : Module) : Module := m.setStat key (uint n i)

/-- The function that owns an entry, at whose sample instant a write takes effect (R45, and the chapters' ownership lines); none where no function does. -/
def ownerOf (key : Nat) : Option Nat :=
  let idx := key / 256
  let sub := key % 256
  if range 0x2000 0x23FF idx then some (idx - 0x2000)
  else if range 0x2400 0x27FF idx then some (idx - 0x2400)
  else if idx == 0x2801 then some 0x408
  else if range 0x2810 0x2817 idx then some (0x400 + (idx - 0x2810))
  else if range 0x2818 0x281F idx then some (0x400 + (idx - 0x2818))
  else if idx == 0x2900 then some 0x40A
  else if idx == 0x2A10 then some 0x409
  else if range 0x2A40 0x2A4F idx then some ((idx - 0x2A40) * 64 + (sub - 1))
  else if range 0x2A50 0x2A5F idx then some ((idx - 0x2A50) * 64 + (sub - 1))
  else if range 0x2C10 0x2C13 idx then some 0x410
  else if range 0x2C40 0x2C7F idx then some (0x440 + (idx - 0x2C40))
  else if idx == 0x3000 then some 0x480
  else if range 0x3010 0x3017 idx then some (0x488 + (idx - 0x3010))
  else if range 0x3110 0x312F idx then some (0x4A0 + (idx - 0x3110))
  else if range 0x3130 0x314F idx then some (0x4A0 + (idx - 0x3130))
  else if range 0x3150 0x3157 idx then some (0x4C0 + (idx - 0x3150))
  else if range 0x3400 0x343F idx then some (0x500 + (idx - 0x3400))
  else if idx == 0x3500 then some 0x540
  else if idx == 0x3510 then some 0x541
  else if range 0x3F00 0x3F01 idx then some (0x548 + (idx - 0x3F00))
  else if range 0x3F10 0x3F11 idx then some (0x548 + (idx - 0x3F10))
  else if range 0x3800 0x3807 idx then some (0x580 + (idx - 0x3800))
  else if range 0x3810 0x3817 idx then some (0x580 + (idx - 0x3810))
  else if range 0x3820 0x382F idx then some (0x580 + (idx - 0x3820) / 2)
  else if range 0x3900 0x39FF idx then some (0x580 + (idx - 0x3900) / 32)
  else if range 0x3B00 0x3B3F idx then some (0x580 + (idx - 0x3B00) / 8)
  else if idx == 0x3C00 then some 0x5C0
  else if range 0x3C40 0x3C4F idx then some (0x5D0 + (idx - 0x3C40))
  else if idx == 0x3E00 then some 0x600
  else if idx == 0x1400 || idx == 0x1410 || range 0x1420 0x1422 idx then some 0x601
  else if idx == 0x1C00 then some 0x602
  else none

/-- The index ranges in which a function's RWS entries lie, in ascending order: first index, number of indices. -/
def blockIndices (f : Nat) : List (Nat × Nat) :=
  if f < 0x400 then [(0x2000 + f, 1), (0x2A40 + f / 64, 1), (0x2A50 + f / 64, 1)]
  else if f < 0x408 then [(0x2810 + (f - 0x400), 1), (0x2818 + (f - 0x400), 1)]
  else if f == 0x408 then [(0x2801, 1)]
  else if f == 0x409 then [(0x2A10, 1)]
  else if f == 0x40A then [(0x2900, 1)]
  else if f == 0x410 then [(0x2C10, 4)]
  else if range 0x440 0x47F f then [(0x2C40 + (f - 0x440), 1)]
  else if f == 0x480 then [(0x3000, 1)]
  else if range 0x4A0 0x4BF f then [(0x3110 + (f - 0x4A0), 1)]
  else if range 0x4C0 0x4C7 f then [(0x3150 + (f - 0x4C0), 1)]
  else if range 0x500 0x53F f then [(0x3400 + (f - 0x500), 1)]
  else if f == 0x540 then [(0x3500, 1)]
  else if f == 0x541 then [(0x3510, 1)]
  else if range 0x548 0x549 f then [(0x3F00 + (f - 0x548), 1), (0x3F10 + (f - 0x548), 1)]
  else if range 0x580 0x587 f then
    let p := f - 0x580
    [(0x3800 + p, 1), (0x3810 + p, 1), (0x3820 + 2 * p, 2), (0x3900 + 32 * p, 32)]
  else if f == 0x5C0 then [(0x3C00, 1)]
  else if range 0x5D0 0x5DF f then [(0x3C40 + (f - 0x5D0), 1)]
  else if f == 0x600 then [(0x3E00, 1)]
  else if f == 0x601 then [(0x1400, 1), (0x1410, 1), (0x1420, 3)]
  else if f == 0x602 then [(0x1C00, 1)]
  else []

/-- The RWS keys of one index with their rows, in ascending sub order. -/
def rwsOfIndex (idx : Nat) : List (Nat × Row) :=
  (List.range 256).filterMap fun sub =>
    match rowAt idx sub with
    | some r => if r.acc = .rws then some (keyOf idx sub, r) else none
    | none => none

/-- The RWS entries of a function in ascending index:sub order (R54). -/
def rwsOf (f : Nat) : List (Nat × Row) :=
  ((blockIndices f).flatMap fun (i, n) => (List.range n).flatMap fun j => rwsOfIndex (i + j)).filter
    fun e => ownerOf e.1 == some f

/-- The wire bytes of a cell of a row: the shadow copy or the live copy. -/
def wireBytes (m : Module) (shadow : Bool) (key : Nat) (r : Row) : List Byte :=
  match r.ty with
  | .dom => if shadow then m.shadB key else m.cfgB key
  | .str =>
    let b := if shadow then m.shadB key else m.cfgB key
    leBytes 2 b.length ++ b
  | t => leBytes t.size (if shadow then m.shad key else m.cfg key)

/-- The byte image of a function's shadow or live block (R54). -/
def blockImage (m : Module) (shadow : Bool) (f : Nat) : List Byte :=
  (rwsOf f).flatMap fun e => wireBytes m shadow e.1 e.2

/-- Make a function's whole shadow block live (R46, R55). -/
def makeLive (f : Nat) (m : Module) : Module :=
  forL (rwsOf f) (fun e m =>
    match e.2.ty with
    | .dom | .str => m.setCfgB e.1 (m.shadB e.1)
    | _ => m.setCfg e.1 (m.shad e.1)) m

/-- The power order of roles (R64). -/
def Role.rank : Role → Nat
  | .observer => 0 | .operator => 1 | .engineer => 2 | .service => 3

/-- The least role rank to write an entry (Table 16.10). -/
def writeRole (key : Nat) : Nat :=
  let idx := key / 256
  let sub := key % 256
  if range 0x8000 0x83FF idx then 1
  else if key == Ent.attNonce || key == Ent.acqStreamAttach then 0
  else if range 0x2000 0x23FF idx && range 0x60 0x62 sub then 1
  else if range 0x2818 0x281F idx && sub == 5 then 1
  else if range 0x2C40 0x2C7F idx && range 2 3 sub then 1
  else if range 0x3130 0x314F idx && sub == 1 then 1
  else if key == Ent.doFaultClear then 1
  else if range 0x3C40 0x3C4F idx && range 0x13 0x14 sub then 1
  else if key == Ent.agateNote then 1
  else 2

end Sys2Proof.Machine
end

