-- ==== Sys2Proof/Machine/Ops.lean ====
section
/-! DEFINITION. The named operations over the module: running a command, the time counter and the core cycle, the process image, functions, free values, and raising and admitting events. -/

namespace Sys2Proof.Machine

/-! ### Running a command -/

/-- A command whose effect is `f` on the module. -/
def State.run (s : State) (f : Module → Module) : Host.Outcome State Fault Refusal := .next { s with mod := f s.mod }

/-- A command whose effect reads the fuses. -/
def State.runF (s : State) (f : Fuses → Module → Module) : Host.Outcome State Fault Refusal := .next { s with mod := f s.fuses s.mod }

/-- Do `f` when a condition stands. -/
def when (c : Bool) (f : Module → Module) (m : Module) : Module := if c then f m else m

/-! ### Time -/

/-- The T80 of the counter: its fraction bits dropped (R396). -/
def Module.now (m : Module) : T80 := T80.ofNs (m.time.ctr / 2 ^ 32)

/-- Nanoseconds on the counter. -/
def Module.nowNs (m : Module) : Nat := m.time.ctr / 2 ^ 32

/-- The counter moves on by some core cycles: `time.increment` for each 8 ns (R396), and `periodPs` for each cycle. -/
def advance (cycles : Nat) (m : Module) : Module :=
  { m with time := { m.time with ctr := m.time.ctr + cycles * m.tick.periodPs * m.time.incr / 8000 } }

/-- The core cycle of the tick becomes `c`; it never goes back within a tick. -/
def toCycle (c : Nat) (m : Module) : Module :=
  if m.tick.cycle < c then
    { advance (c - m.tick.cycle) m with tick := { m.tick with cycle := c } }
  else m

/-- One core cycle passes. -/
def idleCycle (m : Module) : Module := { advance 1 m with tick := { m.tick with cycle := m.tick.cycle + 1 } }

/-- A free value, and the module with the next one in line. -/
def takeFree (m : Module) : Nat × Module := (Config.freeValue m.free, { m with free := m.free + 1 })

/-! ### Functions -/

/-- The record of a function. -/
def Module.fn (m : Module) (f : Nat) : FuncRec := Sparse.get (fun _ => FuncRec.init) m.funcs f
def Module.modFn (f : Nat) (g : FuncRec → FuncRec) (m : Module) : Module := { m with funcs := Sparse.mod (fun _ => FuncRec.init) m.funcs f g }
def Module.running (m : Module) (f : Nat) : Bool := (m.fn f).st == .running
def Module.stopped (m : Module) (f : Nat) : Bool := (m.fn f).st == .stopped
/-- RUNNING or STOPPING: the live block is in use. -/
def Module.active (m : Module) (f : Nat) : Bool := (m.fn f).st == .running || (m.fn f).st == .stopping
/-- STARTING or RUNNING. -/
def Module.up (m : Module) (f : Nat) : Bool := (m.fn f).st == .starting || (m.fn f).st == .running

/-- Function numbers by block. -/
def fnGroup (g : Nat) : Nat := 0x400 + g
def fnEngine : Nat := 0x408
def fnDisp : Nat := 0x409
def fnKernel : Nat := 0x40A
def fnSlate : Nat := 0x410
def fnRecipe (r : Nat) : Nat := 0x440 + r
def fnFlint : Nat := 0x480
def fnTask (k : Nat) : Nat := 0x488 + k
def fnAxis (a : Nat) : Nat := 0x4A0 + a
def fnMGroup (g : Nat) : Nat := 0x4C0 + g
def fnChan (c : Nat) : Nat := 0x500 + c
def fnDi : Nat := 0x540
def fnDo : Nat := 0x541
def fnTrunk (l : Nat) : Nat := 0x548 + l
def fnPort (p : Nat) : Nat := 0x580 + p
def fnStream : Nat := 0x5C0
def fnWin (w : Nat) : Nat := 0x5D0 + w
def fnAgate : Nat := 0x600
def fnTime : Nat := 0x601
def fnRed : Nat := 0x602

/-- The loop island is clocked: base ticks run (R523). -/
def Module.ticking (m : Module) : Bool :=
  match m.stat Ent.pwrState with
  | 0 => true
  | 5 => m.power.ride == .full
  | 1 => m.cfgOn (Ent.gateSleepEn 0)
  | _ => false

/-- CLOCK_FAULT stands (R456). -/
def Module.cfault (m : Module) : Bool := m.stat Ent.clkFault != 0

/-- The current epoch as a wire value (R523). -/
def Module.epochWire (m : Module) : Nat := m.tick.epoch.getD 0xFFFFFFFFFFFFFFFF

/-- The last sample epoch of a group at or before epoch `e` (R13). -/
def sampleEpoch (g e : Nat) : Nat := e - e % divisor g
/-- The group samples at epoch `e`. -/
def samples (g e : Nat) : Bool := e % divisor g == 0
/-- PARITY of a group's word for sample epoch `e` (Table 1.5). -/
def parityOf (g e : Nat) : Bool := bit (e / divisor g) 0

/-! ### Process-image words -/

/-- Bits of the status byte [31:24] (Table 1.5). -/
def sVALID : Nat := 128
def sSTALE : Nat := 64
def sFORCED : Nat := 32
def sSUBST : Nat := 16
def sOVR : Nat := 8
def sUNDR : Nat := 4
def sCOMPL : Nat := 2
def sINTLK : Nat := 1

/-- A word from its status byte, group, parity and value. -/
def mkWord (status g : Nat) (parity : Bool) (v : Q) : Word :=
  BitVec.ofNat 32 (status % 256 * 2 ^ 24 + g % 8 * 2 ^ 21 + b01 parity * 2 ^ 20 + v.toNat)

def wValid (w : Word) : Bool := w.getLsbD 31
def wStale (w : Word) : Bool := w.getLsbD 30
def wForced (w : Word) : Bool := w.getLsbD 29
def wSubst (w : Word) : Bool := w.getLsbD 28
def wOvr (w : Word) : Bool := w.getLsbD 27
def wUndr (w : Word) : Bool := w.getLsbD 26
def wCompl (w : Word) : Bool := w.getLsbD 25
def wIntlk (w : Word) : Bool := w.getLsbD 24
def wStatus (w : Word) : Nat := bits w.toNat 31 24
def wGroup (w : Word) : Nat := bits w.toNat 23 21
def wParity (w : Word) : Bool := w.getLsbD 20
def wValue (w : Word) : Q := w.extractLsb' 0 20
/-- The value as an integer. -/
def wInt (w : Word) : Int := (wValue w).toInt
/-- The status field [31:20] as a tag (R114). -/
def wTag (w : Word) : BitVec 12 := w.extractLsb' 20 12
/-- A word is good: VALID with no STALE. -/
def wGood (w : Word) : Bool := wValid w && !wStale w

/-- What an unwritten word reads as (R513). -/
def dfltWord (_ : Nat) : Word := 0

/-- Read a word of the process image. -/
def Module.word (m : Module) (a : Nat) : Word := Sparse.get dfltWord m.pi a

/-- Channel entries of 8 bytes in a list DOM (R340): the low 32 bits and the high 32 bits of each. -/
def chanEntries (bs : List Byte) : List (Nat × Nat) :=
  (List.range (bs.length / 8)).map fun i => (leAt bs (8 * i) 4, leAt bs (8 * i + 4) 4)

/-- A channel entry names this process-image word. -/
def namesWord (a : Nat) (e : Nat × Nat) : Bool := bits e.1 31 30 == 0 && bits e.1 17 0 == a

/-- A running stream or window copies this word, or triggers on it (R341, R359). -/
def copiesWord (m : Module) (a : Nat) : Bool :=
  (m.active fnStream && (chanEntries (m.cfgB Ent.acqStreamList)).any (namesWord a)) ||
  (List.range 16).any fun w => m.active (fnWin w) &&
    ((chanEntries (m.cfgB (Ent.winList w))).any (namesWord a) ||
      (m.cfg (Ent.winTrigSource w) == 1 && namesWord a (m.cfg (Ent.winTrigSpec w), 0)))

/-- An axis in use that follows a word (R254). -/
def Module.follows (m : Module) (x a : Nat) : Bool := m.active (fnAxis x) && m.cfg (Ent.axisSource x) == 1 && m.cfg (Ent.axisFollowAddr x) == a

/-- A value reaches the axes that follow its word 6 core cycles after it is written (Table 1.3): from cycle 3,994 on, only after the coming instant. -/
def toFollowers (a : Nat) (w : Word) (m : Module) : Module :=
  let late := decide (3994 ≤ m.tick.cycle)
  let up := fun (x : Axis) => if late then { x with followNext := some w } else { x with followWord := some w }
  forL ((List.range 32).filter fun x => m.follows x a) (fun x m =>
    { m with motion := { m.motion with axes := Sparse.mod (fun _ => Axis.init) m.motion.axes x up } }) m

/-- A running output channel takes its value from a word (R275). -/
def Module.drives (m : Module) (c a : Nat) : Bool := m.active (fnChan c) && decide (5 ≤ m.cfg (Ent.chanMode c)) && m.cfg (Ent.chanWord c) == a

/-- An output channel's word has been written with VALID or SUBST since its START (R279). -/
def toChannels (a : Nat) (w : Word) (m : Module) : Module :=
  if wValid w || wSubst w then
    forL ((List.range 64).filter fun c => m.drives c a) (fun c m =>
      { m with io := { m.io with chans := Sparse.mod (fun _ => Chan.init) m.io.chans c (fun x => { x with written := true }) } }) m
  else m

/-- Write a word of the process image; a word that acquisition copies is marked (R341), axes that follow it receive it (R254), and an output channel notes it (R279). A word address is below 2^18. -/
def putWord (a : Nat) (w : Word) (m : Module) : Module :=
  let m := toChannels (a % 2 ^ 18) w <| toFollowers (a % 2 ^ 18) w { m with pi := Sparse.set dfltWord m.pi (a % 2 ^ 18) w }
  if copiesWord m (a % 2 ^ 18) then { m with acq := { m.acq with marks := m.acq.marks ++ [a % 2 ^ 18] } } else m

/-- An address entry names a word: FFFF_FFFFh names none (R112). -/
def isAddr (a : Nat) : Bool := decide (a ≤ 0x3FFFF)

/-! ### Forces -/

/-- The force table: entry number and raw value of each entry not at its default, live copies (R232). -/
def Module.forces (m : Module) : List (Nat × Nat) :=
  m.dict.live.filterMap fun (k, v) =>
    if range 0x3020 0x303F (k / 256) && range 1 32 (k % 256) then some ((k / 256 - 0x3020) * 32 + (k % 256 - 1), v) else none

/-- The forced value of a word, where an enabled force names it. -/
def Module.forceOf (m : Module) (a : Nat) : Option Q :=
  (m.forces.find? fun (_, v) => bit v 18 && bits v 17 0 == a).map fun (_, v) => BitVec.ofNat 20 (v / 2 ^ 44)

/-- The word with the force's value and status; GROUP, PARITY and COMPL as the writer set them (R233). -/
def forced (w : Word) (q : Q) : Word :=
  mkWord (sVALID + sFORCED + (if wCompl w then sCOMPL else 0)) (wGroup w) (wParity w) q

/-- Write a word at a point where a force applies (R233). -/
def putForced (a : Nat) (w : Word) (m : Module) : Module :=
  match m.forceOf a with
  | some q => putWord a (forced w q) m
  | none => putWord a w m

/-- The gather port writes 16 words per cycle from cycle 32 (Table 1.2); what it overwrites is noted until the tick ends. Every such write counts toward 2801h:0A (DEDUCED). A force applies. -/
def portWrite (a : Nat) (w : Word) (m : Module) : Module :=
  let c := 32 + m.tick.old.length / 16
  putForced a w { m with tick := { m.tick with old := m.tick.old ++ [(a, c, m.word a)], gathered := m.tick.gathered + 1, gatherEnd := c } }

/-- A word as it stands at cycle `c`, before the gather port's writes of later cycles. -/
def Module.wordAt (m : Module) (c a : Nat) : Word :=
  match m.tick.old.find? (fun x => x.1 == a && decide (c ≤ x.2.1)) with
  | some x => x.2.2
  | none => m.word a

/-- A word as a strobe at the present cycle reads it. -/
def Module.strobeWord (m : Module) (a : Nat) : Word := m.wordAt m.tick.cycle a

/-- The gather port writes a captured word where its source has an address. -/
def gatherWord (a : Nat) (w : Word) (m : Module) : Module :=
  if isAddr a then portWrite a w m else m

/-! ### Events -/

/-- FLAGS [0], [1] and [2] of a record (Table 12.1). -/
def notLocked (m : Module) : Nat := if m.time.st == .locked || m.time.st == .master then 0 else 4

/-- The member computes from the holder's mirror: a standby in lockstep (R424), or a joining member from its first join on (R445). -/
def Module.standby (m : Module) : Bool := (m.red.st == 2 || m.red.st == 3 || (m.red.st == 1 && !m.red.joined.isEmpty)) && !m.red.hold

/-- Sources that belong to a member's own hardware (R431): banks, platform control, time unit, redundancy unit, and the software sources. -/
def ownHardware (source : Nat) : Bool :=
  range 0x550 0x557 source || source == 0xF00 || source == 0x601 || source == 0x602 || range 0xE00 0xE03 source

/-- Raise an event stamped at a time: it waits for the cycle's admission (R378). -/
def raiseAt (t : T80) (source code flags : Nat) (body : List Byte) (m : Module) : Module :=
  { m with agate := { m.agate with raised := m.agate.raised ++ [⟨source, code, flags + notLocked m, t, m.tick.epoch, padTo 28 body⟩] } }

/-- Raise a hardware event stamped now (R375). -/
def raise (source code : Nat) (body : List Byte) (m : Module) : Module := raiseAt m.now source code 0 body m

/-- Post a software event (R376). -/
def post (source code : Nat) (body : List Byte) (m : Module) : Module := raiseAt m.now source code 1 body m

/-- Hardware sources before software sources, then ascending source, then ascending code (R378). -/
def Event.rank (e : Event) : Nat := (if range 0xE00 0xE03 e.source then 2 ^ 32 else 0) + e.source * 2 ^ 16 + e.code

/-- Put an event in its place among those of the cycle, after its equals. -/
def insertEvent (e : Event) : List Event → List Event
  | [] => [e]
  | x :: l => if e.rank < x.rank then e :: x :: l else x :: insertEvent e l

/-- The events of a cycle in order of admission. -/
def sortEvents (l : List Event) : List Event := l.foldl (fun acc e => insertEvent e acc) []

/-- The queue's capacity (R378) and the number of repeat windows (R382). -/
def queueCap : Nat := 4096
def windowCap : Nat := 256

/-- Two events are alike (R381). -/
def alike (a b : Event) : Bool :=
  a.source == b.source && a.code == b.code && bit a.flags 0 == bit b.flags 0 && a.body == b.body

/-- A record takes the next SEQ and the queue's last place. -/
def pushRec (rep : Nat) (e : Event) (m : Module) : Module :=
  let q := m.agate.queue ++ [Rec.mk m.agate.nextSeq rep e false]
  ({ m with agate := { m.agate with queue := q, nextSeq := (m.agate.nextSeq + 1) % 2 ^ 32 } }).peak Ent.agateQueuePeak q.length

/-- Event 0C06h for a run of drops: stamped at the first drop (R379). -/
def overflowEvent (first : Event) (n : Nat) : Event :=
  ⟨fnAgate, 0x0C06, Nat.land first.flags 4, first.time, first.epoch, padTo 28 (leBytes 4 n)⟩

/-- After drops, 0C06h goes ahead of the first admission for which there is space (R379). -/
def flushDrops (m : Module) : Module :=
  match m.agate.dropRun with
  | some (first, n) =>
    if m.agate.queue.length < queueCap then
      pushRec 0 (overflowEvent first n) { m with agate := { m.agate with dropRun := none } }
    else m
  | none => m

/-- An event that finds the queue full is dropped and counted (R379). -/
def dropEvent (e : Event) (m : Module) : Module :=
  let run := match m.agate.dropRun with
    | some (first, n) => (first, n + 1)
    | none => (e, 1)
  ({ m with agate := { m.agate with dropRun := some run } }).bump Ent.agateQueueOverflow

/-- Put a record into the queue with the next SEQ; a full queue drops it (R379). -/
def enqueue (rep : Nat) (e : Event) (m : Module) : Module :=
  let m := flushDrops m
  if m.agate.queue.length < queueCap then pushRec rep e m else dropEvent e m

/-- Close a repeat window: its closing record where an occurrence was folded (R381). -/
def closeWindow (w : RepWin) (m : Module) : Module :=
  let m := { m with agate := { m.agate with windows := m.agate.windows.filter (fun x => x != w) } }
  if w.folded = 0 then m else enqueue (min w.folded 65535) w.lastEv m

/-- Write an event as an opening record, and open a window for it where one is free (R381, R382). -/
def openRecord (e : Event) (m : Module) : Module :=
  let m := enqueue 0 e m
  if m.cfg Ent.agateRepeatWindow = 0 then m
  else if m.agate.windows.length < windowCap then
    { m with agate := { m.agate with windows := m.agate.windows ++ [⟨e, e, 0, m.cfg Ent.agateRepeatWindow⟩] } }
  else m.bump Ent.agateRepeatTableFull

/-- The window's length has run at a time (R381). -/
def windowRun (w : RepWin) (t : T80) : Bool := decide (w.opening.time.toNs + w.len * 1000000 < t.toNs)

/-- Admit one event: fold it, or write it (R378 to R382). -/
def admitEvent (e : Event) (m : Module) : Module :=
  match m.agate.windows.find? (fun w => w.opening.source == e.source && w.opening.code == e.code) with
  | none => openRecord e m
  | some w =>
    if alike w.opening e && !windowRun w e.time && m.cfg Ent.agateRepeatWindow != 0 then
      ({ m with agate := { m.agate with windows := mapFirst (fun x => x == w) (fun x => { x with lastEv := e, folded := x.folded + 1 }) m.agate.windows } }).bump Ent.agateFolded
    else openRecord e (closeWindow w m)

/-- Hand a frame to the Itpel link with the next SEQ, and keep it for a resend (R422). A link that is not UP carries none. -/
def sendItpel (epoch : Nat) (body : ItBody) (m : Module) : Module :=
  if m.red.link = 2 then
    let f : ItFrame := ⟨false, (m.red.txSeq + 1) % 2 ^ 16, epoch, body⟩
    { m with out := m.out ++ [.itpel f], red := { m.red with txSeq := f.seq, replay := m.red.replay ++ [(f, 0)] } }
  else m

/-- VERIFY or SYNCHRONISED (R424). -/
def Module.lockstep (m : Module) : Bool := m.red.st == 2 || m.red.st == 3

/-- `red.state`: lockstep with TOKEN_WIRING standing reports DEGRADED (Table 14.1, Table 14.9). -/
def Module.redState (m : Module) : Nat := if m.lockstep && m.red.wiring then 5 else m.red.st

/-- The holder tells its standby an outcome that depends on timing (R428). -/
def sendDecision (epoch : Nat) (d : Decision) (m : Module) : Module :=
  if m.lockstep && m.red.hold then sendItpel epoch (.decision d) m else m

/-- A decision of the holder for an epoch, as the standby has received it. -/
def Module.decided (m : Module) (epoch : Nat) (p : Decision → Bool) : Bool :=
  m.standby && m.red.decisions.any fun x => x.1 == epoch && p x.2

/-- Bytes 14 to 19 and 22 to 57 of an event's record, for the record digest (Table 14.7). -/
def digestBytes (e : Event) : List Byte :=
  leBytes 2 e.source ++ leBytes 2 e.code ++ leBytes 2 0 ++ leBytes 8 (e.epoch.getD 0xFFFFFFFFFFFFFFFF) ++ padTo 28 e.body

/-- In lockstep, a record that the computation raises goes into the record digest of its epoch (Table 14.7). -/
def noteRaised (e : Event) (m : Module) : Module :=
  match e.epoch with
  | some k =>
    if m.lockstep && !bit e.flags 0 && !ownHardware e.source then
      { m with red := { m.red with recBytes := Sparse.mod (fun _ => []) m.red.recBytes k (fun b => b ++ digestBytes e) } }
    else m
  | none => m

/-- Take one raised event: a standby in lockstep sends its own hardware's events to the holder and keeps none (R431). -/
def takeEvent (e : Event) (m : Module) : Module :=
  let m := noteRaised e m
  if m.standby then
    (if ownHardware e.source then sendItpel m.epochWire (.event e) m else m)
  else admitEvent e m

/-- Admit the events raised in the cycle, in the order of R378. -/
def settle (m : Module) : Module :=
  let l := sortEvents m.agate.raised
  forL l takeEvent { m with agate := { m.agate with raised := [] } }

/-- A command that may raise events. -/
def State.runE (s : State) (f : Module → Module) : Host.Outcome State Fault Refusal := s.run (fun m => settle (f m))

/-- A command that may raise events and reads the fuses. -/
def State.runFE (s : State) (f : Fuses → Module → Module) : Host.Outcome State Fault Refusal :=
  s.runF (fun z m => settle (f z m))

/-- Hand something to a link or pin. -/
def emit (o : Out) (m : Module) : Module := { m with out := m.out ++ [o] }

end Sys2Proof.Machine
end

