-- ==== Sys2Proof/Machine/Loop.lean ====
section
/-! DEFINITION. Loop slots: slot memory and its cells (R82 to R84), characteristic tables (R86, R87), the control law's arithmetic (R92, R99, R103), what a slot's period begins with, and the overrun actions (R105 to R107). -/

namespace Sys2Proof.Machine

/-! ### Slot memory -/

/-- Physical address of a byte of a slot: bank n mod 16, bank offset 512 × ⌊n / 16⌋ (R82); offsets are taken mod 512 (R116). -/
def slotAddr (n off : Nat) : Nat := n % 16 * 32768 + 512 * (n / 16) + off % 512

/-- Unwritten loop memory reads 00h. -/
def dfltByte (_ : Nat) : Byte := 0

/-- One byte of a slot. -/
def Module.memB (m : Module) (n off : Nat) : Byte := Sparse.get dfltByte m.loop.mem (slotAddr n off)

/-- `len` bytes of a slot, least significant first. -/
def Module.memN (m : Module) (n off : Nat) : Nat → Nat
  | 0 => 0
  | len + 1 => (m.memB n off).toNat + 256 * m.memN n (off + 1) len

/-- Write the low `len` bytes of a number. -/
def setMem (n off : Nat) : Nat → Nat → Module → Module
  | 0, _, m => m
  | len + 1, v, m =>
    setMem n (off + 1) len (v / 256)
      { m with loop := { m.loop with mem := Sparse.set dfltByte m.loop.mem (slotAddr n off) (BitVec.ofNat 8 v) } }

/-- A value cell as an integer (R82). -/
def Module.cellQ (m : Module) (n off : Nat) : Int := sint 20 (m.memN n off 3)
/-- A state cell. -/
def Module.cell40 (m : Module) (n off : Nat) : Int := sint 40 (m.memN n off 5)
/-- An integrator cell. -/
def Module.cell48 (m : Module) (n off : Nat) : Int := sint 48 (m.memN n off 6)
/-- The code of a value cell: [23:20] repeat bit 19. -/
def valueCode (v : Int) : Nat := uint 24 (sint 20 (uint 20 v))
/-- The code of an address cell; none is FF_FFFFh. -/
def addrCode (a : Nat) : Nat := if isAddr a then a else 0xFFFFFF
/-- The word an address cell names. -/
def Module.cellAddr (m : Module) (n off : Nat) : Option Nat :=
  let a := m.memN n off 3
  if a = 0xFFFFFF then none else some (a % 2 ^ 18)
def setCellQ (n off : Nat) (v : Int) (m : Module) : Module := setMem n off 3 (valueCode v) m

/-- The base of a coefficient set (R115). -/
def setBase (set : Nat) : Nat := if set = 0 then 0x060 else 0x0F0
/-- The active set of a slot (cell 04Bh). -/
def Module.activeSet (m : Module) (n : Nat) : Nat := (m.memB n 0x4B).toNat % 2

/-- The 45 coefficients of a set in the order of Table 3.2, from the entries that start at two subs. -/
def startCoeffs (m : Module) (n : Nat) : List Int :=
  (List.range 5).map (fun i => m.cfgQ (keyOf (0x2000 + n) (5 + i))) ++
    (List.range 40).map (fun i => m.cfgQ (keyOf (0x2000 + n) (0x30 + i)))

/-- Write a whole coefficient set. -/
def setCoeffs (n base : Nat) (cs : List Int) (m : Module) : Module :=
  (List.range 45).foldl (fun m i => setCellQ n (base + 3 * i) (cs.getD i 0) m) m

/-- Configuration cells of a slot that hold one byte or more of one entry: offset, bytes, value (Table 3.1). -/
def configCells (m : Module) (n : Nat) : List (Nat × Nat × Nat) :=
  let e := fun sub => m.cfg (keyOf (0x2000 + n) sub)
  let q := fun sub => valueCode (m.cfgQ (keyOf (0x2000 + n) sub))
  [(0x00, 2, e 4), (0x02, 1, e 3), (0x03, 1, e 1), (0x04, 2, e 2),
   (0x08, 3, addrCode (e 0x0A)), (0x0B, 3, addrCode (e 0x0B)), (0x0E, 3, addrCode (e 0x12)), (0x11, 3, addrCode (e 0x13)),
   (0x14, 3, addrCode (e 0x14)), (0x17, 3, addrCode (e 0x15)), (0x1A, 3, addrCode (e 0x16)), (0x1D, 3, addrCode (e 0x17)),
   (0x20, 1, e 0x0C), (0x21, 1, e 0x0D), (0x22, 1, e 0x0E), (0x23, 1, e 0x22 % 16 * 16 + e 0x23 % 16),
   (0x24, 3, q 0x0F), (0x27, 3, q 0x10), (0x2A, 3, q 0x11), (0x2D, 3, q 0x18), (0x30, 3, q 0x19), (0x33, 3, q 0x1A),
   (0x36, 3, q 0x1B), (0x39, 3, q 0x1C), (0x3C, 3, q 0x1D), (0x3F, 3, q 0x1E), (0x42, 3, q 0x1F), (0x45, 3, q 0x20),
   (0x48, 2, e 0x21), (0x4A, 1, e 0x25 % 16 * 16 + e 0x24 % 16), (0x4C, 2, e 0x26)]

/-- Write a list of cells. -/
def setCells (n : Nat) (cs : List (Nat × Nat × Nat)) (m : Module) : Module :=
  cs.foldl (fun m c => setMem n c.1 c.2.1 c.2.2 m) m

/-- Status flag FIRST and the others by bit (Table 3.6). -/
def flFIRST : Nat := 0x8000
def flTRACKBAD : Nat := 0x4000
def flPV2 : Nat := 0x2000
def flARITH : Nat := 0x1000
def flESAT : Nat := 0x0800
def flREQHELD : Nat := 0x0400
def flOVERRUN : Nat := 0x0200
def flHELD : Nat := 0x0100
def flOVERRIDDEN : Nat := 0x0080
def flFE : Nat := 0x0040
def flFFBAD : Nat := 0x0020
def flSPBAD : Nat := 0x0010
def flPVRANGE : Nat := 0x0008
def flPVBAD : Nat := 0x0004
def flSATLO : Nat := 0x0002
def flSATHI : Nat := 0x0001

/-- The flag `f` when a condition stands. -/
def flagIf (c : Bool) (f : Nat) : Nat := if c then f else 0

/-! ### Periods -/

def Module.slotRun (m : Module) (k : Nat) : SlotRun := Sparse.get (fun _ => SlotRun.init) m.loop.runs k
def modSlotRun (k : Nat) (f : SlotRun → SlotRun) (m : Module) : Module :=
  { m with loop := { m.loop with runs := Sparse.mod (fun _ => SlotRun.init) m.loop.runs k f } }

/-- Where the period of a slot and epoch is kept: the newest at n, an older one still running at 1,024 + n. -/
def Module.runKey (m : Module) (n epoch : Nat) : Nat := if (m.slotRun n).epoch = some epoch then n else 1024 + n

/-- The rate group a slot runs in: the live one, or the shadow one while STOPPED (R81). -/
def Module.slotGroup (m : Module) (n : Nat) : Nat :=
  (if m.stopped n then m.shad (Ent.loopGroup n) else m.cfg (Ent.loopGroup n)) % 8

/-- Slots that are STARTING, RUNNING or STOPPING, in ascending order. -/
def Module.upSlots (m : Module) : List Nat := (m.funcs.filter fun e => decide (e.1 < 1024) && e.2.st != .stopped).map Prod.fst
/-- RUNNING slots. -/
def Module.runSlots (m : Module) : List Nat := (m.funcs.filter fun e => decide (e.1 < 1024) && e.2.st == .running).map Prod.fst

/-- START of a slot takes effect (R84): the whole slot memory is written in one step. -/
def slotStart (n : Nat) (m : Module) : Module :=
  let m := { m with loop := { m.loop with mem := m.loop.mem.filter fun e => !(slotAddr n 0 ≤ e.1 && e.1 < slotAddr n 0 + 512) } }
  let m := setCells n (configCells m n) m
  let m := setCoeffs n 0x060 (startCoeffs m n) m
  let m := setCoeffs n 0x0F0 (startCoeffs m n) m
  let m := setCellQ n 0x4E (sint 20 (m.shad (Ent.loopSp n))) m
  let m := setCellQ n 0x51 (sint 20 (m.shad (Ent.loopManOut n))) m
  let m := setMem n 0x54 1 (m.cfg (Ent.loopStartMode n)) m
  let m := setMem n 0x1F0 2 flFIRST m
  let m := m.setBoth (Ent.loopModeReq n) (m.cfg (Ent.loopStartMode n))
  let m := (m.setStat (Ent.loopSwaps n) 0).setStat (Ent.loopLastSwap n) 0
  let m := { m with loop := { m.loop with runs := Sparse.erase (Sparse.erase m.loop.runs n) (1024 + n) } }
  modSlotRun n (fun r => { r with first := true }) m

/-- The cell of the inactive set that a next-set entry addresses (R102). -/
def nextCell (m : Module) (n sub : Nat) : Nat :=
  let base := setBase (1 - m.activeSet n)
  if sub < 0x70 then base + 3 * (sub - 0x64) else base + 0x0F + 3 * (sub - 0x70)

/-- A next-set entry of a slot (Table 3.12). -/
def isNextSub (sub : Nat) : Bool := range 0x64 0x68 sub || range 0x70 0x97 sub

/-- A next-set write takes effect: into the set inactive before the swap (R102). -/
def slotNextWrite (n sub v : Nat) (m : Module) : Module := setCellQ n (nextCell m n sub) (sint 20 v) m

/-- A swap takes effect (R102, R103): the sets are exchanged, counted, and the epoch recorded. -/
def slotSwap (n : Nat) (m : Module) : Module :=
  let m := setMem n 0x4B 1 (1 - m.activeSet n) m
  let m := setMem n 0x55 1 0 m
  let m := (m.bump (Ent.loopSwaps n)).setStat (Ent.loopLastSwap n) m.epochWire
  let m := m.bump Ent.engineSwaps
  modSlotRun n (fun r => { r with swapped := true }) m

/-- A mode request takes effect at the slot's sample instant (R98). -/
def slotModeWrite (n v : Nat) (m : Module) : Module := modSlotRun n (fun r => { r with modeReq := true }) (setMem n 0x54 1 v m)
/-- A manual-output write takes effect (R101). -/
def slotManWrite (n v : Nat) (m : Module) : Module := modSlotRun n (fun r => { r with manWrite := true }) (setCellQ n 0x51 (sint 20 v) m)
/-- A local-setpoint write takes effect. -/
def slotSpWrite (n v : Nat) (m : Module) : Module := setCellQ n 0x4E (sint 20 v) m

/-- An operation of a slot and epoch is held or run by a lane. -/
def Module.laneHas (m : Module) (n epoch : Nat) : Bool :=
  m.lanes.any fun e =>
    (match e.2.op with | some c => c.slot == some n && c.epoch == epoch | none => false) ||
    (match e.2.prefetch with | some c => c.slot == some n && c.epoch == epoch | none => false)

/-- A slot's period begins at a sample instant: an unfinished computation of the last period keeps its record (R106). -/
def slotBegin (n epoch : Nat) (m : Module) : Module :=
  let old := m.slotRun n
  let keep := match old.epoch with | some e => !old.ended && m.laneHas n e | none => false
  let m := if keep then modSlotRun (1024 + n) (fun _ => old) m else m
  let inner := m.cfg (Ent.loopCasInner n)
  let innerCas := decide (inner < 1024) && m.running inner && (m.memB inner 6).toNat == 2
  modSlotRun n (fun _ => { SlotRun.init with
    epoch := some epoch, innerCas := innerCas, first := old.first && old.epoch.isNone, wasHeld := old.wasHeld }) m

/-- The local setpoint, manual output and requested mode that a period uses: as they stand at its sample instant, its writes made (R91). -/
def slotLatch (n : Nat) (m : Module) : Module :=
  modSlotRun n (fun r => { r with sp0 := m.cellQ n 0x4E, man0 := m.cellQ n 0x51, req0 := m.memN n 0x54 1 }) m

/-! ### Arithmetic of the law -/

/-- A clamp; a range whose limits are crossed leaves the result open (`Config.clampCrossed`), kept to 20 bits. -/
def clampI (v lo hi : Int) : Int := if lo ≤ hi then max lo (min v hi) else satInt 20 (Config.clampCrossed v lo hi)

/-- Truncation of a Q3.36 or Q11.36 quantity to Q0.19, toward −∞ (R86, R121). -/
def trunc17 (v : Int) : Int := v / 2 ^ 17
/-- q(): truncation, then saturation. -/
def qTrunc (v : Int) : Int := satInt 20 (trunc17 v)
/-- A saturation acts at `n` bits. -/
def satActs (n : Nat) (v : Int) : Bool := satInt n v != v

/-- kn × d_prev by D-high then D-low (R122). -/
def kdTerm (kn d : Int) : Int := kn * (d / 2 ^ 20) * 8 + kn * (d % 2 ^ 20) / 2 ^ 17

/-- Interpolation in a table of 33 points (R87). -/
def interpolate (p : List Int) (x : Int) : Int :=
  let u := (x + 524288).toNat
  let k := u / 32768
  let f : Int := ((u % 32768 : Nat) : Int)
  let a := p.getD k 0
  satInt 20 (a + (p.getD (k + 1) 0 - a) * f / 2 ^ 15)

/-- Interpolation saturates. -/
def interpSat (p : List Int) (x : Int) : Bool :=
  let u := (x + 524288).toNat
  let k := u / 32768
  let f : Int := ((u % 32768 : Nat) : Int)
  let a := p.getD k 0
  satActs 20 (a + (p.getD (k + 1) 0 - a) * f / 2 ^ 15)

/-- The live points of a characteristic table. -/
def Module.livePts (m : Module) (t : Nat) : List Nat := (List.range 33).map fun i => m.cfg (Ent.chartabP t i)

/-- The points current at a sample instant (R87). -/
def Module.tablePts (m : Module) (t epoch : Nat) : List Int :=
  let pts := match m.loop.tabOld.find? (fun x => x.1 == t && decide (epoch < x.2.1)) with
    | some x => x.2.2
    | none => m.livePts t
  pts.map (sint 20)

/-- Integer square root of a non-negative number, by bits from the top (R86). -/
def isqrtBits : Nat → Nat → Nat → Nat
  | 0, _, r => r
  | b + 1, v, r => if (r + 2 ^ b) * (r + 2 ^ b) ≤ v then isqrtBits b v (r + 2 ^ b) else isqrtBits b v r

/-- ⌊√v⌋ for v below 2^40. -/
def isqrt (v : Nat) : Nat := isqrtBits 20 v 0

/-- The root of the SQRT characteristic and instruction: 0 at or below the cutoff (Table 3.4, Table 4.8). -/
def rootChar (x cutoff : Int) : Int :=
  if x ≤ cutoff then 0 else if x < 0 then satInt 20 (Config.sqrtNegative x) else (isqrt (x.toNat * 2 ^ 19) : Int)

/-- A value through a characteristic: result and whether a saturation acted (R86). -/
def characteristic (kind : Nat) (gain offset cutoff : Int) (pts : List Int) (x : Int) : Int × Bool :=
  if kind = 0 then (x, false)
  else
    let c := if kind = 2 then rootChar x cutoff else if kind = 3 then interpolate pts x else x
    let s := decide (kind = 3) && interpSat pts x
    let v := trunc17 (gain * c + offset * 2 ^ 17)
    (satInt 20 v, s || satActs 20 v)

/-! ### Load and slack of a group (Table 1.6) -/

/-- Lane-cycles are spent on a group's operation. -/
def addLoad (g n : Nat) (m : Module) : Module :=
  { m with loop := { m.loop with load := Sparse.mod (fun _ => 0) m.loop.load g (fun x => x + n) } }

/-- At a group's sample instant the load of the last period shows. -/
def closeLoad (g : Nat) (m : Module) : Module :=
  let m := m.setStat (Ent.groupLaneLoad g) (min (2 ^ 32 - 1) (Sparse.get (fun _ => 0) m.loop.load g))
  { m with loop := { m.loop with load := Sparse.erase m.loop.load g } }

/-- A result became final, or too late, in a cycle from the sample instant. -/
def noteFinish (g at_ : Nat) (m : Module) : Module :=
  let s : Int := (m.cfg (Ent.groupPhase g) : Int) - 81 - at_
  let x := match Sparse.get (fun _ => (none : Option Int)) m.loop.slack g with | some o => min o s | none => s
  ({ m with loop := { m.loop with slack := Sparse.set (fun _ => none) m.loop.slack g (some x) } }).setStatI (Ent.groupMinSlack g) 32 x

/-! ### Overruns -/

/-- Bytes 30 to 42 of a slot's event (R109). -/
def slotBody (m : Module) (n : Nat) : List Byte :=
  leBytes 1 (m.memN n 6 1) ++ leBytes 1 (m.memN n 7 1) ++ leBytes 2 (m.memN n 0x1F0 2) ++ leBytes 3 (m.memN n 0x191 3) ++
    leBytes 3 (m.memN n 0x19A 3) ++ leBytes 3 (m.memN n 0x194 3)

/-- Raise an event whose epoch field is that of a sample instant (R109). -/
def raiseEpoch (epoch source code : Nat) (body : List Byte) (m : Module) : Module :=
  { m with agate := { m.agate with
      raised := m.agate.raised ++ [⟨source, code, notLocked m, m.now, some epoch, padTo 28 body⟩] } }

/-- A slot's consecutive-overrun count has reached the group's limit: the action falls due at the group's next sample instant (R107). -/
def overrunReach (n : Nat) (m : Module) : Module :=
  let g := m.cfg (Ent.loopGroup n) % 8
  if m.active n && decide (m.cfg (Ent.groupOverrunLimit g) ≤ m.memN n 0x1F2 1) && !decide (m.memN n 0x1F2 1 = 0) &&
      m.stat (Ent.groupOverrunActive g) == 0 && !(m.loop.overDue.any fun d => d.1 == g) then
    { m with loop := { m.loop with overDue := m.loop.overDue ++ [(g, n)] } }
  else m

/-- OVERRUN_ACTION (R107). -/
def execOverrunAction (n : Fin 1024) (s : State) : Host.Outcome State Fault Refusal := s.run (overrunReach n)

/-- The overrun action that fell due applies at the group's sample instant (R107). -/
def overrunApply (g epoch : Nat) (m : Module) : Module :=
  match m.loop.overDue.find? (fun d => d.1 == g) with
  | none => m
  | some (_, n) =>
    let m := { m with loop := { m.loop with overDue := m.loop.overDue.filter fun d => d.1 != g } }
    let m := (m.setStat (Ent.groupOverrunActive g) 1).bump (Ent.groupOverrunEvents g)
    let m := raiseEpoch epoch (fnGroup g) 0x0308 (slotBody m n ++ leBytes 2 n) m
    if m.cfg (Ent.groupOverrunAction g) = 1 then
      forL (m.runSlots.filter fun k => m.cfg (Ent.loopGroup k) % 8 == g && m.cfg (Ent.loopKernel k) == 0)
        (fun k m => setMem k 7 1 (Nat.lor (m.memN k 7 1) 0x10) m) m
    else m

/-- A write of `group[g].overrun_clear` takes effect (R107). -/
def overrunClear (g epoch : Nat) (m : Module) : Module :=
  if m.stat (Ent.groupOverrunActive g) = 0 then m
  else raiseEpoch epoch (fnGroup g) 0x0309 [] (m.setStat (Ent.groupOverrunActive g) 0)

/-- A final or late result of a slot at its strobe: the overrun counts (R106). -/
def overrunCount (n : Nat) (m : Module) : Module :=
  let m := setMem n 0x1F2 1 (min 255 (m.memN n 0x1F2 1 + 1)) m
  let m := setMem n 0x1F5 4 (min (2 ^ 32 - 1) (m.memN n 0x1F5 4 + 1)) m
  let m := if m.cfg (Ent.loopKernel n) = 0 then setMem n 0x1F0 2 (Nat.lor (m.memN n 0x1F0 2) flOVERRUN) m else m
  overrunReach n (m.bump Ent.engineOverruns)

/-- Write the status cells staged by a period, and post its events (R96, R108). `late` leaves cell 19Ah as it is. -/
def slotStatus (n key : Nat) (late : Bool) (m : Module) : Module :=
  let r := m.slotRun key
  let held := m.memN n 0x1F0 2
  let cells := r.status.map fun c =>
    if c.1 = 0x1F0 ∧ late then (c.1, c.2.1, Nat.lor (c.2.2) (Nat.land held flOVERRUN)) else c
  let m := setCells n (if late then cells.filter fun c => c.1 != 0x19A else cells) m
  let m := modSlotRun key (fun r => { r with status := [], codes := [] }) m
  forL r.codes (fun c m => raiseEpoch (r.epoch.getD 0) n c (slotBody m n) m) m

/-- A following error has stood for its time: FE_ALARM and the action (R105), where the period's own computation has not staged it. -/
def feReach (n : Nat) (m : Module) : Module :=
  let r := m.slotRun n
  let mode := m.memN n 6 1
  let fl := m.memN n 0x1F0 2
  if m.active n && m.cfg (Ent.loopKernel n) == 0 && r.epoch.isSome && (mode == 1 || mode == 2) &&
      decide (0 < m.cfgQ (Ent.loopFeLimit n)) && decide (m.cfg (Ent.loopFeTime n) ≤ m.memN n 0x1F3 2) &&
      !bit fl 6 && !(r.codes.contains 0x0303) then
    let act := m.cfg (Ent.loopFeAction n)
    let lat := Nat.lor (m.memN n 7 1) (if act = 1 then 4 else if act = 2 then 8 else 0)
    let m := setMem n 0x1F0 2 (Nat.lor fl flFE) m
    let m := setMem n 7 1 lat m
    raiseEpoch (r.epoch.getD 0) n 0x0303 (slotBody m n) m
  else m

/-- FE_ALARM (R105). -/
def execFeAlarm (n : Fin 1024) (s : State) : Host.Outcome State Fault Refusal := s.runE (feReach n)

end Sys2Proof.Machine
end

