-- ==== Sys2Proof/Machine/Acq.lean ====
section
/-! DEFINITION. Acquisition (chapter 11): the copy (R341 to R343), blocks and their coding (R350, R351), the stream (R348 to R353), trigger windows (R355 to R365) and captures (R368). -/

namespace Sys2Proof.Machine

/-! ### Channels -/

/-- A channel entry names a loop variable: variable and slot (R340). -/
def chanVar (e : Nat) : Option (Nat × Nat) := if bits e 31 30 = 1 then some (bits e 11 10, bits e 9 0) else none

/-- The key of a channel: a word address, or 2^18 + variable × 1,024 + slot. -/
def chanKey (e : Nat) : Nat := match chanVar e with | some (v, n) => 2 ^ 18 + v * 1024 + n | none => bits e 17 0

/-- The rate group of a channel's source (R340). -/
def chanGroup (m : Module) (e : Nat) : Nat := match chanVar e with | some (_, n) => m.slotGroup n | none => wGroup (m.word (bits e 17 0))

/-- The value of a loop variable as its cells hold it (R340, R342). -/
def tapValue (m : Module) (v n : Nat) (out : Word) (g : Nat) (p : Bool) : Word :=
  let fl := m.memN n 0x1F0 2
  match v with
  | 0 =>
    let x := m.cellQ n 0x191
    let st := (if bit fl 2 then 0 else sVALID) + (if bit fl 3 then (if x < 0 then sUNDR else sOVR) else 0)
    mkWord st g p (BitVec.ofInt 20 x)
  | 1 => mkWord sVALID g p (BitVec.ofInt 20 (m.cellQ n 0x18E))
  | 2 => mkWord (wStatus out) g p (wValue out)
  | _ => mkWord sVALID g p (BitVec.ofInt 20 (m.cellQ n 0x197))

/-- A channel as it stands, with STALE added (R343). -/
def standing (m : Module) (e : Nat) : Sample :=
  let w := match chanVar e with
    | some (v, n) =>
      let g := m.slotGroup n
      tapValue m v n (m.word (m.cfg (Ent.loopOutAddr n) % 2 ^ 18)) g false
    | none => m.word (bits e 17 0)
  w ||| BitVec.ofNat 32 (sSTALE * 2 ^ 24)

def Module.win (m : Module) (w : Nat) : Win := Sparse.get (fun _ => Win.init) m.acq.wins w
def modWin (w : Nat) (f : Win → Win) (m : Module) : Module :=
  { m with acq := { m.acq with wins := Sparse.mod (fun _ => Win.init) m.acq.wins w f } }

/-- The channels of a window or of the stream. -/
def winChans (m : Module) (w : Nat) : List (Nat × Nat) := chanEntries (m.cfgB (Ent.winList w))
def streamChans (m : Module) : List (Nat × Nat) := chanEntries (m.cfgB Ent.acqStreamList)

/-! ### Blocks -/

/-- The sample bits of a raw value, and of a delta (R351), least significant first. -/
def putBits (n v : Nat) : List Bool := (List.range n).map (bit v)

def zigzag (v ref : Q) : Nat :=
  let d := sint 20 (uint 20 (v.toInt - ref.toInt))
  let u := uint 20 (d * 2)
  Nat.xor u (if d < 0 then 0xFFFFF else 0)

def deltaBits (v ref : Q) : List Bool :=
  let z := zigzag v ref
  if z < 16 then putBits 1 0 ++ putBits 4 z
  else if z < 256 then putBits 2 1 ++ putBits 8 z
  else if z < 4096 then putBits 3 3 ++ putBits 12 z
  else putBits 3 7 ++ putBits 20 z

/-- Bits into bytes, least significant first, with spare bits 0 (R350). -/
def packBits (bs : List Bool) : List Byte :=
  (List.range ((bs.length + 7) / 8)).map fun i =>
    BitVec.ofNat 8 (((bs.drop (8 * i)).take 8).zipIdx.foldl (fun a x => a + (if x.1 then 2 ^ x.2 else 0)) 0)

/-- The bytes of a block (Table 11.3). -/
def blockBytes (b : Block) : List Byte :=
  let ex := b.samples.zipIdx.filter fun s => wStatus s.1 != 0x80
  let raw := packBits (b.samples.flatMap fun s => putBits 20 (wValue s).toNat)
  let del := packBits ((b.samples.zip b.refs).flatMap fun s => deltaBits (wValue s.1) s.2)
  let useDelta := b.packing == 1 && decide (del.length < raw.length) && b.refs.length == b.samples.length
  leBytes 8 b.epoch ++ leBytes 2 b.first ++ leBytes 2 b.samples.length ++ leBytes 1 (b01 useDelta) ++ leBytes 1 b.group ++
    leBytes 2 ex.length ++ (ex.flatMap fun s => leBytes 2 s.2 ++ leBytes 1 (wStatus s.1) ++ leBytes 1 0) ++ (if useDelta then del else raw)

/-- The bytes of a staged block: a gap block carries the last epoch lost (R353). -/
def stagedBytes (b : Block) : List Byte :=
  if b.group = 255 then
    leBytes 8 b.epoch ++ leBytes 2 0 ++ leBytes 2 0 ++ leBytes 1 0 ++ leBytes 1 255 ++ leBytes 8 b.first
  else blockBytes b

/-- The bytes a block takes raw. -/
def rawBytes (b : Block) : Nat := (blockBytes { b with packing := 0 }).length

/-- The blocks of a capture as exported: each channel's reference is its previous sample in the capture (R351). -/
def captureBlocks : Option (List Q) → List Block → List Block
  | _, [] => []
  | prev, b :: bs =>
    { b with refs := match prev with | some r => r | none => [] } :: captureBlocks (some (b.samples.map wValue)) bs

def captureBytes (bs : List Block) : List Byte := (captureBlocks none bs).flatMap blockBytes

/-! ### Events -/

/-- Payload of an acquisition event (R371). -/
def acqBody (win slot flags a b : Nat) : List Byte := leBytes 1 win ++ leBytes 1 slot ++ leBytes 1 flags ++ leBytes 4 a ++ leBytes 4 b

/-! ### Triggers -/

/-- A slot of a window is free: it holds no finished capture. -/
def slotFree (x : Win) (s : Nat) : Bool := (Sparse.get (fun _ => (none : Option Finished)) x.slots s).isNone

/-- An EXPORT transfer holds a capture (R79, R363). -/
def captureHeld (m : Module) (w s : Nat) : Bool := m.odp.exports.any fun e => e.kind == 0x20 && e.inst == w * 256 + s

/-- The slot a window arms: a free one, or with full policy 1 that of its oldest capture that no EXPORT holds (R363). -/
def armSlot (m : Module) (w : Nat) : Option Nat :=
  let x := m.win w
  let n := m.cfg (Ent.winSlots w)
  match (List.range n).find? (slotFree x) with
  | some s => some s
  | none =>
    if m.cfg (Ent.winFullPolicy w) = 1 then
      let c := (List.range n).filter fun s => !captureHeld m w s
      let num : Nat → Nat := fun s => match Sparse.get (fun _ => (none : Option Finished)) x.slots s with | some f => f.number | none => 0
      c.foldl (fun (best : Option Nat) s => match best with | none => some s | some b => if num s < num b then some s else some b) none
    else none

/-- Arm a window with an empty ring from sample instant `e`, or let it wait for a slot (Table 11.4, R363). -/
def armWindow (w e : Nat) (m : Module) : Module :=
  match armSlot m w with
  | some s => modWin w (fun x => { x with st := .armed, slot := s, armedAt := e, ring := [], trig := none, coinc := 0, post := [], qual := 0,
                                          slots := Sparse.erase x.slots s, waitNoted := false, switchover := false }) m
  | none =>
    let noted := (m.win w).waitNoted
    let m := modWin w (fun x => { x with st := .waitSlot, waitNoted := true }) m
    if noted then m else raise (fnWin w) 0x0B03 (acqBody w 0xFF 0 0 0) m

/-- The epoch of the next base tick. -/
def Module.nextEpoch (m : Module) : Nat := match m.tick.epoch with | some e => e + 1 | none => 0

/-- A trigger is missed (R360). -/
def missTrigger (w : Nat) (m : Module) : Module :=
  modWin w (fun x => { x with missed := min (x.missed + 1) (2 ^ 32 - 1), missedSince := min (x.missedSince + 1) (2 ^ 32 - 1) }) m

/-- TRIG_OUT pulses of an accepted trigger (R364). -/
def trigOuts (w : Nat) (m : Module) : Module :=
  forN 2 (fun k m =>
    if bit (m.cfg (if k = 0 then Ent.acqTrigOut0 else Ent.acqTrigOut1)) w && m.active fnStream then
      emit (.trigOut k) { m with acq := { m.acq with trigOut := Nat.lor m.acq.trigOut (2 ^ k) } }
    else m) m

/-- Order of sources that breaks a tie (Table 11.5): 1 to 5, then Slate (6), then host (7). -/
def trigBefore (a b : Trig) : Bool := decide (a.time.toNs < b.time.toNs) || (a.time == b.time && decide (a.source < b.source))

/-- A window accepts a trigger: samples of the ring from the trigger sample on are post-trigger samples (R358, R360). -/
def acceptTrigger (w : Nat) (t : Trig) (m : Module) : Module :=
  let ts := sampleEpoch (m.cfg (Ent.winGroup w) % 8) t.epoch
  let m := modWin w (fun x => { x with st := .triggered, trig := some t, post := x.ring.filter (fun b => decide (ts ≤ b.epoch)),
                                       ring := x.ring.filter (fun b => decide (b.epoch < ts)) }) m
  sendDecision t.epoch (.trigger w t.source t.detail t.epoch t.time) (trigOuts w m)

/-- A trigger reaches window `w`; accepted ones are passed along chains (R358, R360). `fuel` bounds the chain: a window accepts once. -/
def triggerWindow : Nat → Nat → Trig → Module → Module
  | 0, _, _, m => m
  | fuel + 1, w, t, m =>
    if !m.active (fnWin w) then m
    else
      let x := m.win w
      match x.st, x.trig with
      | .triggered, some old =>
        if old.epoch = t.epoch then
          (modWin w (fun x => { x with coinc := x.coinc + 1, trig := some (if trigBefore t old then t else old) }) m).bump (Ent.winCoincident w)
        else missTrigger w m
      | .armed, _ =>
        let first := match x.ring with | b :: _ => b.epoch | [] => x.armedAt
        if t.epoch < first then missTrigger w m
        else
          let m := acceptTrigger w t m
          forN 16 (fun u m =>
            if u != w && m.cfg (Ent.winTrigSource u) == 4 && bit (m.cfg (Ent.winTrigChain u)) w then
              triggerWindow fuel u { t with source := 4, detail := w } m
            else m) m
      | _, _ => missTrigger w m

/-- A trigger with the fuel that every chain fits in. A standby takes the holder's accepted triggers alone (R366, R428). -/
def trigger (w : Nat) (t : Trig) (m : Module) : Module := if m.standby then m else triggerWindow 17 w t m

/-- A condition on a sample (R359). -/
def condTrue (kind : Nat) (a b : Int) (s : Sample) (prev : Option Sample) : Bool :=
  let v := wInt s
  let ok := wValid s
  let above := fun (x : Sample) => wValid x && decide (a < wInt x)
  let below := fun (x : Sample) => wValid x && decide (wInt x < a)
  let was := fun (f : Sample → Bool) => match prev with | some p => f p | none => false
  match kind with
  | 1 => above s
  | 2 => below s
  | 3 => above s && !was above
  | 4 => below s && !was below
  | 5 => ok && decide (a ≤ v) && decide (v ≤ b)
  | 6 => ok && (decide (v < a) || decide (b < v))
  | 7 => ok && Nat.land (wValue s).toNat (uint 20 a) == uint 20 b
  | _ => Nat.land (bits s.toNat 31 20) (uint 12 a) != 0

/-- The condition windows on a channel look at a sample of epoch `e` (R359); a member that holds no token evaluates none (R366). -/
def evalCondition (key e : Nat) (s : Sample) (m : Module) : Module :=
  if m.standby then m
  else forN 16 (fun w m =>
    if m.active (fnWin w) && m.cfg (Ent.winTrigSource w) == 1 && chanKey (m.cfg (Ent.winTrigSpec w)) == key then
      let x := m.win w
      let kind := m.cfg (Ent.winTrigKind w)
      let now := condTrue kind (m.cfgQ (Ent.winTrigA w)) (m.cfgQ (Ent.winTrigB w)) s x.prevCond
      let q := if x.st = .armed ∧ now then x.qual + 1 else 0
      let m := modWin w (fun x => { x with qual := q, prevCond := some s }) m
      if x.st = .armed ∧ 0 < q ∧ q = m.cfg (Ent.winTrigQual w) then
        trigger w ⟨1, kind, e, T80.ofNs (m.tick.instantT.toNs - (m.tick.epoch.getD 0 - e) * 20000)⟩ m
      else m
    else m) m

/-! ### The copy -/

/-- The period a word was written for (R341): the latest sample instant of its group whose period count has its parity. -/
def wordEpoch (m : Module) (w : Word) : Nat :=
  let g := wGroup w
  let e := m.tick.epoch.getD m.tick.lastEpoch
  let s := sampleEpoch g e
  if parityOf g s == wParity w then s else s - divisor g

def Module.closedTo (m : Module) (g : Nat) : Nat := Sparse.get (fun _ => 0) m.acq.closed g

/-- Record a sample of a channel for an epoch; the first of a period is looked at by the condition windows. -/
def record (key e : Nat) (s : Sample) (m : Module) : Module :=
  let k := key * 2 ^ 64 + e
  let fresh := (Sparse.get (fun _ => (none : Option Sample)) m.acq.copied k).isNone
  let m := { m with acq := { m.acq with copied := Sparse.set (fun _ => none) m.acq.copied k (some s) } }
  if fresh then evalCondition key e s m else m

/-- The engine reads the word marked first (R341); a word of a closed period counts as late (R343). -/
def acqCopy (m : Module) : Module :=
  match m.acq.marks with
  | [] => m
  | a :: rest =>
    let m := { m with acq := { m.acq with marks := rest.filter (fun x => x != a) } }
    let w := m.word a
    let e := wordEpoch m w
    if e < m.closedTo (wGroup w) then m.bump Ent.acqLateWrites else record a e w m

/-- ACQUISITION_COPY (R341). -/
def execAcquisitionCopy (s : State) : Host.Outcome State Fault Refusal := s.runE acqCopy

/-- The tap on the output writer at a slot's strobe (R342). -/
def tapLoop (n g e : Nat) (out : Word) (m : Module) : Module :=
  let want := fun v => (m.active fnStream && (streamChans m).any fun c => chanVar c.1 == some (v, n)) ||
    (List.range 16).any fun w => m.active (fnWin w) && ((winChans m w).any (fun c => chanVar c.1 == some (v, n)) ||
      (m.cfg (Ent.winTrigSource w) == 1 && chanVar (m.cfg (Ent.winTrigSpec w)) == some (v, n)))
  forN 4 (fun v m => if want v then record (2 ^ 18 + v * 1024 + n) e (tapValue m v n out g (parityOf g e)) m else m) m

/-! ### The close of a block -/

/-- The sample of a channel for an epoch: the copied one, else the channel as it stands with STALE (R343). -/
def sampleOf (m : Module) (c : Nat) (e : Nat) : Sample :=
  match Sparse.get (fun _ => (none : Option Sample)) m.acq.copied (chanKey c * 2 ^ 64 + e) with
  | some s => s
  | none => standing m c

/-- A window's sample of a channel: that of its epoch, or the last closed one of a slower group (R355). -/
def winSample (m : Module) (g : Nat) (c : Nat) (e : Nat) : Sample :=
  if divisor (chanGroup m c) ≤ divisor g then sampleOf m c e
  else (Sparse.get (fun _ => (none : Option Sample)) m.acq.lastSample (chanKey c)).getD (standing m c)

/-- Bytes of a slot (R355). -/
def slotBytes (m : Module) (w : Nat) : Nat := m.cfg (Ent.winSizeMb w) * 1048576 / max 1 (m.cfg (Ent.winSlots w))

/-- Drop the oldest samples until the rest fits. -/
def fitRing : Nat → Nat → List Block → List Block
  | 0, _, _ => []
  | fuel + 1, cap, bs => if (captureBytes bs).length ≤ cap then bs else fitRing fuel cap (bs.drop 1)

/-- Flags of a capture's header (Table 11.7). -/
def captureFlags (m : Module) (w : Nat) (x : Win) (shortPost aborted : Bool) : Nat :=
  b01 (decide (x.ring.length < m.cfg (Ent.winPre w))) + 2 * b01 shortPost + 4 * b01 aborted + 8 * (m.cfg (Ent.winPacking w) % 2) + 16 * b01 x.switchover

/-- Destination delay of a word in units of 5 ns, rounded (Table 1.3): analogue 29, discrete 1, step 6, field bus 8, trunk 1. -/
def destDelay (m : Module) (a : Nat) : Nat :=
  if (List.range 64).any (fun c => m.active (fnChan c) && m.cfg (Ent.chanWord c) == a) then 29
  else if m.active fnDo && range (m.cfg Ent.doWordBase) (m.cfg Ent.doWordBase + (if m.cfg Ent.doWordMode = 0 then 1 else 31)) a then 1
  else if (List.range 32).any (fun x => m.active (fnAxis x) && m.cfg (Ent.axisFollowAddr x) == a) then 6
  else if (List.range 8).any (fun p => m.active (fnPort p) && (List.range 32).any fun s => (List.range 16).any fun k =>
      let v := m.cfg (Ent.fbstOutMap p s k)
      v != 0xFFFFFFFF && bits v 17 0 == a) then 8
  else if (List.range 2).any (fun l => m.active (fnTrunk l) && (List.range 128).any fun k =>
      let v := m.cfg (Ent.trunkChan l k)
      v != 0xFFFFFFFF && bit v 31 && bits v 17 0 == a) then 1
  else 0

/-- A word is an output word written at a strobe: a running slot's output or published setpoint, a configured valve word, or a flag word of the interlock processor. -/
def outputGroup (m : Module) (a : Nat) : Option Nat :=
  match m.upSlots.find? (fun n => m.cfg (Ent.loopOutAddr n) == a || m.cfg (Ent.loopSpWord n) == a) with
  | some n => some (m.slotGroup n)
  | none =>
    let valve := if m.active fnSlate then
        ((List.range 256).map fun v => m.cfg (Ent.slateValve v)).findSome? fun x =>
          if x != 0xFFFFFFFFFFFFFFFF && bits x 17 0 == a then some (bits x 20 18) else none
      else none
    match valve with
    | some g => some g
    | none => if m.active fnFlint then (m.flint.img.flags.find? fun w => w.addr == a).map FlintWord.group else none

/-- The automatic skew of a channel in units of 5 ns (Table 11.1). -/
def autoSkew (m : Module) (e : Nat) : Int :=
  match chanVar e with
  | some (v, n) =>
    if v = 2 then -((m.cfg (Ent.groupPhase (m.slotGroup n)) + destDelay m (m.cfg (Ent.loopOutAddr n)) : Nat) : Int) else 0
  | none =>
    let a := bits e 17 0
    match (List.range 64).find? (fun c => m.active (fnChan c) && range 1 4 (m.cfg (Ent.chanMode c)) && m.cfg (Ent.chanWord c) == a) with
    | some c => ((divisor (m.cfg (Ent.chanGroup c) % 8) * 2000 + 400 : Nat) : Int) + (sint 32 (m.stat Ent.tickAnalogResidual) + 2500) / 5000
    | none =>
      if m.active fnDi && (m.cfg Ent.diWordA == a || m.cfg Ent.diWordB == a) then 400
      else match outputGroup m a with
        | some g => -((m.cfg (Ent.groupPhase g) + destDelay m a : Nat) : Int)
        | none => 0

/-- A channel entry with its total skew (R347, R368). -/
def skewEntry (m : Module) (c : Nat × Nat) : List Byte := leBytes 4 c.1 ++ leBytes 4 (uint 32 (sint 32 c.2 + autoSkew m c.1))

/-- A capture ends: it stays finished in its slot (R357, R362, R363). -/
def finishCapture (w : Nat) (shortPost aborted : Bool) (m : Module) : Module :=
  let x := m.win w
  match x.trig with
  | none => m
  | some t =>
    let fl := captureFlags m w x shortPost aborted
    let f : Finished := {
      number := x.captures + 1, flags := fl, trig := t, preCfg := m.cfg (Ent.winPre w), preValid := x.ring.length,
      postCfg := m.cfg (Ent.winPost w), postValid := x.post.length, missed := x.missedSince, dead := x.deadSince, coincident := x.coinc,
      group := m.cfg (Ent.winGroup w), discipline := m.tick.disc.code, epoch0 := m.tick.epoch0,
      chans := (winChans m w).map (skewEntry m), blocks := x.ring ++ x.post }
    let m := modWin w (fun x => { x with st := .done, rearm := 2, captures := min (x.captures + 1) (2 ^ 32 - 1), missedSince := 0, deadSince := 0,
                                         slots := Sparse.set (fun _ => none) x.slots x.slot (some f), ring := [], post := [], trig := none }) m
    let m := (m.setStat (Ent.winLastSlot w) x.slot).setStat (Ent.winLastTrigger w) t.epoch
    let m := if bit fl 0 then m.bump (Ent.winShortPre w) else m
    raise (fnWin w) 0x0B01 (acqBody w x.slot fl f.missed f.dead) m

/-- A window takes its sample of epoch `e` at the close of its group's block (R355 to R357). A trigger of an older epoch may find all its post-trigger samples in the ring. -/
def winClose (g e w : Nat) (m : Module) : Module :=
  let x := m.win w
  if !m.active (fnWin w) || m.cfg (Ent.winGroup w) != g then m
  else
    let b : Block := ⟨e, g, 0, m.cfg (Ent.winPacking w), (winChans m w).map (fun c => winSample m g c.1 e), []⟩
    match x.st with
    | .armed =>
      if e < x.armedAt then m
      else
        let ring := keepLast (m.cfg (Ent.winPre w)) (x.ring ++ [b])
        modWin w (fun x => { x with ring := fitRing (ring.length + 1) (slotBytes m w) ring }) m
    | .triggered =>
      match x.trig with
      | none => m
      | some t =>
        if e < sampleEpoch g t.epoch then
          modWin w (fun x => { x with ring := keepLast (m.cfg (Ent.winPre w)) (x.ring ++ [b]) }) m
        else if m.cfg (Ent.winPost w) ≤ x.post.length then
          finishCapture w false false (modWin w (fun x => { x with post := x.post.take (m.cfg (Ent.winPost w)) }) m)
        else if slotBytes m w < (captureBytes (x.ring ++ x.post ++ [b])).length then finishCapture w true false m
        else
          let m := modWin w (fun x => { x with post := x.post ++ [b] }) m
          if m.cfg (Ent.winPost w) ≤ x.post.length + 1 then finishCapture w false false m else m
    | _ => m

/-- Runs of consecutive list entries of one group, at most 213 each so that any block fits a datagram (R350). -/
def listRuns (m : Module) (g : Nat) : List (Nat × Nat) → Nat → List (Nat × List Nat) → List (Nat × List Nat)
  | [], _, acc => acc.reverse
  | c :: cs, i, acc =>
    if chanGroup m c.1 = g then
      match acc with
      | (f, l) :: more => if f + l.length = i ∧ l.length < 213 then listRuns m g cs (i + 1) ((f, l ++ [c.1]) :: more) else listRuns m g cs (i + 1) ((i, [c.1]) :: acc)
      | [] => listRuns m g cs (i + 1) [(i, [c.1])]
    else listRuns m g cs (i + 1) acc

/-- Stage a block for the stream; a full staging drops it (R353). -/
def stageBlock (b : Block) (m : Module) : Module :=
  let size := (stagedBytes b).length
  if m.stat Ent.acqStreamStaged + size ≤ 536870912 then
    let gap := match m.acq.dropping with | some (f, l) => [Block.mk f 255 l 0 [] []] | none => []
    let m := { m with acq := { m.acq with staging := m.acq.staging ++ gap ++ [b], dropping := none } }
    m.setStat Ent.acqStreamStaged (m.stat Ent.acqStreamStaged + size + 22 * gap.length)
  else
    let m := m.bump Ent.acqStreamDroppedBlocks
    match m.acq.dropping with
    | some (f, _) => { m with acq := { m.acq with dropping := some (f, b.epoch) } }
    | none =>
      raise fnStream 0x0B02 (acqBody 0xFF 0xFF 0 (m.stat Ent.acqStreamDroppedBlocks) 0)
        { m with acq := { m.acq with dropping := some (b.epoch, b.epoch) } }

/-- The stream's blocks of a closed period (R350, R351). -/
def streamClose (g e : Nat) (m : Module) : Module :=
  if !m.active fnStream then m
  else
    let iv := e / max 1 (m.cfg Ent.acqStreamKeyInterval)
    let keyed := Sparse.get (fun _ => 0) m.acq.keyed g == iv + 1
    let m := forL (listRuns m g (streamChans m) 0 []) (fun r m =>
      let ss := r.2.map fun c => sampleOf m c e
      let refs := (List.range ss.length).map fun i => Sparse.get (fun _ => (0 : Q)) m.acq.refs (r.1 + i)
      let b : Block := ⟨e, g, r.1, if keyed then m.cfg Ent.acqStreamPacking else 0, ss, refs⟩
      let refs' := ss.zipIdx.foldl (fun acc s => Sparse.set (fun _ => (0 : Q)) acc (r.1 + s.2) (wValue s.1)) m.acq.refs
      stageBlock b { m with acq := { m.acq with refs := refs' } }) m
    { m with acq := { m.acq with keyed := Sparse.set (fun _ => 0) m.acq.keyed g (iv + 1) } }

/-- Every channel that the stream or a window names. -/
def allChans (m : Module) : List Nat :=
  ((if m.active fnStream then (streamChans m).map Prod.fst else []) ++
    (List.range 16).flatMap (fun w => if m.active (fnWin w) then (winChans m w).map Prod.fst ++ (if m.cfg (Ent.winTrigSource w) = 1 then [m.cfg (Ent.winTrigSpec w)] else []) else [])).eraseDups

/-- A sample is still to be taken: its own block is not closed, or that of a window of a slower group that samples at its epoch (R355). -/
def sampleNeeded (m : Module) (all : List Nat) (key e : Nat) : Bool :=
  all.any (fun c => chanKey c == key && decide (m.closedTo (chanGroup m c) ≤ e)) ||
    (List.range 16).any fun w =>
      m.active (fnWin w) && samples (m.cfg (Ent.winGroup w) % 8) e && decide (m.closedTo (m.cfg (Ent.winGroup w) % 8) ≤ e) &&
        (winChans m w).any fun c => chanKey c.1 == key

/-- The block of group `g` and epoch `e` closes (R343). -/
def closeBlock (g e : Nat) (m : Module) : Module :=
  let cs := (allChans m).filter fun c => chanGroup m c == g
  let m := forL cs (fun c m =>
    if (Sparse.get (fun _ => (none : Option Sample)) m.acq.copied (chanKey c * 2 ^ 64 + e)).isNone then evalCondition (chanKey c) e (standing m c) m else m) m
  let m := streamClose g e m
  let m := forN 16 (winClose g e) m
  let m := forL cs (fun c m => { m with acq := { m.acq with lastSample := Sparse.set (fun _ => none) m.acq.lastSample (chanKey c) (some (sampleOf m c e)) } }) m
  let m := forL cs (fun c m => { m with acq := { m.acq with copied := Sparse.set (fun _ => none) m.acq.copied (chanKey c * 2 ^ 64 + e) (some (sampleOf m c e)) } }) m
  let m := { m with acq := { m.acq with closed := Sparse.set (fun _ => 0) m.acq.closed g (e + 1) } }
  let all := allChans m
  { m with acq := { m.acq with copied := m.acq.copied.filter fun x => sampleNeeded m all (x.1 / 2 ^ 64) (x.1 % 2 ^ 64) } }

/-- BLOCK_CLOSE at cycle 3,840 of tick e + Dg (R343). Marked words are read first; each is within its 3,840 cycles. -/
def blockClose (g : Nat) (m : Module) : Module :=
  match m.tick.epoch with
  | none => m
  | some now =>
    if samples g now && decide (divisor g ≤ now) && decide (m.tick.cycle ≤ 3840) && decide (m.closedTo g ≤ now - divisor g) then
      closeBlock g (now - divisor g) (forL m.acq.marks (fun _ m => acqCopy m) (toCycle 3840 m))
    else m

def execBlockClose (g : Fin 8) (s : State) : Host.Outcome State Fault Refusal := s.runE (blockClose g)

/-! ### Sending -/

/-- The staged blocks that fit one payload of 1,408 bytes. -/
def fitPayload : Nat → List Block → List Block
  | _, [] => []
  | room, b :: bs => let n := (stagedBytes b).length; if n ≤ room then b :: fitPayload (room - n) bs else []

/-- STREAM_SEND (R348 to R350, R354): one datagram of staged blocks to the attached session. -/
def streamSend (m : Module) : Module :=
  if !m.running fnStream || m.acq.session = 0 || m.standby then m
  else
    let bs := fitPayload 1404 m.acq.staging
    if bs.isEmpty then m
    else
      let data := bs.flatMap stagedBytes
      let seq := m.acq.seq + 1
      let m := emit (.stream m.acq.session seq (leBytes 2 bs.length ++ leBytes 2 0 ++ data)) m
      let m := forL (bs.filter fun b => b.group != 255) (fun b m => sendDecision m.epochWire (.stream b.group b.epoch) m) m
      let raw := (bs.filter fun b => b.group != 255).foldl (fun a b => a + rawBytes b) 0
      let now := m.tick.epoch.getD m.tick.lastEpoch
      let m := { m with acq := { m.acq with
        staging := m.acq.staging.drop bs.length, seq := seq, ratioRaw := m.acq.ratioRaw + raw, ratioSent := m.acq.ratioSent + data.length } }
      let m := (m.setStat Ent.acqStreamStaged (m.stat Ent.acqStreamStaged - data.length)).setStat Ent.acqStreamSeq seq
      if m.acq.ratioFrom + 50000 ≤ now then
        ({ m with acq := { m.acq with ratioRaw := 0, ratioSent := 0, ratioFrom := now } }).setStat Ent.acqStreamRatio (min 65535 (m.acq.ratioRaw * 100 / max 1 m.acq.ratioSent))
      else m

def execStreamSend (s : State) : Host.Outcome State Fault Refusal := s.run streamSend

/-- A session attaches to the stream (R348, R349). -/
def streamAttach (session : Nat) (m : Module) : Module :=
  raise fnStream 0x0B04 (acqBody 0xFF 0xFF 0 0 0)
    ((({ m with acq := { m.acq with session := session, seq := 0 } }).setStat Ent.acqStreamSession session).setStat Ent.acqStreamSeq 0)

/-- The attached session closes (R349). -/
def streamDetach (session : Nat) (m : Module) : Module :=
  if m.acq.session = session ∧ session ≠ 0 then
    raise fnStream 0x0B04 (acqBody 0xFF 0xFF 0 0 0) (({ m with acq := { m.acq with session := 0 } }).setStat Ent.acqStreamSession 0)
  else m

/-! ### Pins, instants and commands -/

/-- TRIG_IN_EDGE (R358). -/
def trigInEdge (k : Nat) (falling : Bool) (m : Module) : Module :=
  match m.tick.epoch with
  | none => m
  | some e =>
    if m.standby then m
    else forN 16 (fun w m =>
      if m.active (fnWin w) && m.cfg (Ent.winTrigSource w) == 2 + k && (m.cfg (Ent.winTrigEdge w) == 1) == falling then
        trigger w ⟨2 + k, k, e, m.now⟩ m
      else m) m

def execTrigInEdge (k : Fin 2) (falling : Bool) (s : State) : Host.Outcome State Fault Refusal := s.runE (trigInEdge k falling)

/-- A TRIG_OUT pulse ends (R364). -/
def trigOutEnd (k : Nat) (m : Module) : Module :=
  if bit m.acq.trigOut k then { m with acq := { m.acq with trigOut := m.acq.trigOut - 2 ^ k } } else m

def execTrigOutPulseEnd (k : Fin 2) (s : State) : Host.Outcome State Fault Refusal := s.run (trigOutEnd k)

/-- The end of REARM, or of the wait for a slot (Table 11.4). -/
def rearmDone (w e : Nat) (m : Module) : Module :=
  if !m.running (fnWin w) then m
  else match (m.win w).st with
    | .rearm => if (m.win w).rearm = 0 then armWindow w e m else m
    | .waitSlot => if (armSlot m w).isSome then armWindow w e m else m
    | _ => m

/-- REARM_EXPIRY (R357): the ring starts at the next instant. -/
def execRearmExpiry (w : Fin 16) (s : State) : Host.Outcome State Fault Refusal :=
  s.runE (fun m => if (m.win w).st = .rearm then rearmDone w m.nextEpoch m else m)

/-- The windows at a base-tick sample instant (R357, R358, R362): dead time, REARM, and time triggers. -/
def winInstant (e w : Nat) (m : Module) : Module :=
  if !m.active (fnWin w) then m
  else
    let g := m.cfg (Ent.winGroup w) % 8
    let m := if (m.win w).st = .done ∧ m.cfg (Ent.winMode w) = 1 then modWin w (fun x => { x with st := .rearm }) m else m
    let m := if samples g e then rearmDone w e m else m
    let x := m.win w
    let dead := x.st == .done || x.st == .rearm || x.st == .waitSlot
    let m := if dead then modWin w (fun x => { x with deadTicks := x.deadTicks + 1, deadSince := min (x.deadSince + 1) (2 ^ 32 - 1),
                                                      rearm := if x.st = .rearm then x.rearm - 1 else x.rearm }) m else m
    if samples g e && m.cfg (Ent.winTrigSource w) == 5 && !m.standby then
      let t := (wireT80 (m.cfg (Ent.winTrigTime w))).toNs
      let now := m.tick.instantT.toNs
      if t ≤ now ∧ now < t + divisor g * 20000 then trigger w ⟨5, 0, e, m.tick.instantT⟩ m else m
    else m

/-- ARM takes effect (Table 11.4): IDLE, or DONE in mode SINGLE. -/
def winArm (w : Nat) (m : Module) : Module :=
  match (m.win w).st with
  | .idle => modWin w (fun x => { x with st := .rearm, rearm := 2 }) m
  | .done => modWin w (fun x => { x with st := .rearm, rearm := 2 }) m
  | _ => m

/-- DISARM takes effect: an armed or waiting window goes IDLE (Table 11.6); a capture under way runs to its end. -/
def winDisarm (w : Nat) (m : Module) : Module :=
  match (m.win w).st with
  | .triggered => m
  | _ => modWin w (fun x => { x with st := .idle, ring := [], waitNoted := false }) m

/-- A release takes effect (R363). -/
def winRelease (w slot : Nat) (m : Module) : Module :=
  modWin w (fun x => { x with slots := Sparse.erase x.slots slot }) m

/-- START of a window takes effect: ARMED with an empty ring (R357); a changed size or slot count drops its captures (R363). -/
def winStart (w e : Nat) (m : Module) : Module :=
  let shape := (m.cfg (Ent.winSizeMb w), m.cfg (Ent.winSlots w))
  let keep := if (m.win w).shape = shape then (m.win w).slots else []
  let m := modWin w (fun _ => { Win.init with slots := keep, shape := shape }) m
  let m := forL [Ent.winCoincident w, Ent.winLastTrigger w, Ent.winShortPre w] (fun k m => m.setStat k 0) m
  armWindow w e (m.setStat (Ent.winLastSlot w) 0xFF)

/-- The stop of a window completes (Table 11.6). -/
def winStop (w : Nat) (m : Module) : Module :=
  let m := if (m.win w).st = .triggered then finishCapture w true true m else m
  modWin w (fun x => { x with st := .idle, ring := [], waitNoted := false }) m

/-- START of the stream takes effect: its counters run anew (R370). -/
def streamStart (m : Module) : Module :=
  let m := forL [Ent.acqStreamDroppedBlocks, Ent.acqLateWrites, Ent.acqStreamStaged] (fun k m => m.setStat k 0) m
  { m with acq := { m.acq with staging := [], dropping := none, refs := [], keyed := [], ratioRaw := 0, ratioSent := 0, ratioFrom := m.tick.epoch.getD 0 } }

/-- Distinct process-image words that the stream and all windows name (R344), from live lists; `extra` are the entries of a START. -/
def copyDemand (m : Module) (extra : List (Nat × Nat)) : Nat :=
  ((allChans m ++ extra.map Prod.fst).filter fun c => (chanVar c).isNone).map chanKey |>.eraseDups |>.length

/-- The raw rate of R352 for some channels, in bytes/s: 50,000 / Dg × 2.5 × 1.1 each. -/
def rawRate (m : Module) (cs : List (Nat × Nat)) : Nat := (cs.foldl (fun a c => a + 1375000 / divisor (chanGroup m c.1)) 0) / 10

end Sys2Proof.Machine
end

