-- ==== Sys2Proof/Machine/Agate.lean ====
section
/-! DEFINITION. Agate (chapter 12): the record's bytes, the store and its descriptor, writing a record, a clear, closing repeat windows, notes, and the boot scan. -/

namespace Sys2Proof.Machine

/-! ### The record and the store -/

/-- Bytes 0 to 59 of a committed record (Table 12.1). -/
def recordHead (seq rep : Nat) (e : Event) : List Byte :=
  leBytes 4 seq ++ leBytes 10 (t80Wire e.time) ++ leBytes 2 e.source ++ leBytes 2 e.code ++ leBytes 2 rep ++
    leBytes 2 e.flags ++ leBytes 8 (e.epoch.getD 0xFFFFFFFFFFFFFFFF) ++ padTo 28 e.body ++ [0xA5, 0]

/-- The 64 bytes of a committed record (Table 12.1, R383). -/
def recordBytes (seq rep : Nat) (e : Event) : List Byte := recordHead seq rep e ++ leBytes 4 (crc32c (recordHead seq rep e))

/-- At manufacture every byte of the store is FFh (R383). -/
def dfltSlot (_ : Nat) : List Byte := List.replicate 64 0xFF

/-- The 64 bytes of a slot. -/
def Module.slotOf (m : Module) (k : Nat) : List Byte := Sparse.get dfltSlot m.nv.store k

/-- Slots of the store; the last is kept for 0C01h (R387). -/
def storeSlots : Nat := 2097152

/-- A slot is valid for a base (R384). -/
def slotValid (m : Module) (base k : Nat) : Bool :=
  let b := m.slotOf k
  leAt b 58 1 == 0xA5 && leAt b 0 4 == (base + k) % 2 ^ 32 && leAt b 60 4 == crc32c (b.take 60)

/-- The valid slots from slot `k` on, in one unbroken run (R385). -/
def countValid (m : Module) (base : Nat) : Nat → Nat → Nat
  | 0, k => k
  | n + 1, k => if slotValid m base k then countValid m base n (k + 1) else k

/-- SEQ of the newest committed record; 0 with none. -/
def Module.lastSeq (m : Module) : Nat :=
  if m.agate.used = 0 then 0 else (m.agate.descr.base + m.agate.used - 1) % 2 ^ 32

/-- The bytes of slots `a .. b - 1`. -/
def Module.slotRange (m : Module) (a b : Nat) : List Byte := (List.range (b - a)).flatMap fun i => m.slotOf (a + i)

/-- `agate.tail`: the newest 64 committed records, oldest first (R389). -/
def Module.agateTail (m : Module) : List Byte := m.slotRange (m.agate.used - 64) m.agate.used

/-- What EXPORT kind 10h delivers (R388). -/
def Module.agateExport (m : Module) : List Byte := m.slotRange 0 m.agate.used

def putSlot (k : Nat) (b : List Byte) (m : Module) : Module := { m with nv := { m.nv with store := Sparse.set dfltSlot m.nv.store k b } }

/-- Rewrite both copies of the descriptor (R386). -/
def saveDescr (m : Module) : Module := { m with nv := { m.nv with descrA := some m.agate.descr, descrB := some m.agate.descr } }

/-- The descriptor follows a changed lost count at most once per base tick (R386). -/
def saveLost (m : Module) : Module := if m.nv.descrA = some m.agate.descr then m else saveDescr m

/-! ### Writing -/

/-- The holder sends committed records to its standby, and to a member that has its history already (R431, Table 14.11). -/
def sendsRecords (m : Module) : Bool := m.red.hold && (m.red.st == 2 || m.red.st == 3 || (m.red.st == 1 && decide (2 ≤ m.red.phase)))

/-- A record is committed in the next slot (R383, R384). -/
def commitRecord (seq rep : Nat) (e : Event) (m : Module) : Module :=
  let b := recordBytes seq rep e
  let k := m.agate.used
  let m := putSlot k b { m with agate := { m.agate with used := k + 1 } }
  if sendsRecords m then sendItpel (e.epoch.getD 0xFFFFFFFFFFFFFFFF) (.record ⟨seq, rep, e, false⟩) m else m

/-- The warning level is reached, once per clear (R387). -/
def reachesWarn (m : Module) : Bool := decide (m.cfg Ent.agateWarnLevel * storeSlots ≤ m.agate.used * 100)

/-- Event 0C05h when the level is first reached. -/
def checkWarn (m : Module) : Module :=
  if reachesWarn m && !m.agate.warned then
    raise fnAgate 0x0C05 (leBytes 4 m.agate.used) { m with agate := { m.agate with warned := true } }
  else m

/-- A refused record takes no SEQ: the records behind it move up. -/
def unnumber (m : Module) : Module :=
  let q := m.agate.queue.map fun r => { r with seq := (r.seq + 2 ^ 32 - 1) % 2 ^ 32 }
  { m with agate := { m.agate with queue := q, nextSeq := (m.agate.nextSeq + 2 ^ 32 - 1) % 2 ^ 32 } }

/-- Write 0C01h in the last slot for the first refused record (R387). -/
def storeFull (r : Rec) (m : Module) : Module :=
  let e : Event := ⟨fnAgate, 0x0C01, Nat.land r.ev.flags 4, r.ev.time, r.ev.epoch, leBytes 2 r.ev.source ++ leBytes 2 r.ev.code⟩
  let d := { m.agate.descr with lost := 1, firstLost := r.ev.time, lastLost := r.ev.time }
  saveDescr (commitRecord r.seq 0 e { m with agate := { m.agate with descr := d } })

/-- Refuse a record with the store full (R387). -/
def refuseRecord (r : Rec) (m : Module) : Module :=
  let d := m.agate.descr
  let first := if d.lost = 0 then r.ev.time else d.firstLost
  let d' := { d with lost := min (d.lost + 1) (2 ^ 32 - 1), firstLost := first, lastLost := r.ev.time }
  let m := unnumber { m with agate := { m.agate with descr := d' } }
  if m.ticking then m else saveLost m

/-- The counters that run from the last clear start again (R394). -/
def resetSinceClear (m : Module) : Module :=
  ((m.setStat Ent.agateFolded 0).setStat Ent.agateRepeatTableFull 0).setStat Ent.agateTorn 0

/-- A clear takes effect: the descriptor, then 0C02h in slot 0 (R390). The stamp of 0C02h is the clear time. -/
def clearStore (r : Rec) (m : Module) : Module :=
  let d := m.agate.descr
  let e := { r.ev with body := leBytes 4 d.base ++ leBytes 4 m.lastSeq ++ leBytes 4 d.lost ++ r.ev.body.drop 12 }
  let a := { m.agate with used := 0, warned := false, descr := ⟨r.seq, r.ev.time, 0, T80.zero, T80.zero⟩ }
  resetSinceClear (commitRecord r.seq 0 e (saveDescr { m with agate := a }))

/-- Write one record to the store (R378, R383, R387, R390). -/
def writeRecord (r : Rec) (m : Module) : Module :=
  if r.clear then clearStore r m
  else if m.agate.used < storeSlots - 1 then checkWarn (commitRecord r.seq r.rep r.ev m)
  else if m.agate.used = storeSlots - 1 then storeFull r m
  else refuseRecord r m

/-- The standby takes a record of the holder, once it has computed the record's epoch (R431); 0C02h starts the store anew. -/
def takeHolderRecord (r : Rec) (m : Module) : Module :=
  if r.ev.code = 0x0C02 && r.ev.source = fnAgate then
    let a := { m.agate with used := 0, warned := false, descr := ⟨r.seq, r.ev.time, 0, T80.zero, T80.zero⟩ }
    resetSinceClear (commitRecord r.seq r.rep r.ev (saveDescr { m with agate := a }))
  else if m.agate.used < storeSlots then
    let d := m.agate.descr
    let d := if r.ev.code = 0x0C01 ∧ r.ev.source = fnAgate then { d with lost := 1, firstLost := r.ev.time, lastLost := r.ev.time } else d
    commitRecord r.seq r.rep r.ev { m with agate := { m.agate with descr := d } }
  else m

/-- The member takes its records from the holder: a standby, and a joining member that has the history (R431, Table 14.11). -/
def takesRecords (m : Module) : Bool := m.standby || (!m.red.hold && m.red.st == 1 && decide (2 ≤ m.red.phase))

/-- The standby has computed epoch `e`; a member that computes nothing yet need not wait. -/
def computedEpoch (m : Module) (e : Nat) : Bool :=
  if !m.standby then true else match m.tick.epoch with
  | some c => decide (e < c)
  | none => true

/-- The next record goes to the store: the queue's head, or on a standby the holder's oldest record (R378, R431). -/
def recordWrite (m : Module) : Module :=
  if takesRecords m then
    match m.red.recs with
    | [] => m
    | (e, r) :: q =>
      if computedEpoch m e then
        takeHolderRecord r { m with red := { m.red with recs := q }, agate := { m.agate with nextSeq := (r.seq + 1) % 2 ^ 32 } }
      else m
  else
    match m.agate.queue with
    | [] => m
    | r :: q => writeRecord r { m with agate := { m.agate with queue := q } }

/-! ### Repeat windows, clear and note -/

/-- Windows whose length has run close, in the order of R378 (R381). -/
def closeRunWindows (m : Module) : Module :=
  let due := m.agate.windows.filter fun w => decide (w.opening.time.toNs + w.len * 1000000 ≤ m.nowNs)
  forL (due.foldl (fun acc w => insertWin w acc) []) closeWindow m
where
  /-- Put a window in its place by the rank of its opening event. -/
  insertWin (w : RepWin) : List RepWin → List RepWin
    | [] => [w]
    | x :: l => if w.opening.rank < x.opening.rank then w :: x :: l else x :: insertWin w l

/-- REPEAT_WINDOW_CLOSE (R381): the check that is made every 20 µs of stamp time. -/
def execRepeatWindowClose (s : State) : Host.Outcome State Fault Refusal := s.runE closeRunWindows

/-- Number the waiting records from `seq` on. -/
def renumber (seq : Nat) : List Rec → List Rec
  | [] => []
  | r :: l => { r with seq := seq % 2 ^ 32 } :: renumber (seq + 1) l

/-- An accepted clear takes its place in the queue, ahead of the events of its cycle (R390). -/
def agateClear (session : Nat) (m : Module) : Module :=
  let m := flushDrops m
  let e : Event := ⟨fnAgate, 0x0C02, notLocked m, m.now, m.tick.epoch, padTo 12 [] ++ leBytes 4 session⟩
  let old := m.agate.queue.filter fun r => r.ev.time != m.now || r.clear
  let same := m.agate.queue.filter fun r => r.ev.time == m.now && !r.clear
  let first := (m.agate.nextSeq + 2 ^ 32 - same.length) % 2 ^ 32
  let q := old ++ renumber first (Rec.mk 0 0 e true :: same)
  ({ m with agate := { m.agate with queue := q, nextSeq := (m.agate.nextSeq + 1) % 2 ^ 32 } }).peak Ent.agateQueuePeak q.length

/-- A host note (R391). -/
def agateNote (v : Nat) (m : Module) : Module := post 0x0E03 0x0C07 (leBytes 2 (bits v 63 48) ++ leBytes 4 (bits v 31 0)) m

/-! ### Boot -/

/-- The descriptor copy that boot uses, and its number (R386): the correct one of later clear time; FFh for none. -/
def bootDescr (m : Module) : Option Descr × Nat :=
  match m.nv.descrA, m.nv.descrB with
  | some a, some b => if a.clearTime.toNs < b.clearTime.toNs then (some b, 1) else (some a, 0)
  | some a, none => (some a, 0)
  | none, some b => (some b, 1)
  | none, none => (none, 0xFF)

/-- Base where no copy is correct: the SEQ of slot 0 where it holds a good record (R386). -/
def baseOfSlot0 (m : Module) : Nat :=
  let b := m.slotOf 0
  if leAt b 58 1 = 0xA5 ∧ leAt b 60 4 = crc32c (b.take 60) then leAt b 0 4 else 0

/-- How slot N looks (R385): 1 or 2 for a torn slot, 0 for the end of the history. -/
def tornKind (m : Module) (base n : Nat) : Nat :=
  let b := m.slotOf n
  if n = storeSlots then 0
  else if leAt b 58 1 = 0 then 1
  else if leAt b 58 1 = 0xA5 ∧ leAt b 0 4 = (base + n) % 2 ^ 32 then 2
  else 0

/-- Rewrite a torn slot as 0C03h (R385). -/
def rewriteTorn (kind n seq : Nat) (m : Module) : Module :=
  let b := m.slotOf n
  let e : Event := ⟨fnAgate, 0x0C03, notLocked m, m.now, m.tick.epoch, (b.drop 14).take 4 ++ [BitVec.ofNat 8 kind]⟩
  (commitRecord seq 0 e m).bump Ent.agateTorn

/-- Agate finds its history at boot, and 0C04h goes ahead of what has been admitted since power-on (R385, R386, R392). -/
def bootScan (m : Module) : Module :=
  let (d?, copy) := bootDescr m
  let d := d?.getD { Descr.init with base := baseOfSlot0 m }
  let n := countValid m d.base storeSlots 0
  let kind := tornKind m d.base n
  let m := { m with agate := { m.agate with used := n, descr := d } }
  let m := if kind = 0 then m else rewriteTorn kind n ((d.base + n) % 2 ^ 32) m
  let m := if d?.isNone then saveDescr m else m
  let seq := d.base + m.agate.used
  let e : Event := ⟨fnAgate, 0x0C04, notLocked m, m.now, m.tick.epoch, leBytes 1 (b01 m.nv.clean.isSome) ++ leBytes 1 copy ++ padTo 26 (leBytes 4 n)⟩
  let q := renumber seq (Rec.mk 0 0 e false :: m.agate.queue)
  let ws := if m.cfg Ent.agateRepeatWindow = 0 then [] else [RepWin.mk e e 0 (m.cfg Ent.agateRepeatWindow)]
  { m with agate := { m.agate with queue := q, windows := ws ++ m.agate.windows, nextSeq := (seq + q.length) % 2 ^ 32, warned := reachesWarn m } }

/-! ### Software events of the management sources (R490) -/

/-- Bytes 34 to 39: the session, its role and its link; none for a happening of no session. -/
def sessFields (m : Module) (id : Nat) : List Byte :=
  match m.odp.sessions.find? (fun x => x.id == id) with
  | some x => leBytes 4 id ++ leBytes 1 x.role.rank ++ leBytes 1 x.link
  | none => leBytes 4 0 ++ [0xFF#8, 0xFF#8]

/-- A management event: number, qualifier, result, session and version. -/
def mgmtEvent (source code num qual res session version : Nat) (m : Module) : Module :=
  post source code (leBytes 2 num ++ leBytes 1 qual ++ leBytes 1 res ++ sessFields m session ++ leBytes 4 version) m

end Sys2Proof.Machine
end

