-- ==== Sys2Proof/Machine/Graph.lean ====
section
/-! DEFINITION. The dispatcher's graph: descriptors (R153 to R156), tags (R157 to R159), readiness (R160), retirement (R162), cancellation (R169) and the order of the ready lists (R164, R168). -/

namespace Sys2Proof.Machine

/-! ### Descriptors -/

/-- A descriptor from its 128 bits (Table 5.3). -/
def decodeDesc (v : Nat) : Desc where
  kind := bits v 127 122
  group := bits v 121 119
  slot := bits v 118 109
  entry := bits v 108 101
  nin := bits v 100 98
  ins := [bits v 97 84, bits v 83 70, bits v 69 56, bits v 55 42]
  res := bits v 41 24
  rcnt := bits v 23 21
  rsv := bits v 20 16
  arg := bits v 15 0

/-- The 128 bits of a descriptor (Table 5.3). -/
def encodeDesc (d : Desc) : Nat :=
  d.kind * 2 ^ 122 + d.group * 2 ^ 119 + d.slot * 2 ^ 109 + d.entry * 2 ^ 101 + d.nin * 2 ^ 98 +
    d.ins.getD 0 0 * 2 ^ 84 + d.ins.getD 1 0 * 2 ^ 70 + d.ins.getD 2 0 * 2 ^ 56 + d.ins.getD 3 0 * 2 ^ 42 +
    d.res * 2 ^ 24 + d.rcnt * 2 ^ 21 + d.rsv * 2 ^ 16 + d.arg

/-- The inputs a descriptor names. -/
def Desc.names (d : Desc) : List Nat := d.ins.take d.nin

/-- The LOOP descriptor of a slot from its entries (Table 5.11): the live or the shadow ones. -/
def loopDesc (m : Module) (shadow : Bool) (n : Nat) : Desc :=
  let get := fun k => if shadow then m.shad k else m.cfg k
  let i := get (Ent.dispLoopInputs n)
  let r := get (Ent.dispLoopResults n)
  { kind := 0, group := get (Ent.loopGroup n) % 8, slot := n, entry := 0, nin := bits i 58 56,
    ins := [bits i 55 42, bits i 41 28, bits i 27 14, bits i 13 0],
    res := bits r 20 3, rcnt := bits r 2 0, rsv := 0, arg := 0 }

/-- The IN descriptor of a trunk channel (Table 5.2). -/
def inDesc (d : Nat) : Desc :=
  { kind := 4, group := 0, slot := d - 1024, entry := 0, nin := 0, ins := [0, 0, 0, 0], res := 0, rcnt := 0, rsv := 0, arg := 0 }

/-- A descriptor of the graph DOM (R171); an empty one is none. -/
def poolDesc (bs : List Byte) (d : Nat) : Option Desc :=
  let v := leAt bs (16 * (d - 1280)) 16
  if v = 0 then none else some (decodeDesc v)

/-- Number of pool descriptors that a graph DOM reaches. -/
def poolCount (bs : List Byte) : Nat := min 15104 ((bs.length + 15) / 16)

/-- Non-empty pool descriptors of a graph DOM. -/
def poolList (bs : List Byte) : List (Nat × Desc) :=
  (List.range (poolCount bs)).filterMap fun i => (poolDesc bs (1280 + i)).map fun d => (1280 + i, d)

/-- The live descriptor of a number. -/
def Module.desc (m : Module) (d : Nat) : Option Desc := Sparse.get (fun _ => none) m.disp.live d
def setDesc (d : Nat) (x : Option Desc) (m : Module) : Module :=
  { m with disp := { m.disp with live := Sparse.set (fun _ => none) m.disp.live d x } }

/-- Present descriptors in ascending number. -/
def Module.descs (m : Module) : List (Nat × Desc) := m.disp.live.filterMap fun e => e.2.map fun d => (e.1, d)

/-- Recount `disp.group[g].instances` (Table 5.8). -/
def countDescs (m : Module) : Module :=
  forN 8 (fun g m => m.setStat (Ent.dispGroupInstances g) ((m.descs.filter fun e => e.2.group == g).length)) m

/-- The consumers of a producer, in ascending descriptor number (R158). -/
def consumers (m : Module) (p : Nat) : List (Nat × Desc) := m.descs.filter fun e => e.2.names.contains p

/-! ### Tags -/

/-- The SLOT field of a tag (Table 5.4). -/
def tagSlot (d : Nat) (x : Desc) : Nat := if x.kind = 2 ∨ x.kind = 3 then d % 1024 else x.slot

/-- MASK of the tag of an instance of epoch `e`: the consumers that have an instance whose sample instant is `e` (R158). -/
def tagMask (m : Module) (p e : Nat) : Nat :=
  ((consumers m p).take 16).zipIdx.foldl (fun acc c => acc + (if samples c.1.2.group e then 2 ^ c.2 else 0)) 0

/-- The tag of an instance (Table 5.4). -/
def tagOf (m : Module) (d : Nat) (x : Desc) (e : Nat) : BitVec 64 :=
  BitVec.ofNat 64 (tagSlot d x * 2 ^ 54 + x.kind * 2 ^ 48 + x.group * 2 ^ 45 + e % 8192 * 2 ^ 32 + tagMask m d e * 2 ^ 16)

/-- Issue the tag of an instance: it waits to be taken by TAG_ACCEPT. -/
def issueTag (d e : Nat) (m : Module) : Module :=
  match m.desc d with
  | some x => { m with disp := { m.disp with tags := m.disp.tags ++ [(d, tagOf m d x e)] } }
  | none => m

/-! ### Instances -/

/-- Core cycles from epoch 0's sample instant, on 4,000-cycle ticks. -/
def Module.absCycle (m : Module) : Nat := (m.tick.epoch.getD 0) * 4000 + m.tick.cycle

/-- An input word's group is slower than group `g` (R19). -/
def slowerInput (m : Module) (g a : Nat) : Bool := isAddr a && decide (divisor g < divisor (wGroup (m.word a)))

/-- Cycles from the sample instant to the deadline of an instance (R146, R164). -/
def deadlineOf (m : Module) (x : Desc) : Nat :=
  let own := m.cfg (Ent.groupPhase x.group) - 80
  if x.kind = 0 then
    let ins := [Ent.loopPvAddr x.slot, Ent.loopPv2Addr x.slot, Ent.loopSpSrc x.slot, Ent.loopFfAddr x.slot, Ent.loopTrackAddr x.slot, Ent.loopReadbackAddr x.slot]
    if ins.any (fun k => slowerInput m x.group (m.cfg k)) then min own 4000 else own
  else own

/-- An input is treated as absent (R160, R171). -/
def absentInput (m : Module) (x : Desc) (i : Nat) : Bool :=
  (decide (i < 1280) && (m.desc i).isNone) || (x.kind == 0 && decide (1280 ≤ i) && !m.running fnDisp)

/-- Inputs whose tag an instance still waits for, by position. -/
def missing (m : Module) (i : Inst) : List Nat :=
  match m.desc i.desc with
  | none => []
  | some x => (x.names.zipIdx.filter fun c => !(absentInput m x c.1) && !(i.got.contains c.1)).map Prod.snd

/-- The three conditions of readiness (R160). An IN ends when its word lands, and is never ready. -/
def canReady (m : Module) (i : Inst) : Bool :=
  i.st == .waiting && (match m.desc i.desc with | some x => x.kind != 4 | none => true) && (match m.disp.released with | some e => decide (i.epoch ≤ e) | none => false) &&
    (missing m i).isEmpty && !(m.disp.insts.any fun j => j.desc == i.desc && decide (j.epoch < i.epoch))

/-- The marshalling start of an instance's group and epoch lies behind the absolute cycle `c` (R168). -/
def pastMarshal (m : Module) (i : Inst) (c : Nat) : Bool := decide (i.epoch * 4000 + m.cfg (Ent.groupPhase i.group) - 80 < c)

/-- One instance becomes ready: a HOOK ends and signals Slate; another goes onto its list or into the late class (R160, R168). -/
def makeReady (delay : Nat) (i : Inst) (m : Module) : Module :=
  let c := m.absCycle + delay
  let m := m.setStat (Ent.dispGroupLastReady i.group) (min 65535 (c - i.epoch * 4000))
  match m.desc i.desc with
  | none => m
  | some x =>
    if x.kind = 3 then
      issueTag i.desc i.epoch { m with disp := { m.disp with
        insts := m.disp.insts.filter (fun j => j != i), hooks := m.disp.hooks ++ [(x.arg, x.group, i.epoch)] } }
    else
      let late := pastMarshal m i c
      let m := if late then m.bump (Ent.dispGroupLate i.group) else m
      let dl := i.epoch * 4000 + deadlineOf m x
      let up := fun (j : Inst) => { j with st := if late then .late else .ready, readyAt := c, deadline := dl, wasLate := late }
      let m := { m with disp := { m.disp with insts := mapFirst (fun j => j == i) up m.disp.insts } }
      m.peak Ent.dispReadyPeak ((m.disp.insts.filter fun j => j.st == .ready || j.st == .late).length)

/-- Every instance whose last condition is met becomes ready, in ascending descriptor number; HOOKs wait for their tags to be taken. -/
def refreshReady (delay : Nat) (m : Module) : Module :=
  forL (m.disp.insts.filter (canReady m)) (makeReady delay) m

/-- Remove the instance of a descriptor and epoch: it has ended. -/
def endInst (d e : Nat) (m : Module) : Module :=
  { m with disp := { m.disp with insts := m.disp.insts.filter (fun i => !(i.desc == d && i.epoch == e)) } }

/-- Change the instance of a descriptor and epoch. -/
def setInst (d e : Nat) (f : Inst → Inst) (m : Module) : Module :=
  { m with disp := { m.disp with insts := m.disp.insts.map (fun i => if i.desc == d && i.epoch == e then f i else i) } }

/-- The function that an instance's event names (R175). -/
def instSource (x : Desc) : Nat := if x.kind = 0 ∨ x.kind = 1 then x.slot else fnDisp

/-- Retire one instance (R162). -/
def retire (i : Inst) (m : Module) : Module :=
  match m.desc i.desc with
  | none => endInst i.desc i.epoch m
  | some x =>
    let miss := (missing m i).foldl (fun acc k => acc + 2 ^ k) 0
    let m := raiseEpoch i.epoch (instSource x) 0x0501 (leBytes 2 i.desc ++ leBytes 1 x.kind ++ leBytes 1 miss) m
    (endInst i.desc i.epoch m).bump Ent.dispRetired |>.bump (Ent.dispGroupRetired i.group)

/-- At a sample instant, instances of the sampling groups that have not been issued or prefetched are retired; an IN that was never stamped is dropped (R162, R163). -/
def retireDue (e : Nat) (m : Module) : Module :=
  let stands := fun (i : Inst) => !m.standby || m.decided e fun d => match d with
    | .retired g l => g == i.group && l.contains i.desc
    | _ => false
  let due := m.disp.insts.filter fun i =>
    samples i.group e && decide (i.epoch < e) && (i.st == .waiting || i.st == .ready || i.st == .late) && stands i
  let m := forN 8 (fun g m =>
    let l := (due.filter fun i => i.group == g).map fun i => i.desc
    if l.isEmpty then m else sendDecision e (.retired g l) m) m
  forL due (fun i m => match m.desc i.desc with
    | some x => if x.kind = 4 then endInst i.desc i.epoch m else retire i m
    | none => endInst i.desc i.epoch m) m

/-- At a sample instant, one instance of every present descriptor of the sampling groups (R14, R160). -/
def makeInsts (e : Nat) (m : Module) : Module :=
  let ds := m.descs.filter fun x => samples x.2.group e &&
    (!(decide (x.2.kind ≤ 1)) || m.running x.2.slot) && (decide (x.1 < 1280) || m.running fnDisp)
  { m with disp := { m.disp with insts := m.disp.insts ++ ds.map (fun x => Inst.mk x.1 x.2.group e [] .waiting 0 0 false 0) } }

/-! ### Lanes' view -/

def Module.lane (m : Module) (l : Nat) : Lane := Sparse.get (fun _ => Lane.init) m.lanes l
def modLane (l : Nat) (f : Lane → Lane) (m : Module) : Module :=
  { m with lanes := Sparse.mod (fun _ => Lane.init) m.lanes l f }

/-- The lane whose prefetch slot holds an instance. -/
def prefetchLane (m : Module) (i : Inst) : Option Nat :=
  (List.range 16).find? fun l => match (m.lane l).prefetch with
    | some c => c.desc == i.desc && c.epoch == i.epoch
    | none => false

/-- Instances that meet a condition and have not issued are removed from their list or prefetch slot (R169). -/
def dropInsts (p : Inst → Bool) (m : Module) : Module :=
  let gone := m.disp.insts.filter fun i => p i && i.st != .running
  let m := forL gone (fun i m => match prefetchLane m i with
    | some l => modLane l (fun x => { x with prefetch := none }) m
    | none => m) m
  { m with disp := { m.disp with insts := m.disp.insts.filter (fun i => !(gone.contains i)) } }

/-- The cancel of an instance meets its readiness, its pop or its issue in this cycle (Table 5.5). -/
def cancelRaces (m : Module) (i : Inst) : Bool :=
  match prefetchLane m i with
  | some l => i.readyAt == m.absCycle || i.popAt == m.absCycle || (m.lane l).op.isNone
  | none => (i.st == .ready || i.st == .late) && i.readyAt == m.absCycle

/-- Counting one cancel (Table 5.5): a race, or an instance taken from its prefetch slot. A pop that loses in its own cycle does not count as one. -/
def countCancel (i : Inst) (m : Module) : Module :=
  if cancelRaces m i then
    let m := m.bump Ent.dispCancelRace
    if (prefetchLane m i).isSome && i.popAt == m.absCycle then m.setStat Ent.dispPops (m.stat Ent.dispPops - 1) else m
  else if (prefetchLane m i).isSome then m.bump Ent.dispCancelPrefetch
  else m

/-- Cancel the instances that meet a condition (R169, R170). -/
def cancelInsts (p : Inst → Bool) (m : Module) : Module :=
  dropInsts p (forL (m.disp.insts.filter fun i => p i && i.st != .running) countCancel m)

/-- The STOP of a slot cancels its LOOP and PART instances. -/
def cancelSlot (n : Nat) (m : Module) : Module :=
  cancelInsts (fun i => match m.desc i.desc with | some x => decide (x.kind ≤ 1) && x.slot == n | none => false) m
/-- The STOP of a trunk link cancels its IN instances. -/
def cancelLink (l : Nat) (m : Module) : Module := cancelInsts (fun i => range (1024 + 128 * l) (1151 + 128 * l) i.desc) m
/-- The dispatcher leaving RUNNING cancels pool instances. -/
def cancelPool (m : Module) : Module := cancelInsts (fun i => decide (1280 ≤ i.desc)) m

/-- The loop engine or the kernel image function leaves RUNNING: lane operations not issued are cancelled, running ones aborted with the hold-off (R131, R169). -/
def cancelLanes (m : Module) : Module :=
  let m := cancelInsts (fun i => match m.desc i.desc with | some x => decide (x.kind ≤ 2) | none => false) m
  forN 16 (fun l m => if (m.lane l).op.isSome then modLane l (fun x => { x with abort := some .abort }) m else m) m

/-- Order of the ready lists (R164): the late class last; then deadline, group of the head, cycle of readiness, descriptor. -/
def instBefore (a b : Inst) : Bool :=
  let ka := [b01 (a.st == .late), a.deadline, a.group, a.readyAt, a.desc]
  let kb := [b01 (b.st == .late), b.deadline, b.group, b.readyAt, b.desc]
  decide (ka < kb)

/-- The instance first in order among some. -/
def firstInst : List Inst → Option Inst
  | [] => none
  | i :: l => match firstInst l with
    | some j => if instBefore j i then some j else some i
    | none => some i

/-- The home lane of an instance; a MOVE has none. -/
def homeLane (m : Module) (i : Inst) : Option Nat :=
  match m.desc i.desc with
  | some x => if x.kind ≤ 1 then some (x.slot % 16) else none
  | none => none

/-- The instance a lane takes (R164, R165): within the list of the head with the earliest deadline, the first one at home here with the head's deadline, else the head. -/
def popChoice (m : Module) (l : Nat) : Option Inst :=
  let all := m.disp.insts.filter fun i => i.st == .ready
  let cand := if all.isEmpty then m.disp.insts.filter fun i => i.st == .late else all
  match firstInst cand with
  | none => none
  | some h =>
    match firstInst (cand.filter fun i => i.group == h.group && i.deadline == h.deadline && homeLane m i == some l) with
    | some i => some i
    | none => some h

end Sys2Proof.Machine
end

