-- ==== Sys2Proof/Machine/LaneIsa.lean ====
section
/-! DEFINITION. The lane instruction words: from the 32 bits to the operation (R137 to R142), with every undefined word refused. -/

namespace Sys2Proof.Machine

/-- A condition from its code (Table 4.11). -/
def condOf : Nat → Option Cond
  | 0 => some .al | 1 => some .eq | 2 => some .ne | 3 => some .lt | 4 => some .ge | 5 => some .gt | 6 => some .le
  | 7 => some .vs | 8 => some .vc | 9 => some .ts | 10 => some .tc | 11 => some .ss | 12 => some .sc
  | _ => none

/-- An A-type operation from its code (Table 4.8). -/
def aluOf : Nat → Option AluOp
  | 0x00 => some .add | 0x01 => some .sub | 0x02 => some .neg | 0x03 => some .abs | 0x04 => some .min | 0x05 => some .max
  | 0x06 => some .shr | 0x07 => some .shl | 0x08 => some .mov | 0x09 => some .movi | 0x0A => some .movh | 0x0B => some .cmp
  | 0x0C => some .sel | 0x0D => some .clmp | 0x0E => some .clmd | 0x0F => some .dbnd | 0x10 => some .tagt | 0x11 => some .tags
  | 0x12 => some .tago | 0x13 => some .atrn | 0x14 => some .aadd | 0x15 => some .asub | 0x16 => some .clrs | 0x17 => some .sqrt
  | 0x18 => some .tlkp
  | _ => none

/-- The operation takes a C operand at p0 + imm9 (R139). -/
def AluOp.hasC : AluOp → Bool
  | .clmp | .clmd | .dbnd | .sqrt => true
  | _ => false

/-- Issue cycles of an A-type operation (Table 4.8). -/
def AluOp.cycles : AluOp → Nat
  | .sqrt => 3
  | .tlkp => 4
  | _ => 1

/-- The immediate is one the operation defines: [11:9] of a C operand are 0, and SEL's condition is not reserved (R142). -/
def aluFieldsOk (op : AluOp) (f : AFields) : Bool :=
  (!op.hasC || decide (f.imm.val < 512)) && (match op with | .sel => (condOf (f.imm.val % 16)).isSome | _ => true)

/-- An L-type operation with an offset, from its code (Table 4.9). -/
def lsOf : Nat → Option LsOp
  | 0 => some .lds | 1 => some .sts | 2 => some .ldc | 3 => some .ldv | 4 => some .stv | 5 => some .sto
  | _ => none

/-- A number as a `Fin`. -/
def finOf (n v : Nat) [NeZero n] : Fin n := Fin.ofNat n v

/-- An M-type word (Table 4.5). -/
def decodeM (w : Nat) : LaneOp :=
  .mac { ad := finOf 4 (bits w 29 28), xs := finOf 16 (bits w 27 24), init := finOf 8 (bits w 23 21), neg := bit w 20, sat := bit w 19,
         wb := finOf 4 (bits w 18 17), xd := finOf 16 (bits w 16 13), c6 := finOf 64 (bits w 12 7), s7 := finOf 128 (bits w 6 0) }

/-- An A-type word (R139). -/
def decodeA (w : Nat) : Option LaneOp :=
  match aluOf (bits w 29 25) with
  | none => none
  | some op =>
    let f : AFields := { xd := finOf 16 (bits w 24 21), xa := finOf 16 (bits w 20 17), xb := finOf 16 (bits w 16 13), sat := bit w 12,
                         imm := finOf 4096 (bits w 11 0) }
    if aluFieldsOk op f then some (.alu op f) else none

/-- An L-type word (R140). -/
def decodeL (w : Nat) : Option LaneOp :=
  let x := finOf 16 (bits w 26 23)
  let p := finOf 4 (bits w 22 21)
  match lsOf (bits w 29 27) with
  | some op => if bits w 19 9 = 0 then some (.ls op { x := x, p := p, e := bit w 20, off := finOf 512 (bits w 8 0) }) else none
  | none =>
    if bits w 19 16 = 0 then
      some (.ptr (bit w 27) { x := x, p := p, imm := BitVec.ofNat 16 (bits w 15 0), e := bit w 20 })
    else none

/-- A K-type word (Table 4.10). -/
def decodeK (w : Nat) : Option LaneOp :=
  match bits w 29 26 with
  | 0 => if bits w 21 16 = 0 then (condOf (bits w 25 22)).map fun c => .b c (BitVec.ofNat 16 (bits w 15 0)) else none
  | 1 => if bits w 5 0 = 0 then some (.rpt (finOf 1024 (bits w 25 16)) (finOf 16 (bits w 15 12)) (finOf 64 (bits w 11 6))) else none
  | 2 =>
    if bits w 4 0 = 0 then
      some (.rptb (finOf 8 (bits w 25 23)) (finOf 256 (bits w 22 15)) (finOf 16 (bits w 14 11)) (finOf 64 (bits w 10 5)))
    else none
  | 3 => if bits w 25 0 = 0 then some .stop else none
  | 4 => if bits w 25 0 = 0 then some .nop else none
  | 8 => if bits w 25 16 = 0 then some (.lpsup (BitVec.ofNat 16 (bits w 15 0))) else none
  | 9 => if bits w 25 21 = 0 ∧ bits w 19 0 = 0 then some (.lpout (bit w 20)) else none
  | _ => none

/-- The operation of a word; none where R142 makes it undefined. -/
def laneDecode (w : Nat) : Option LaneOp :=
  match bits w 31 30 with
  | 0 => some (decodeM w)
  | 1 => decodeA w
  | 2 => decodeL w
  | _ => decodeK w

/-- The instruction ends its operation (R133). -/
def LaneOp.ends : LaneOp → Bool
  | .ls _ f => f.e
  | .ptr _ f => f.e
  | .stop => true
  | .lpout e => e
  | _ => false

/-- LPSUP and LPOUT, which only ROM holds (R142). -/
def LaneOp.romOnly : LaneOp → Bool
  | .lpsup _ => true
  | .lpout _ => true
  | _ => false

/-- Issue cycles of an instruction. -/
def LaneOp.cycles : LaneOp → Nat
  | .alu op _ => op.cycles
  | _ => 1

/-- The instruction is one that R142 defines. -/
def LaneOp.defined : LaneOp → Bool
  | .alu op f => aluFieldsOk op f
  | _ => true

/-- A pointer step of `n` bits (R128). -/
def stepOf (n v : Nat) : Int := sint n v

/-- Placements that R130 keeps out of delay slots and repeats. -/
def LaneOp.unplaceable : LaneOp → Bool
  | .b _ _ => true
  | .rpt _ _ _ => true
  | .rptb _ _ _ _ => true
  | .lpsup _ => true
  | o => o.ends

/-! ### Words from operations -/

/-- The code of a condition (Table 4.11). -/
def condCode : Cond → Nat
  | .al => 0 | .eq => 1 | .ne => 2 | .lt => 3 | .ge => 4 | .gt => 5 | .le => 6
  | .vs => 7 | .vc => 8 | .ts => 9 | .tc => 10 | .ss => 11 | .sc => 12

/-- The op of an A-type operation (Table 4.8). -/
def aluCode : AluOp → Nat
  | .add => 0x00 | .sub => 0x01 | .neg => 0x02 | .abs => 0x03 | .min => 0x04 | .max => 0x05
  | .shr => 0x06 | .shl => 0x07 | .mov => 0x08 | .movi => 0x09 | .movh => 0x0A | .cmp => 0x0B
  | .sel => 0x0C | .clmp => 0x0D | .clmd => 0x0E | .dbnd => 0x0F | .tagt => 0x10 | .tags => 0x11
  | .tago => 0x12 | .atrn => 0x13 | .aadd => 0x14 | .asub => 0x15 | .clrs => 0x16 | .sqrt => 0x17
  | .tlkp => 0x18

/-- The op of an L-type operation with an offset (Table 4.9). -/
def lsCode : LsOp → Nat
  | .lds => 0 | .sts => 1 | .ldc => 2 | .ldv => 3 | .stv => 4 | .sto => 5

/-- The word of an operation (R137 to R141). -/
def laneEncode : LaneOp → Nat
  | .mac f => f.ad.val * 2 ^ 28 + f.xs.val * 2 ^ 24 + f.init.val * 2 ^ 21 + b01 f.neg * 2 ^ 20 + b01 f.sat * 2 ^ 19 + f.wb.val * 2 ^ 17 +
      f.xd.val * 2 ^ 13 + f.c6.val * 2 ^ 7 + f.s7.val
  | .alu op f => 1 * 2 ^ 30 + aluCode op * 2 ^ 25 + f.xd.val * 2 ^ 21 + f.xa.val * 2 ^ 17 + f.xb.val * 2 ^ 13 + b01 f.sat * 2 ^ 12 + f.imm.val
  | .ls op f => 2 * 2 ^ 30 + lsCode op * 2 ^ 27 + f.x.val * 2 ^ 23 + f.p.val * 2 ^ 21 + b01 f.e * 2 ^ 20 + f.off.val
  | .ptr add f => 2 * 2 ^ 30 + (6 + b01 add) * 2 ^ 27 + f.x.val * 2 ^ 23 + f.p.val * 2 ^ 21 + b01 f.e * 2 ^ 20 + f.imm.toNat
  | .b c t => 3 * 2 ^ 30 + condCode c * 2 ^ 22 + t.toNat
  | .rpt n s1 s2 => 3 * 2 ^ 30 + 1 * 2 ^ 26 + n.val * 2 ^ 16 + s1.val * 2 ^ 12 + s2.val * 2 ^ 6
  | .rptb k n s1 s2 => 3 * 2 ^ 30 + 2 * 2 ^ 26 + k.val * 2 ^ 23 + n.val * 2 ^ 15 + s1.val * 2 ^ 11 + s2.val * 2 ^ 5
  | .stop => 3 * 2 ^ 30 + 3 * 2 ^ 26
  | .nop => 3 * 2 ^ 30 + 4 * 2 ^ 26
  | .lpsup t => 3 * 2 ^ 30 + 8 * 2 ^ 26 + t.toNat
  | .lpout e => 3 * 2 ^ 30 + 9 * 2 ^ 26 + b01 e * 2 ^ 20

end Sys2Proof.Machine
end

