-- ==== Sys2Proof/Machine/Operands.lean ====
section
/-! DEFINITION. Operand forms of the lanes: registers, the C, S and V buses (R116, R119, R122), stores and staging (R140, R148, R149). -/

namespace Sys2Proof.Machine

/-! ### Registers (R114) -/

def RegBank.xr (b : RegBank) (i : Nat) : Q := Sparse.get (fun _ => 0) b.x i
/-- An x register as an integer. -/
def RegBank.xi (b : RegBank) (i : Nat) : Int := (b.xr i).toInt
def RegBank.tr (b : RegBank) (i : Nat) : BitVec 12 := Sparse.get (fun _ => 0) b.t i
def RegBank.ar (b : RegBank) (i : Nat) : Int := (Sparse.get (fun _ => (0 : Acc)) b.a i).toInt
def RegBank.pr (b : RegBank) (i : Nat) : BitVec 16 := Sparse.get (fun _ => 0) b.p i
/-- A word that LDV has read, by the offset of its address cell. -/
def RegBank.rawOf (b : RegBank) (off : Nat) : Word := Sparse.get (fun _ => 0) b.raw off

def RegBank.setX (i : Nat) (v : Int) (b : RegBank) : RegBank := { b with x := Sparse.set (fun _ => 0) b.x i (BitVec.ofInt 20 v) }
def RegBank.setT (i : Nat) (v : BitVec 12) (b : RegBank) : RegBank := { b with t := Sparse.set (fun _ => 0) b.t i v }
def RegBank.setA (i : Nat) (v : Int) (b : RegBank) : RegBank := { b with a := Sparse.set (fun _ => 0) b.a i (BitVec.ofInt 48 v) }
def RegBank.setP (i : Nat) (v : BitVec 16) (b : RegBank) : RegBank := { b with p := Sparse.set (fun _ => 0) b.p i v }
def RegBank.setRaw (off : Nat) (w : Word) (b : RegBank) : RegBank := { b with raw := Sparse.set (fun _ => 0) b.raw off w }

/-- A bank of a lane. -/
def Lane.bank (l : Lane) (which : Bool) : RegBank := if which then l.bank1 else l.bank0
def Lane.modBank (which : Bool) (f : RegBank → RegBank) (l : Lane) : Lane :=
  if which then { l with bank1 := f l.bank1 } else { l with bank0 := f l.bank0 }

/-- The bank entered by an operation (R115). -/
def entryBank (m : Module) (c : OpCtx) : RegBank :=
  let p1 := match c.slot with | some n => setBase (m.activeSet n) | none => 0x060
  ((RegBank.clear.setP 1 (BitVec.ofNat 16 p1)).setP 2 0x180).setP 3 (BitVec.ofNat 16 c.arg)

/-! ### C and S buses -/

/-- A C or S address: (pointer + offset) mod 512 (R116). -/
def busAddr (p : BitVec 16) (off : Nat) : Nat := (p.toNat + off) % 512

/-- Bytes read over C or S; an operation with no slot reads 00h (Table 5.1). -/
def busRead (m : Module) (c : OpCtx) (addr len : Nat) : Nat :=
  match c.slot with
  | some n => m.memN n addr len
  | none => 0

/-- A value cell over C or S. -/
def busQ (m : Module) (c : OpCtx) (addr : Nat) : Int := sint 20 (busRead m c addr 3)

/-- The multiplicand of the two D modes (R122), already multiplied by the coefficient and shifted. -/
def dProduct (high : Bool) (d coeff : Int) : Int :=
  if high then coeff * (d / 2 ^ 20) * 8 else coeff * (d % 2 ^ 20) / 2 ^ 17

/-- A cell that the module keeps for itself, in which no image kernel may store (R148). -/
def moduleCell (off : Nat) : Bool := decide (off % 512 < 0x60) || off % 512 == 0x1F2 || range 0x1F5 0x1F8 (off % 512)

/-- An S store; an image kernel's store to the module's cells is suppressed and counted (R148); an operation with no slot discards it. -/
def busWrite (c : OpCtx) (addr len v : Nat) (m : Module) : Module :=
  match c.slot with
  | none => m
  | some n =>
    if c.kernel != 0 && (List.range len).any (fun i => moduleCell (addr + i)) then m.bump Ent.laneStoresSuppressed
    else setMem n addr len v m

/-! ### V bus -/

/-- The producer word that input `k` of a MOVE copies; none where it has none (Table 5.1). -/
def moveSource (m : Module) (c : OpCtx) (k : Nat) : Option Nat :=
  match m.desc c.desc with
  | none => none
  | some x =>
    match x.names[k]? with
    | none => none
    | some p =>
      if absentInput m x p then none
      else match m.desc p with
        | some y => if y.rcnt = 0 then none else some y.res
        | none => none

/-- The word address that an address cell names; a MOVE's cells are its inputs and results by number [DEDUCED: log 21]. -/
def cellTarget (m : Module) (c : OpCtx) (store : Bool) (addr : Nat) : Option Nat :=
  if c.kind = 2 then (if store then (if addr < c.rcnt then some ((c.res + addr) % 2 ^ 18) else none) else moveSource m c addr)
  else
    let a := busRead m c addr 3
    if a = 0xFFFFFF then none else some (a % 2 ^ 18)

/-- {t[11:4], group, parity, x} (R140). -/
def laneWord (c : OpCtx) (t : BitVec 12) (x : Int) : Word :=
  mkWord (t.toNat / 16) c.group (parityOf c.group c.epoch) (BitVec.ofInt 20 x)

/-- STV: straight into the process image, to the descriptor's result words alone (R149); a force applies (R233). -/
def storeV (c : OpCtx) (target : Option Nat) (w : Word) (m : Module) : Module :=
  match target with
  | none => m
  | some a => if c.res ≤ a ∧ a < c.res + c.rcnt then putForced a w m else m.bump Ent.laneStoresSuppressed

/-- The W stage of an instruction issued in a cycle (Table 4.3). -/
def finishCycle (index : Nat) : Nat := index + 4

/-- STO: stage the word for the output writer. An image kernel stages only through cells 014h and 01Dh (R149). -/
def stageV (c : OpCtx) (addr : Nat) (target : Option Nat) (w : Word) (at_ : Nat) (m : Module) : Module :=
  match c.slot with
  | none => m
  | some n =>
    let k := m.runKey n c.epoch
    if addr = 0x14 then (if target.isNone then m else modSlotRun k (fun r => { r with staged := some w, finish := some at_ }) m)
    else if addr = 0x1D then (if target.isNone then m else modSlotRun k (fun r => { r with spStaged := some w }) m)
    else if target.isNone then m
    else if c.kernel != 0 then m.bump Ent.laneStoresSuppressed else m

/-! ### The kernel image (Table 4.12) -/

/-- Instruction count and entry count of an image, and the word of an index. -/
def kimgCount (bs : List Byte) : Nat := leAt bs 8 2
def kimgEntries (bs : List Byte) : Nat := leAt bs 10 2
def kimgWord (bs : List Byte) (i : Nat) : Nat := leAt bs (32 + 8 * kimgEntries bs + 4 * i) 4
/-- Word offset and declared cost of entry k. -/
def kimgOffset (bs : List Byte) (k : Nat) : Nat := leAt bs (32 + 8 * (k - 1)) 2
def kimgCost (bs : List Byte) (k : Nat) : Nat := leAt bs (32 + 8 * (k - 1) + 2) 2
/-- The live image; none while the kernel image function has none in use. -/
def Module.kimg (m : Module) : List Byte := if m.active fnKernel then m.cfgB Ent.kimgImage else []

/-- Where an address lies (R143): in ROM, in the live image, or nowhere. -/
inductive PcIn where
  | rom | image (w : Nat) | nowhere
  deriving DecidableEq, Repr

/-- What issuing from an address meets (R135, R143). -/
def pcIn (m : Module) (pc : Nat) : PcIn :=
  if pc < 0x8000 then .rom
  else if pc < 0x8000 + kimgCount m.kimg then .image (kimgWord m.kimg (pc - 0x8000))
  else .nowhere

end Sys2Proof.Machine
end

