-- ==== Sys2Proof/Machine/Flags.lean ====
section
/-! DEFINITION. Flag computations of the lanes (R123), and the conditions of Table 4.11. -/

namespace Sys2Proof.Machine

/-- A condition on the flags (Table 4.11). -/
def Cond.holds (c : Cond) (f : Flags) : Bool :=
  match c with
  | .al => true
  | .eq => f.z
  | .ne => !f.z
  | .lt => f.n
  | .ge => !f.n
  | .gt => !f.n && !f.z
  | .le => f.n || f.z
  | .vs => f.v
  | .vc => !f.v
  | .ts => f.t
  | .tc => !f.t
  | .ss => f.sv
  | .sc => !f.sv

/-- V and SV after an instruction with SAT set; one with SAT clear leaves them (R123). -/
def Flags.sat (satBit acted : Bool) (f : Flags) : Flags :=
  if satBit then { f with v := acted, sv := f.sv || acted } else f

/-- N and Z of a result (R123). -/
def Flags.nz (r : Int) (f : Flags) : Flags := { f with n := decide (r < 0), z := decide (r = 0) }

/-- The A-type operations that set N and Z (R123). -/
def AluOp.setsNZ : AluOp → Bool
  | .tagt | .tags | .tago | .clrs | .aadd | .asub => false
  | _ => true

/-- The A-type operations that write xd. -/
def AluOp.writesX : AluOp → Bool
  | .cmp | .tagt | .tags | .tago | .aadd | .asub | .clrs => false
  | _ => true

/-- The flags after an A-type instruction with result `r`. -/
def aluFlags (op : AluOp) (satBit acted tag : Bool) (r : Int) (f : Flags) : Flags :=
  let f := if op.setsNZ then f.nz r else f
  let f := f.sat satBit acted
  match op with
  | .tagt => { f with t := tag }
  | .clrs => { f with sv := false }
  | _ => f

end Sys2Proof.Machine
end

