-- ==== Sys2Proof/Machine/LaneSup.lean ====
section
/-! DEFINITION. What LPSUP and LPOUT carry out for a standard loop (R146): PV, setpoint, modes, supervision and anti-windup (R85 to R90, R93, R98 to R100, R103 to R105, R110), limits, presets and status (R92, R96, R99). -/

namespace Sys2Proof.Machine

/-- PV selection (Table 3.3): value, whether the word used carries OVR or UNDR, and whether word 2 was used under FIRST_VALID; none when no good word remains. -/
def pvSelect (sel : Nat) (w1 w2 : Word) : Option (Int × Bool × Bool) :=
  let r := fun w => wOvr w || wUndr w
  if sel = 1 then
    (if wValid w1 then some (wInt w1, r w1, false) else if wValid w2 then some (wInt w2, r w2, true) else none)
  else if sel = 2 then
    (if wValid w1 && wValid w2 then some ((wInt w1 + wInt w2) / 2, r w1 || r w2, false)
     else if wValid w1 then some (wInt w1, r w1, false)
     else if wValid w2 then some (wInt w2, r w2, false) else none)
  else if wValid w1 then some (wInt w1, r w1, false) else none

/-- The actual mode from latches and request (R98). -/
def resolveMode (lat req : Nat) (casInit innerCas : Bool) : Nat :=
  if Nat.land lat 0x0A != 0 then 4
  else if Nat.land lat 0x15 != 0 then 0
  else if req == 2 && bit lat 5 then 1
  else if casInit && (req == 1 || req == 2) && !innerCas then 3
  else req

/-- The law runs in AUTO and CAS. -/
def inLaw (mode : Nat) : Bool := mode == 1 || mode == 2

/-- Bits of the latch byte whose cause has ended (Table 3.8). -/
def endedCauses (pvGood feAlarm groupActive casGood : Bool) : Nat :=
  flagIf pvGood 0x03 + flagIf (!feAlarm) 0x0C + flagIf (!groupActive) 0x10 + flagIf casGood 0x20

/-- The effective setpoint of a period (R89, R90). -/
def effSetpoint (mode : Nat) (pvTrack : Bool) (local_ cas pv prev lo hi ramp : Int) : Int :=
  if mode = 2 then clampI cas lo hi
  else if mode = 1 then
    let t := clampI local_ lo hi
    if ramp = 0 then t else max (prev - ramp) (min t (prev + ramp))
  else if pvTrack then pv else local_

/-- What LPSUP finds and hands on. -/
structure SupOut where
  sup : Sup
  /-- The integrator multiplicand (x11), the effective setpoint (x6) and the feed-forward value (x2). -/
  x11 : Int
  spEff : Int
  /-- Slot cells written at once: offset, bytes, value. -/
  cells : List (Nat × Nat × Nat)
  /-- Status cells and events of the period. -/
  status : List (Nat × Nat × Nat)
  codes : List Nat

/-- Codes whose condition stands. -/
def codesIf (l : List (Bool × Nat)) : List Nat := (l.filter Prod.fst).map Prod.snd

/-- LPSUP's computation (R146) for a slot: `r` is the period's record, `b` the lane's register bank. -/
def supervise (m : Module) (n : Nat) (r : SlotRun) (b : RegBank) : SupOut :=
  let opts := m.cfg (Ent.loopOptions n)
  let direct := bit opts 0
  let dOnErr := bit opts 1
  let pvTrack := bit opts 2
  let casInit := bit opts 3
  let outW := b.rawOf 0x14
  let casW := b.rawOf 0x0E
  let trackW := b.rawOf 0x17
  let rbW := b.rawOf 0x1A
  let ffW := b.rawOf 0x11
  let oPrev := wInt outW
  let prevFlags := m.memN n 0x1F0 2
  let prevMode := m.memN n 0x06 1
  -- PV (R85, R86)
  let sel := pvSelect (m.cfg (Ent.loopPvSelect n)) (b.rawOf 0x08) (b.rawOf 0x0B)
  let pvBad := sel.isNone
  let epoch := r.epoch.getD 0
  let ch := match sel with
    | some (x, _, _) => characteristic (m.cfg (Ent.loopPvChar n)) (m.cfgQ (Ent.loopCharGain n)) (m.cfgQ (Ent.loopCharOffset n))
        (m.cfgQ (Ent.loopSqrtCutoff n)) (m.tablePts (m.cfg (Ent.loopPvTable n)) epoch) x
    | none => (m.cellQ n 0x191, false)
  let pv := ch.1
  let pvRange := match sel with | some (_, rng, _) => rng || ch.2 | none => false
  let pv2 := match sel with | some (_, _, u2) => u2 | none => false
  -- feed-forward (R88)
  let ffOn := isAddr (m.cfg (Ent.loopFfAddr n))
  let ffBad := ffOn && !wValid ffW
  let ff := if !ffOn then 0 else if wValid ffW then wInt ffW else m.cellQ n 0x1FD
  -- mode request and latches (R98, R104)
  let req := r.req0
  let lat0 := m.memN n 0x07 1
  let g := m.cfg (Ent.loopGroup n) % 8
  let ended := endedCauses (!pvBad) (bit prevFlags 6) (m.stat (Ent.groupOverrunActive g) != 0) (wValid casW)
  let cleared := if r.modeReq then Nat.land lat0 ended else 0
  let lat1 := lat0 - cleared
  let reqHeld := r.modeReq && lat1 != 0
  let res := fun lat => resolveMode lat req casInit r.innerCas
  let m0 := res lat1
  let shed := m0 == 2 && !wValid casW
  let policy := m.cfg (Ent.loopStalePolicy n)
  let lat2 := Nat.lor (Nat.lor lat1 (flagIf (inLaw m0 && pvBad) (if policy = 1 then 1 else if policy = 2 then 2 else 0))) (flagIf shed 0x20)
  let m1 := res lat2
  -- setpoint and error (R89, R90, R92)
  let spPrev := m.cellQ n 0x18E
  let local0 := if shed then spPrev else r.sp0
  let sp := fun mode => effSetpoint mode pvTrack local0 (wInt casW) pv spPrev (m.cfgQ (Ent.loopSpLo n)) (m.cfgQ (Ent.loopSpHi n)) (m.cfgQ (Ent.loopSpRamp n))
  let err := fun mode => if direct then pv - sp mode else sp mode - pv
  -- following error (R105)
  let feLimit := m.cfgQ (Ent.loopFeLimit n)
  let e1 := satInt 20 (err m1)
  let count := if decide (0 < feLimit) && inLaw m1 && decide (feLimit < (e1.natAbs : Int)) then min 65535 (m.memN n 0x1F3 2 + 1) else 0
  let reached := decide (0 < feLimit) && inLaw m1 && decide (m.cfg (Ent.loopFeTime n) ≤ count)
  let alarm := reached || (bit prevFlags 6 && count != 0)
  let act := m.cfg (Ent.loopFeAction n)
  let lat3 := Nat.lor lat2 (flagIf reached (if act = 1 then 4 else if act = 2 then 8 else 0))
  let mode := res lat3
  let spEff := sp mode
  let eRaw := satInt 20 (err mode)
  let eSat := satActs 20 (err mode)
  let mIn := if dOnErr then eRaw else if direct then pv else satInt 20 (-pv)
  let e := if (eRaw.natAbs : Int) ≤ m.cfgQ (Ent.loopDeadband n) then 0 else eRaw
  -- what fixes the output (R99, R100, R103, R104, R110)
  let overridden := wIntlk outW || wForced outW
  let hold := inLaw mode && pvBad && !overridden && !r.first
  let manLatched := Nat.land lat3 0x15 != 0
  let entering := mode == 0 && (prevMode != 0 || r.first)
  let manOut := if entering && (manLatched || r.first || !r.manWrite) then oPrev else r.man0
  let outLo := m.cfgQ (Ent.loopOutLo n)
  let outHi := m.cfgQ (Ent.loopOutHi n)
  let fixed := if overridden then oPrev
    else if mode = 0 then clampI manOut outLo outHi
    else if mode = 3 then (if wValid trackW then clampI (wInt trackW) outLo outHi else oPrev)
    else if mode = 4 then m.cfgQ (Ent.loopSafeValue n)
    else oPrev
  let path := if overridden || !inLaw mode then 1 else if r.first then 5
    else if hold then (if r.swapped then 4 else 3) else if r.swapped then 2 else 0
  let mPrev := if r.first || (r.wasHeld && !hold) then mIn else m.cellQ n 0x18B
  let dm := satInt 20 (mIn - mPrev)
  -- anti-windup (R93)
  let compl := wCompl outW
  let rbGood := wValid rbW
  let complHi := compl && (!rbGood || decide (wInt rbW < oPrev))
  let complLo := compl && rbGood && decide (oPrev < wInt rbW)
  let hiPrev := bit prevFlags 0 || complHi
  let loPrev := bit prevFlags 1 || complLo
  let ki := sint 20 (m.memN n (busAddr (b.pr 1) 3) 3)
  let x11 := if (hiPrev && decide (0 < ki * e)) || (loPrev && decide (ki * e < 0)) then 0 else e
  let arith := (!dOnErr && !direct && satActs 20 (-pv)) || satActs 20 (mIn - mPrev)
  let fl := flagIf r.first flFIRST + flagIf (mode == 3 && !wValid trackW) flTRACKBAD + flagIf pv2 flPV2 + flagIf arith flARITH +
    flagIf eSat flESAT + flagIf reqHeld flREQHELD + flagIf hold flHELD + flagIf overridden flOVERRIDDEN + flagIf alarm flFE +
    flagIf ffBad flFFBAD + flagIf (req == 2 && !wValid casW) flSPBAD + flagIf pvRange flPVRANGE + flagIf pvBad flPVBAD
  let tracks := pvTrack && !inLaw mode
  { sup := { path := path, mode := mode, fixed := fixed, oPrev := oPrev, e := e, dm := dm, ff := ff, complHi := complHi, complLo := complLo,
             subst := mode == 4, flags := fl }
    x11 := x11, spEff := spEff
    cells := (if tracks then [(0x4E, 3, valueCode pv)] else if shed then [(0x4E, 3, valueCode local0)] else []) ++
      (if entering then [(0x51, 3, valueCode manOut)] else []) ++ [(0x1F3, 2, count)] ++
      (if ffOn && !ffBad then [(0x1FD, 3, valueCode ff)] else []) ++ (if hold then [] else [(0x18B, 3, valueCode mIn)])
    status := [(0x06, 1, mode), (0x07, 1, lat3), (0x18E, 3, valueCode spEff), (0x191, 3, valueCode pv), (0x194, 3, valueCode e)] ++
      (if pvBad then [(0x1F9, 4, min (2 ^ 32 - 1) (m.memN n 0x1F9 4 + 1))] else [])
    codes := codesIf [(pvBad && inLaw m0 && !(bit prevFlags 2 && inLaw prevMode), 0x0301), (!pvBad && bit prevFlags 2, 0x0302),
      (alarm && !bit prevFlags 6, 0x0303), (!alarm && bit prevFlags 6, 0x0304), (mode != prevMode, 0x0305), (r.swapped, 0x0306),
      (cleared != 0, 0x0307)] }

/-- LPSUP in its A stage: cells and registers; it branches to the preset path where the output is not the law's. -/
def supBank (o : SupOut) (b : RegBank) : RegBank :=
  let b := ((b.setX 9 o.sup.e).setX 10 o.sup.dm).setX 11 o.x11
  let b := ((b.setX 6 o.spEff).setT 6 0x800).setX 2 o.sup.ff
  { b with sup := some o.sup }

def supMem (n k : Nat) (o : SupOut) (m : Module) : Module :=
  modSlotRun k (fun r => { r with status := o.status, codes := o.codes }) (setCells n o.cells m)

/-- The preset of R99 and R103: the cells of integrator and sections for a controller output `wt`, with p and d. -/
def presetCells (n base sections : Nat) (wt p d : Int) (m : Module) : List (Nat × Nat × Nat) × Bool :=
  let q := fun off => sint 20 (m.memN n (base + off) 3)
  let i := wt * 2 ^ 17 - p - d
  let secs := (List.range sections).flatMap fun j =>
    let c := 0x0F + 15 * j
    let s1 := wt * 2 ^ 17 - q c * wt
    let s2 := q (c + 6) * wt - q (c + 12) * wt
    [((0x1A0 + 10 * j, 5, uint 40 (satInt 40 s1)), satActs 40 s1), ((0x1A5 + 10 * j, 5, uint 40 (satInt 40 s2)), satActs 40 s2)]
  ((0x180, 6, uint 48 (satInt 48 i)) :: secs.map Prod.fst, satActs 48 i || secs.any Prod.snd)

/-- What LPOUT finds: output, controller output, unclamped output, cells to write, and whether a saturation acted. -/
structure OutRes where
  o : Int
  w : Int
  un : Int
  cells : List (Nat × Nat × Nat)
  arith : Bool

/-- The limits of R92. -/
def limitOut (un oPrev rate lo hi : Int) : Int :=
  let o := if 0 < rate then max (oPrev - rate) (min un (oPrev + rate)) else un
  clampI o lo hi

/-- LPOUT's computation: the law's end, or the preset the period calls for. -/
def outCompute (m : Module) (n : Nat) (s : Sup) (b : RegBank) : OutRes :=
  let base := busAddr (b.pr 1) 0
  let q := fun off => sint 20 (m.memN n (base + off) 3)
  let lim := fun un => limitOut un s.oPrev (m.cfgQ (Ent.loopOutRate n)) (m.cfgQ (Ent.loopOutLo n)) (m.cfgQ (Ent.loopOutHi n))
  let p := q 0 * s.e
  let dRaw := kdTerm (q 9) (m.cell40 n 0x186) + q 6 * s.dm
  let d := satInt 40 dRaw
  let secs := m.cfg (Ent.loopSections n)
  let kff := q 0x0C
  let unOf := fun w => w * 2 ^ 17 + kff * s.ff
  let dCell := (0x186, 5, uint 40 d)
  let wPrev := m.cellQ n 0x197
  if s.path = 0 then
    let un := b.xi 7
    { o := lim un, w := b.w.toInt, un := un, cells := [], arith := b.flags.sv }
  else if s.path = 2 then
    let pc := presetCells n base secs wPrev p d m
    let un := qTrunc (unOf wPrev)
    { o := lim un, w := wPrev, un := un, cells := dCell :: pc.1, arith := pc.2 || satActs 40 dRaw || satActs 20 (trunc17 (unOf wPrev)) }
  else if s.path = 3 then
    { o := s.oPrev, w := wPrev, un := m.cellQ n 0x19D, cells := [], arith := false }
  else if s.path = 4 then
    let pc := presetCells n base secs wPrev p d m
    { o := s.oPrev, w := wPrev, un := m.cellQ n 0x19D, cells := pc.1, arith := pc.2 || satActs 40 dRaw }
  else
    let wtRaw := s.fixed - qTrunc (kff * s.ff)
    let wt := satInt 20 wtRaw
    let pc := presetCells n base secs wt p d m
    { o := s.fixed, w := wt, un := qTrunc (unOf wt), cells := dCell :: pc.1,
      arith := pc.2 || satActs 40 dRaw || satActs 20 wtRaw || satActs 20 (trunc17 (kff * s.ff)) || satActs 20 (trunc17 (unOf wt)) }

/-- LPOUT in its W stage: the output is staged with the tag of Table 3.7, and the status cells of the period are made ready (R96). -/
def supOut (m : Module) (c : OpCtx) (n at_ : Nat) (b : RegBank) (acc : Module) : Module :=
  match b.sup with
  | none => acc
  | some s =>
    let k := m.runKey n c.epoch
    let o := outCompute m n s b
    let fl := Nat.lor s.flags (flagIf o.arith flARITH + flagIf (decide (o.o < o.un) || s.complHi) flSATHI + flagIf (decide (o.un < o.o) || s.complLo) flSATLO)
    let w := mkWord (if s.subst then sSUBST else sVALID) c.group (parityOf c.group c.epoch) (BitVec.ofInt 20 o.o)
    let sp := (m.slotRun k).status.find? fun x => x.1 == 0x18E
    let spw := sp.map fun x => mkWord sVALID c.group (parityOf c.group c.epoch) (BitVec.ofNat 20 x.2.2)
    let held := s.path == 3 || s.path == 4
    let more := [(0x1F0, 2, fl), (0x197, 3, valueCode o.w), (0x19A, 3, valueCode o.o), (0x19D, 3, valueCode o.un)]
    let acc := setCells n o.cells acc
    let acc := if n = k then acc else modSlotRun n (fun r => { r with wasHeld := held }) acc
    modSlotRun k (fun r => { r with staged := some w, spStaged := spw, finish := some at_, wasHeld := held, status := r.status ++ more }) acc

end Sys2Proof.Machine
end

