-- ==== Sys2Proof/Machine/Basalt.lean ====
section
/-! DEFINITION. The lane pipeline (R124 to R129), the lane instructions (R137 to R146), and the ends of an operation (R131 to R136). -/

namespace Sys2Proof.Machine

/-! ### Arithmetic of one instruction -/

/-- The accumulator width that SAT saturates to (R120). -/
def macWidth (wb : Nat) : Nat := if wb = 2 then 40 else 48

/-- The accumulate stage (R120): the new accumulator and whether a saturation acted. -/
def macAcc (f : MFields) (init prod : Int) : Int × Bool :=
  let r := if f.neg then init - prod else init + prod
  if f.sat then (satInt (macWidth f.wb.val) r, satActs (macWidth f.wb.val) r) else (sint 48 (uint 48 r), false)

/-- Truncation of an accumulator into an x register (R121): the value and whether a saturation acted. -/
def accToX (sat : Bool) (a : Int) : Int × Bool :=
  let v := trunc17 a
  if sat then (satInt 20 v, satActs 20 v) else (sint 20 (uint 20 v), false)

/-- A 21-bit result brought to 20 bits (R139). -/
def aluFit (sat : Bool) (r : Int) : Int × Bool :=
  if sat then (satInt 20 r, satActs 20 r) else (sint 20 (uint 20 r), false)

/-- The exact result of an A-type operation that works in M (Table 4.8): `c` and `c2` are the C cell and the one above it, `pts` the table of TLKP, `fl` the flags. -/
def aluExact (op : AluOp) (f : AFields) (xa xb xd c c2 : Int) (pts : List Int) (fl : Flags) : Int :=
  match op with
  | .add => xa + xb
  | .sub => xa - xb
  | .neg => -xa
  | .abs => if xa < 0 then -xa else xa
  | .min => if xa ≤ xb then xa else xb
  | .max => if xa ≤ xb then xb else xa
  | .shr => xa / 2 ^ (f.imm.val % 32)
  | .shl => xa * 2 ^ (f.imm.val % 32)
  | .mov => xa
  | .movi => sint 12 f.imm.val
  | .movh => sint 20 (f.imm.val * 256 + uint 20 xd % 256)
  | .cmp => xa - xb
  | .sel => if (match condOf (f.imm.val % 16) with | some k => k.holds fl | none => false) then xa else xb
  | .clmp => clampI xa c2 c
  | .clmd => clampI xa (xb - c) (xb + c)
  | .dbnd => if (xa.natAbs : Int) ≤ c then 0 else xa
  | .sqrt => rootChar xa c
  | .tlkp => interpolate pts xa
  | .tagt | .tags | .tago | .atrn | .aadd | .asub | .clrs => 0

/-- The result written, and whether a saturation acted; CMP keeps its 21-bit difference, TLKP saturates by R87. -/
def aluResult (op : AluOp) (f : AFields) (xa xb xd c c2 : Int) (pts : List Int) (fl : Flags) : Int × Bool :=
  let r := aluExact op f xa xb xd c c2 pts fl
  match op with
  | .cmp => (r, false)
  | .tlkp => (r, f.sat && interpSat pts xa)
  | _ => aluFit f.sat r

/-- The operation works in the A stage (R124, R125). -/
def AluOp.inA : AluOp → Bool
  | .atrn | .aadd | .asub => true
  | _ => false

/-! ### Stages

Each stage first reads what stood before the cycle (`readStage`), then writes (`writeStage`); the writes of a cycle are made from the oldest instruction to the youngest, so the later-issued one stands (R126). -/

/-- The D stage: pointers read, addresses formed, C operand and M-type S cell read (R124). -/
def readD (m : Module) (b : RegBank) (f : InFlight) : InFlight :=
  let p := fun i => if i = 1 then b.pr 1 + BitVec.ofInt 16 f.step1 else if i = 2 then b.pr 2 + BitVec.ofInt 16 f.step2 else b.pr i
  match f.op with
  | .mac x =>
    let sa := busAddr (p 2) x.s7.val
    let s := match x.init.val with
      | 2 | 6 | 7 => sint 40 (busRead m f.ctx sa 5)
      | 3 => sint 48 (busRead m f.ctx sa 6)
      | 4 => busQ m f.ctx sa
      | _ => 0
    { f with addr := sa, c := busQ m f.ctx (busAddr (p 1) (3 * x.c6.val)), s := s }
  | .alu op x =>
    if op.hasC then
      let ca := busAddr (p 0) x.imm.val
      { f with addr := ca, c := busQ m f.ctx ca, c2 := busQ m f.ctx ((ca + 3) % 512) }
    else f
  | .ls _ x => { f with addr := busAddr (p x.p.val) x.off.val }
  | _ => f

/-- The M stage's reads (R124). -/
def readM (m : Module) (b : RegBank) (f : InFlight) : InFlight :=
  match f.op with
  | .mac x =>
    let v := match x.init.val with
      | 6 => dProduct true f.s f.c
      | 7 => dProduct false f.s f.c
      | _ => b.xi x.xs.val * f.c
    { f with v := v }
  | .alu op x =>
    if op.inA then f
    else
      let r := aluResult op x (b.xi x.xa.val) (b.xi x.xb.val) (b.xi x.xd.val) f.c f.c2 (m.tablePts (x.imm.val % 256) f.ctx.epoch) b.flags
      let t := match op with
        | .mov => (b.tr x.xa.val).toNat
        | .tags => x.imm.val
        | .tago => Nat.lor (b.tr x.xa.val).toNat x.imm.val
        | .tagt => Nat.land (b.tr x.xa.val).toNat x.imm.val
        | _ => 0
      { f with v := r.1, sat := r.2, tag := t }
  | .ls op x =>
    match op with
    | .lds | .ldc => { f with v := busQ m f.ctx f.addr }
    | .ldv => match cellTarget m f.ctx false f.addr with
      | some a => { f with v := wInt (m.word a), tag := (wTag (m.word a)).toNat }
      | none => { f with v := 0, tag := 0 }
    | .sts => { f with v := b.xi x.x.val }
    | .stv | .sto => match cellTarget m f.ctx true f.addr with
      | some a => { f with v := b.xi x.x.val, tag := (b.tr x.x.val).toNat, c := (a : Int) }
      | none => { f with v := b.xi x.x.val, tag := (b.tr x.x.val).toNat, c := -1 }
  | .b c _ => { f with tag := b01 (c.holds b.flags) }
  | _ => f

/-- The accumulators an ATRN sums (Table 4.8). -/
def atrnSum (b : RegBank) (sel : Nat) : Int := (List.range 4).foldl (fun s k => if bit sel k then s + b.ar k else s) 0

/-- The A stage's reads. -/
def readA (_m : Module) (b : RegBank) (f : InFlight) : InFlight :=
  match f.op with
  | .mac x =>
    let init := match x.init.val with
      | 0 | 6 | 7 => b.ar x.ad.val
      | 1 => 0
      | 2 | 3 => f.s
      | 4 => f.s * 2 ^ 17
      | _ => b.xi x.xd.val * 2 ^ 17
    let r := macAcc x init f.v
    { f with v := r.1, sat := r.2, c2 := b.xi x.xd.val }
  | .alu op x =>
    match op with
    | .atrn =>
      let s := atrnSum b (x.imm.val % 16)
      let a := if x.sat then satInt 48 s else sint 48 (uint 48 s)
      let r := accToX x.sat a
      { f with v := r.1, sat := r.2 || (x.sat && satActs 48 s) }
    | .aadd => { f with v := b.ar (x.xa.val % 4) + b.ar (x.xb.val % 4), sat := false }
    | .asub => { f with v := b.ar (x.xa.val % 4) - b.ar (x.xb.val % 4), sat := false }
    | _ => f
  | _ => f

/-- The stage's reads, from the state before the cycle. -/
def readStage (m : Module) (l : Nat) (f : InFlight) : InFlight :=
  let b := (m.lane l).bank f.bank
  match f.stage with
  | 1 => readD m b f
  | 2 => readM m b f
  | 3 => readA m b f
  | _ => f

/-- Change the register bank an instruction works in. -/
def onBank (l : Nat) (f : InFlight) (g : RegBank → RegBank) (m : Module) : Module := modLane l (fun x => x.modBank f.bank g) m

/-- The D stage's writes: pointer steps, LDP and ADDP. -/
def writeD (l : Nat) (f : InFlight) (m : Module) : Module :=
  let m := if f.step1 = 0 ∧ f.step2 = 0 then m else
    onBank l f (fun b => (b.setP 1 (b.pr 1 + BitVec.ofInt 16 f.step1)).setP 2 (b.pr 2 + BitVec.ofInt 16 f.step2)) m
  match f.op with
  | .ptr add x => onBank l f (fun b => b.setP x.p.val (if add then b.pr x.p.val + x.imm else x.imm)) m
  | _ => m

/-- Issue goes to an address after the delay slots, or at once where they have been issued (R127). -/
def branchTo (l target : Nat) (m : Module) : Module :=
  modLane l (fun x => if x.op.isNone then x else if x.delay = 0 then { x with pc := target } else { x with target := some target }) m

/-- The M stage's writes. -/
def writeM (l : Nat) (f : InFlight) (m : Module) : Module :=
  match f.op with
  | .alu op x =>
    if op.inA then m
    else
      onBank l f (fun b =>
        let b := if op.writesX then b.setX x.xd.val f.v else b
        let b := match op with
          | .mov | .tags | .tago => b.setT x.xd.val (BitVec.ofNat 12 f.tag)
          | _ => b
        { b with flags := aluFlags op x.sat f.sat (f.tag != 0) f.v b.flags }) m
  | .b _ t => if f.tag = 1 then branchTo l t.toNat m else m
  | _ => m

/-- LPSUP's A stage (R146). -/
def supStage (m0 : Module) (l : Nat) (f : InFlight) (target : Nat) (m : Module) : Module :=
  match f.ctx.slot with
  | none => m
  | some n =>
    let k := m0.runKey n f.ctx.epoch
    let o := supervise m0 n (m0.slotRun k) ((m0.lane l).bank f.bank)
    let m := supMem n k o (onBank l f (supBank o) m)
    if o.sup.path = 0 then m else branchTo l target m

/-- The A stage's writes. -/
def writeA (m0 : Module) (l : Nat) (f : InFlight) (m : Module) : Module :=
  match f.op with
  | .mac x => onBank l f (fun b =>
      let b := b.setA x.ad.val f.v
      if x.init.val = 5 then { b with w := BitVec.ofInt 20 f.c2 } else b) m
  | .alu op x =>
    match op with
    | .atrn => onBank l f (fun b => let b := b.setX x.xd.val f.v; { b with flags := aluFlags op x.sat f.sat false f.v b.flags }) m
    | .aadd | .asub => onBank l f (fun b => let b := b.setA (x.xd.val % 4) f.v; { b with flags := aluFlags op x.sat f.sat false f.v b.flags }) m
    | _ => m
  | .ls op x =>
    match op with
    | .lds | .ldc => onBank l f (fun b => b.setX x.x.val f.v) m
    | .ldv => onBank l f (fun b =>
        ((b.setX x.x.val f.v).setT x.x.val (BitVec.ofNat 12 f.tag)).setRaw f.addr (BitVec.ofNat 32 (f.tag * 2 ^ 20 + uint 20 f.v))) m
    | _ => m
  | .lpsup t => supStage m0 l f t.toNat m
  | _ => m

/-- The operation's last instruction has left W (R133): its results and its tag are issued. -/
def opEnd (f : InFlight) (m : Module) : Module :=
  let at_ := finishCycle f.index
  let m := match f.ctx.slot with
    | some n =>
      if f.ctx.kind = 0 then
        let k := m.runKey n f.ctx.epoch
        let late := (m.slotRun k).late
        let m := modSlotRun k (fun r => { r with ended := true, finish := some (r.finish.getD at_) }) m
        let m := noteFinish f.ctx.group ((m.slotRun k).finish.getD at_) m
        if late then slotStatus n k true m else m
      else m
    | none => m
  refreshReady 1 (issueTag f.ctx.desc f.ctx.epoch (endInst f.ctx.desc f.ctx.epoch m))

/-- The W stage's writes (R120, R121, R124). -/
def writeW (m0 : Module) (l : Nat) (f : InFlight) (m : Module) : Module :=
  let m := match f.op with
    | .mac x =>
      let r := accToX x.sat f.v
      let m := match x.wb.val with
        | 1 => onBank l f (fun b => b.setX x.xd.val r.1) m
        | 2 => busWrite f.ctx f.addr 5 (uint 40 f.v) m
        | 3 => busWrite f.ctx f.addr 6 (uint 48 f.v) m
        | _ => m
      let acted := f.sat || (x.wb.val == 1 && r.2)
      onBank l f (fun b => { b with flags := b.flags.sat x.sat acted }) m
    | .ls op _ =>
      match op with
      | .sts => busWrite f.ctx f.addr 3 (valueCode f.v) m
      | .stv => storeV f.ctx (if f.c < 0 then none else some f.c.toNat) (laneWord f.ctx (BitVec.ofNat 12 f.tag) f.v) m
      | .sto => stageV f.ctx f.addr (if f.c < 0 then none else some f.c.toNat) (laneWord f.ctx (BitVec.ofNat 12 f.tag) f.v) (finishCycle f.index) m
      | _ => m
    | .lpout _ =>
      match f.ctx.slot with
      | some n => supOut m0 f.ctx n (finishCycle f.index) ((m0.lane l).bank f.bank) m
      | none => m
    | _ => m
  if f.last then opEnd f m else m

/-- The stage's writes. -/
def writeStage (m0 : Module) (l : Nat) (f : InFlight) (m : Module) : Module :=
  match f.stage with
  | 1 => writeD l f m
  | 2 => writeM l f m
  | 3 => writeA m0 l f m
  | _ => writeW m0 l f m

/-- One lane-cycle of the pipeline: every instruction in flight does its stage. -/
def laneCycle (l : Nat) (m : Module) : Module :=
  let fs := (m.lane l).pipe.map (readStage m l)
  let m' := fs.foldl (fun acc f => writeStage m l f acc) m
  let rest := (fs.filter fun f => decide (f.stage < 4)).map fun f => { f with stage := f.stage + 1 }
  modLane l (fun x => { x with pipe := rest }) m'

/-- `n` lane-cycles in which the lane issues nothing. -/
def laneCycles (l : Nat) : Nat → Module → Module
  | 0, m => m
  | n + 1, m => laneCycles l n (laneCycle l m)

/-- Instructions past F complete. -/
def drainLane (l : Nat) (m : Module) : Module := if (m.lane l).pipe.isEmpty then m else laneCycles l 4 m

/-- Lanes that hold instructions in flight drain; done before anything that happens at a later cycle. -/
def drainIdle (m : Module) : Module :=
  forN 16 (fun l m => if (m.lane l).op.isNone then drainLane l m else m) m

/-! ### Ends from outside -/

/-- An operation is terminated (R134): nothing more issues, what is past F completes, no tag is issued, and a late period writes no further status. -/
def terminate (l : Nat) (m : Module) : Module :=
  match (m.lane l).op with
  | none => m
  | some c =>
    let m := addLoad c.group (m.lane l).count m
    let m := modLane l (fun x => { x with op := none, rep := none, delay := 0, target := none, abort := none }) m
    let m := drainLane l m
    let m := match c.slot with
      | some n => if c.kind = 0 then modSlotRun (m.runKey n c.epoch) (fun r => if r.ended then r else { r with status := [], codes := [] }) m else m
      | none => m
    refreshReady 1 (endInst c.desc c.epoch m)

/-- The event of Table 4.14; an operation with no slot names the kernel image function. -/
def laneEvent (code : Nat) (c : OpCtx) (x : Lane) (m : Module) : Module :=
  raiseEpoch c.epoch (c.slot.getD fnKernel) code (leBytes 2 c.kernel ++ leBytes 2 x.pc ++ leBytes 4 x.count) m

/-- The lane is at an issue boundary outside delay slots and repeats (R131). -/
def Lane.boundary (x : Lane) : Bool := x.delay == 0 && x.rep.isNone

/-- A fetch fault (R135). -/
def fetchFault (l : Nat) (m : Module) : Module :=
  match (m.lane l).op with
  | none => m
  | some c => terminate l (laneEvent 0x0402 c (m.lane l) (m.bump Ent.laneFetchFaults))

/-! ### Issue -/

/-- The sequencer after an instruction has been issued: repeats (R128, R129), delay slots (R127), or the next address. -/
def nextPc (op : LaneOp) (x : Lane) : Lane :=
  match x.rep with
  | some r =>
    if r.pos + 1 < r.k then { x with pc := x.pc + 1, rep := some { r with pos := r.pos + 1 } }
    else if r.left = 0 then { x with pc := r.base + r.k, rep := none }
    else { x with pc := r.base, rep := some { r with pos := 0, left := r.left - 1, again := true } }
  | none =>
    match op with
    | .rpt n1 s1 s2 => { x with pc := x.pc + 1, rep := some ⟨1, n1.val, 0, x.pc + 1, stepOf 4 s1.val * 3, stepOf 6 s2.val, false⟩ }
    | .rptb k1 n1 s1 s2 => { x with pc := x.pc + 1, rep := some ⟨k1.val + 1, n1.val, 0, x.pc + 1, stepOf 4 s1.val * 3, stepOf 6 s2.val, false⟩ }
    | .b _ _ => { x with pc := x.pc + 1, delay := 2 }
    | .lpsup _ => { x with pc := x.pc + 1, delay := 2 }
    | _ =>
      if x.delay = 1 then (match x.target with
        | some t => { x with pc := t, delay := 0, target := none }
        | none => { x with pc := x.pc + 1, delay := 0 })
      else { x with pc := x.pc + 1, delay := x.delay - 1 }

/-- The instruction as it enters the pipeline: in a repeat's later passes its pointers step first (R128). -/
def Lane.flight (op : LaneOp) (c : OpCtx) (x : Lane) : InFlight :=
  let st := match x.rep with | some r => if r.again && r.pos == 0 then (r.step1, r.step2) else (0, 0) | none => (0, 0)
  { op := op, bank := x.cur, ctx := c, stage := 1, index := x.start + x.count + op.cycles - 1, step1 := st.1, step2 := st.2,
    last := op.ends, addr := 0, c := 0, c2 := 0, s := 0, v := 0, tag := 0, sat := false, pc := x.pc }

/-- It is in the pipeline, and its cycles are counted. -/
def Lane.push (op : LaneOp) (c : OpCtx) (x : Lane) : Lane := { x with pipe := x.pipe ++ [x.flight op c], count := x.count + op.cycles }

/-- The lane issues no more of its operation. -/
def Lane.close (x : Lane) : Lane := { x with op := none, rep := none, delay := 0, target := none, abort := none }

/-- The issue count is compared with the budget (R134). -/
def Lane.compareBudget (c : OpCtx) (x : Lane) : Lane := if c.budget ≤ x.count ∧ x.abort.isNone then { x with abort := some .budget } else x

/-- What issuing an instruction makes of the lane. -/
def Lane.issue (op : LaneOp) (c : OpCtx) (x : Lane) : Lane :=
  if op.ends then (x.push op c).close else (nextPc op (x.push op c)).compareBudget c

/-- Issue one instruction: it enters the pipeline, is counted, and the budget is compared (R134). -/
def pushOp (l : Nat) (op : LaneOp) (c : OpCtx) (m : Module) : Module :=
  modLane l (Lane.issue op c) (if op.ends then addLoad c.group ((m.lane l).count + op.cycles) m else m)

/-- The instruction at the lane's address is this one: ROM holds what the lane's program holds; the image holds its words. -/
def fetches (m : Module) (l : Nat) (op : LaneOp) : Bool :=
  match pcIn m (m.lane l).pc with
  | .rom => true
  | .image w => laneDecode w == some op
  | .nowhere => false

/-- A lane issues an instruction: its earlier ones move on, then it is fetched. Nothing happens where the lane runs no operation, is halted, has an abort or budget event to take at this boundary, or where another instruction stands at its address. -/
def laneIssue (l : Nat) (op : LaneOp) (m : Module) : Module :=
  let x := m.lane l
  match x.op with
  | none => m
  | some c =>
    if x.halted || (x.abort.isSome && x.boundary) then m
    else
      let m' := laneCycles l op.cycles m
      match pcIn m' (m'.lane l).pc with
      | .nowhere => fetchFault l m'
      | _ => if fetches m' l op then pushOp l op c m' else m

/-- A lane instruction as a command; a word that R142 calls undefined stops the block. -/
def laneCommand (l : Nat) (op : LaneOp) (s : State) : Host.Outcome State Fault Refusal :=
  if op.defined && !(op.romOnly && decide (0x8000 ≤ (s.mod.lane l).pc)) then s.runE (laneIssue l op) else .fault .undefinedWord

def execBasaltMac (l : Fin 16) (f : MFields) (s : State) : Host.Outcome State Fault Refusal := laneCommand l (.mac f) s
def execBasaltAdd (l : Fin 16) (f : AFields) (s : State) : Host.Outcome State Fault Refusal := laneCommand l (.alu .add f) s
def execBasaltSub (l : Fin 16) (f : AFields) (s : State) : Host.Outcome State Fault Refusal := laneCommand l (.alu .sub f) s
def execBasaltNeg (l : Fin 16) (f : AFields) (s : State) : Host.Outcome State Fault Refusal := laneCommand l (.alu .neg f) s
def execBasaltAbs (l : Fin 16) (f : AFields) (s : State) : Host.Outcome State Fault Refusal := laneCommand l (.alu .abs f) s
def execBasaltMin (l : Fin 16) (f : AFields) (s : State) : Host.Outcome State Fault Refusal := laneCommand l (.alu .min f) s
def execBasaltMax (l : Fin 16) (f : AFields) (s : State) : Host.Outcome State Fault Refusal := laneCommand l (.alu .max f) s
def execBasaltShr (l : Fin 16) (f : AFields) (s : State) : Host.Outcome State Fault Refusal := laneCommand l (.alu .shr f) s
def execBasaltShl (l : Fin 16) (f : AFields) (s : State) : Host.Outcome State Fault Refusal := laneCommand l (.alu .shl f) s
def execBasaltMov (l : Fin 16) (f : AFields) (s : State) : Host.Outcome State Fault Refusal := laneCommand l (.alu .mov f) s
def execBasaltMovi (l : Fin 16) (f : AFields) (s : State) : Host.Outcome State Fault Refusal := laneCommand l (.alu .movi f) s
def execBasaltMovh (l : Fin 16) (f : AFields) (s : State) : Host.Outcome State Fault Refusal := laneCommand l (.alu .movh f) s
def execBasaltCmp (l : Fin 16) (f : AFields) (s : State) : Host.Outcome State Fault Refusal := laneCommand l (.alu .cmp f) s
def execBasaltSel (l : Fin 16) (f : AFields) (s : State) : Host.Outcome State Fault Refusal := laneCommand l (.alu .sel f) s
def execBasaltClmp (l : Fin 16) (f : AFields) (s : State) : Host.Outcome State Fault Refusal := laneCommand l (.alu .clmp f) s
def execBasaltClmd (l : Fin 16) (f : AFields) (s : State) : Host.Outcome State Fault Refusal := laneCommand l (.alu .clmd f) s
def execBasaltDbnd (l : Fin 16) (f : AFields) (s : State) : Host.Outcome State Fault Refusal := laneCommand l (.alu .dbnd f) s
def execBasaltTagt (l : Fin 16) (f : AFields) (s : State) : Host.Outcome State Fault Refusal := laneCommand l (.alu .tagt f) s
def execBasaltTags (l : Fin 16) (f : AFields) (s : State) : Host.Outcome State Fault Refusal := laneCommand l (.alu .tags f) s
def execBasaltTago (l : Fin 16) (f : AFields) (s : State) : Host.Outcome State Fault Refusal := laneCommand l (.alu .tago f) s
def execBasaltAtrn (l : Fin 16) (f : AFields) (s : State) : Host.Outcome State Fault Refusal := laneCommand l (.alu .atrn f) s
def execBasaltAadd (l : Fin 16) (f : AFields) (s : State) : Host.Outcome State Fault Refusal := laneCommand l (.alu .aadd f) s
def execBasaltAsub (l : Fin 16) (f : AFields) (s : State) : Host.Outcome State Fault Refusal := laneCommand l (.alu .asub f) s
def execBasaltClrs (l : Fin 16) (f : AFields) (s : State) : Host.Outcome State Fault Refusal := laneCommand l (.alu .clrs f) s
def execBasaltSqrt (l : Fin 16) (f : AFields) (s : State) : Host.Outcome State Fault Refusal := laneCommand l (.alu .sqrt f) s
def execBasaltTlkp (l : Fin 16) (f : AFields) (s : State) : Host.Outcome State Fault Refusal := laneCommand l (.alu .tlkp f) s
def execBasaltLds (l : Fin 16) (f : LFields) (s : State) : Host.Outcome State Fault Refusal := laneCommand l (.ls .lds f) s
def execBasaltSts (l : Fin 16) (f : LFields) (s : State) : Host.Outcome State Fault Refusal := laneCommand l (.ls .sts f) s
def execBasaltLdc (l : Fin 16) (f : LFields) (s : State) : Host.Outcome State Fault Refusal := laneCommand l (.ls .ldc f) s
def execBasaltLdv (l : Fin 16) (f : LFields) (s : State) : Host.Outcome State Fault Refusal := laneCommand l (.ls .ldv f) s
def execBasaltStv (l : Fin 16) (f : LFields) (s : State) : Host.Outcome State Fault Refusal := laneCommand l (.ls .stv f) s
def execBasaltSto (l : Fin 16) (f : LFields) (s : State) : Host.Outcome State Fault Refusal := laneCommand l (.ls .sto f) s
def execBasaltLdp (l : Fin 16) (f : PFields) (s : State) : Host.Outcome State Fault Refusal := laneCommand l (.ptr false f) s
def execBasaltAddp (l : Fin 16) (f : PFields) (s : State) : Host.Outcome State Fault Refusal := laneCommand l (.ptr true f) s
def execBasaltB (l : Fin 16) (c : Cond) (target : BitVec 16) (s : State) : Host.Outcome State Fault Refusal := laneCommand l (.b c target) s
def execBasaltRpt (l : Fin 16) (n1 : Fin 1024) (step1 : Fin 16) (step2 : Fin 64) (s : State) : Host.Outcome State Fault Refusal :=
  laneCommand l (.rpt n1 step1 step2) s
def execBasaltRptb (l : Fin 16) (k1 : Fin 8) (n1 : Fin 256) (step1 : Fin 16) (step2 : Fin 64) (s : State) : Host.Outcome State Fault Refusal :=
  laneCommand l (.rptb k1 n1 step1 step2) s
def execBasaltEnd (l : Fin 16) (s : State) : Host.Outcome State Fault Refusal := laneCommand l .stop s
def execBasaltNop (l : Fin 16) (s : State) : Host.Outcome State Fault Refusal := laneCommand l .nop s
def execLpsup (l : Fin 16) (target : BitVec 16) (s : State) : Host.Outcome State Fault Refusal := laneCommand l (.lpsup target) s
def execLpout (l : Fin 16) (e : Bool) (s : State) : Host.Outcome State Fault Refusal := laneCommand l (.lpout e) s

/-! ### Taking and ending operations -/

/-- The declared or exact cost of an operation: kernel image entry, ROM standard kernel (R95), or MOVE (Table 5.1). -/
def opBudget (m : Module) (x : Desc) : Nat :=
  let n := x.slot
  if x.kind = 2 then max (2 * x.nin) 3
  else if x.kind = 1 then kimgCost m.kimg x.entry
  else if m.cfg (Ent.loopKernel n) = 0 then
    16 + 5 * m.cfg (Ent.loopSections n) + m.cfg (Ent.loopPvSelect n) % 3 + [0, 0, 3, 4].getD (m.cfg (Ent.loopPvChar n)) 0
  else kimgCost m.kimg (m.cfg (Ent.loopKernel n))

/-- The operation of an instance (R132, R166). -/
def opOf (m : Module) (i : Inst) : Option OpCtx :=
  (m.desc i.desc).map fun x =>
    let kernel := if x.kind = 1 then x.entry else if x.kind = 0 then m.cfg (Ent.loopKernel x.slot) else 0
    { desc := i.desc, kind := x.kind, slot := if x.kind ≤ 1 then some x.slot else none, group := x.group, epoch := i.epoch,
      kernel := kernel, budget := opBudget m x, res := x.res, rcnt := x.rcnt, arg := x.arg }

/-- The entry address of an operation: the image entry, or a ROM entry, whose address the manual does not give and which stands as 0 (R132). -/
def entryPc (m : Module) (c : OpCtx) : Nat := if c.kernel = 0 then 0 else 0x8000 + kimgOffset m.kimg c.kernel

/-- A lane takes its next operation from its prefetch slot (R115, R132): the other register bank is entered. -/
def takeOp (l : Nat) (m : Module) : Module :=
  let x := m.lane l
  match x.op, x.prefetch with
  | none, some c =>
    let m := if m.disp.insts.any (fun i => i.desc == c.desc && i.epoch == c.epoch && i.wasLate) then m.bump Ent.dispLateRuns else m
    let m := setInst c.desc c.epoch (fun i => { i with st := .running }) m
    let home := match c.slot with | some n => n % 16 == l | none => false
    let m := if home then m else m.bump Ent.dispMigrations
    let b := entryBank m c
    modLane l (fun x => (({ x with cur := !x.cur, op := some c, pc := entryPc m c, count := 0, start := m.absCycle - c.epoch * 4000,
                                   delay := 0, target := none, rep := none, prefetch := none, abort := none } : Lane).modBank (!x.cur) (fun _ => b))) m
  | _, _ => m

/-- OPERATION_ISSUE (R132, R166) at a core cycle of the tick. A halted lane takes none. -/
def operationIssue (l cycle : Nat) (m : Module) : Module :=
  if (m.lane l).op.isSome || (m.lane l).prefetch.isNone || (m.lane l).halted then m else takeOp l (toCycle cycle m)

/-- The budget event takes effect (R134). -/
def budgetEnd (l : Nat) (m : Module) : Module :=
  let x := m.lane l
  match x.op with
  | some c => if x.abort = some .budget ∧ x.boundary then terminate l (laneEvent 0x0401 c x (m.bump Ent.laneBudgetFaults)) else m
  | none => m

def execBudgetTermination (l : Fin 16) (s : State) : Host.Outcome State Fault Refusal := s.runE (budgetEnd l)

/-- A held-off abort takes effect; it records no event (R131, R136). -/
def abortEnd (l : Nat) (m : Module) : Module :=
  let x := m.lane l
  if x.op.isSome && x.abort == some .abort && x.boundary then terminate l m else m

def execAbortTakesEffect (l : Fin 16) (s : State) : Host.Outcome State Fault Refusal := s.runE (abortEnd l)

end Sys2Proof.Machine
end

