-- ==== Sys2Proof/Machine/Time.lean ====
section
/-! DEFINITION. The time unit, PTP and the calendar (chapter 13). -/

namespace Sys2Proof.Machine

/-! ### Numbers -/

/-- The value of a finite IEEE 754 binary32 (Table 2.1). -/
def f32Value (v : Nat) : Rat :=
  let e := bits v 30 23
  let f := bits v 22 0
  let mag : Rat := if e = 0 then (f : Rat) / 2 ^ 149 else ((2 ^ 23 + f : Nat) : Rat) * 2 ^ e / 2 ^ 150
  if bit v 31 then -mag else mag

/-- Clamp to ±100 ppm, in ppb (R403). -/
def clampPpb (r : Rat) : Rat := if r < -100000 then -100000 else if 100000 < r then 100000 else r

/-- Round half toward +∞. -/
def roundHalfUp (r : Rat) : Int := (r + 1 / 2).floor

/-- The increment for a rate in ppb (R403), within its limits (R397). -/
def incrementOf (r : Rat) : Nat := (max 34356302395 (min 34363174341 (roundHalfUp (34359738368 * (1 + r / 1000000000))))).toNat

/-- TState as `time.state` (Table 13.1). -/
def TState.code : TState → Nat
  | .unset => 0 | .free => 1 | .acquiring => 2 | .locked => 3 | .holdover => 4 | .master => 5

/-! ### Events and the calendar -/

/-- Whole seconds and nanoseconds of an offset in ns (R416). -/
def splitNs (d : Int) : List Byte := leBytes 6 (uint 48 (d / 1000000000)) ++ leBytes 4 (d % 1000000000).toNat

/-- The payload of a time event (R416). -/
def timeBody (m : Module) (detail : Nat) (d : Int) : List Byte :=
  leBytes 1 m.time.st.code ++ leBytes 1 detail ++ splitNs d ++ leBytes 8 (m.stat Ent.ptpGmIdentity) ++ leBytes 1 (m.stat Ent.ptpPortActive)

def timeEvent (code detail : Nat) (d : Int) (m : Module) : Module := raise fnTime code (timeBody m detail d) m

/-- The calendar is loaded from the counter, which clears CAL_LOST (R411, R412). -/
def calRewrite (m : Module) : Module :=
  let ns := m.nowNs
  timeEvent 0x0D08 0 m.time.offset
    { m with cal := { m.cal with sec := ns / 1000000000, cyc := ns % 1000000000 * 32768 / 1000000000, lost := false } }

/-- Move the counter by `d` ns (R402): the calendar is rewritten and 0D04h recorded. -/
def stepCounter (detail : Nat) (d : Int) (m : Module) : Module :=
  let run := if m.stopped fnEngine then m.time.runStep else m.time.runStep + d
  let shift := fun (c : Nat) => ((c : Int) + d * 2 ^ 32).toNat
  let t := { m.time with ctr := shift m.time.ctr, lastMeas := m.time.lastMeas.map shift, holdSince := m.time.holdSince.map shift, runStep := run }
  timeEvent 0x0D04 detail d (calRewrite ({ m with time := t }.bump Ent.timeSteps))

/-! ### States -/

/-- The time unit reports lock (R399). -/
def reportsLock (m : Module) : Bool := m.time.st == .locked || m.time.st == .master

/-- The tick follows the time unit (R36): it aligns once lock is reported, in FREE only while the loop engine runs, and enters HOLDOVER with it. -/
def tickFollow (m : Module) : Module :=
  let dest := fun (d : Discipline) => { m with tick := { m.tick with disc := d } }
  match m.tick.disc, reportsLock m with
  | .free, true => if m.tick.epoch.isSome then dest .aligning else m
  | .holdover, true => dest .aligning
  | .aligning, false => dest .holdover
  | .locked, false => if m.time.st = .holdover then dest .holdover else m
  | _, _ => m

/-- The time unit's state becomes this. -/
def setTState (st : TState) (m : Module) : Module := tickFollow { m with time := { m.time with st := st } }

/-- The mean of the last 64 servo outputs; the present increment where there is none (R404). -/
def holdoverIncr (t : Time) : Nat := if t.outs.isEmpty then t.incr else t.outs.sum / t.outs.length

/-- Enter HOLDOVER (R404). -/
def holdover (m : Module) : Module :=
  if m.time.st = .holdover then m
  else tickFollow { m with time := { m.time with st := .holdover, incr := holdoverIncr m.time, holdSince := some m.time.ctr, lockRun := 0, agree := [] } }

/-- Enter HOLDOVER with event 0D02h. -/
def loseMaster (m : Module) : Module :=
  if m.time.st = .locked ∨ m.time.st = .acquiring then timeEvent 0x0D02 0 m.time.offset (holdover m) else m

/-- Leave HOLDOVER: the time spent there goes on counting for the threshold (R405). -/
def acquire (m : Module) : Module :=
  match m.time.st with
  | .acquiring | .locked => m
  | .holdover =>
    let spent := (m.time.ctr - (m.time.holdSince.getD m.time.ctr)) / 2 ^ 32
    { m with time := { m.time with st := .acquiring, holdSince := none, holdNs := some spent, lockRun := 0 } }
  | _ => { m with time := { m.time with st := .acquiring, lockRun := 0, agree := [] } }

/-! ### The offset measurement (R402, R403, R405, R406) -/

/-- Time in HOLDOVER that widens the threshold, in ns; none where no HOLDOVER lies behind. While GM_JUMP stands the measurements do not come after HOLDOVER, and nothing widens it. -/
def holdTime (t : Time) : Option Nat :=
  if t.gmJump then none else
  match t.holdSince with
  | some c => some ((t.ctr - c) / 2 ^ 32)
  | none => t.holdNs

/-- The jump threshold in ns; none where offsets of any size are taken, before the first lock with the engine STOPPED (R402, R405). -/
def jumpThreshold (m : Module) : Option Rat :=
  let base : Rat := m.cfg Ent.timeJumpThreshold
  match holdTime m.time with
  | some ns => some (base + (m.cfg Ent.timeHoldoverAllow : Rat) * ns / 1000000000)
  | none => if m.time.st = .locked ∨ m.time.gmJump = true ∨ m.time.stepped = true ∨ m.stopped fnEngine = false then some base else none

/-- The pending step as `time.step_s` and `time.step_ns`. -/
def setPending (d : Int) (m : Module) : Module :=
  ((({ m with time := { m.time with pendStep := d } }).setStat Ent.timeStepS (uint 48 (d / 1000000000))).setStat Ent.timeStepNs (d % 1000000000).toNat)

def setGmJump (b : Bool) (m : Module) : Module := ({ m with time := { m.time with gmJump := b } }).setStat Ent.timeGmJump (b01 b)

/-- A jump candidate (R405). -/
def jumpCandidate (o : Int) (m : Module) : Module :=
  let m := { m with time := { m.time with jumpRun := m.time.jumpRun + 1, lockRun := 0, agree := [] } }.bump Ent.timeOutliers
  if m.time.gmJump then setPending (-o) m
  else
    let m := acquire m
    if m.cfg Ent.timeJumpCount ≤ m.time.jumpRun then timeEvent 0x0D03 0 (-o) (holdover (setPending (-o) (setGmJump true m))) else m

/-- The servo (R403); a measurement with none before it gives no interval, and leaves the rate. -/
def servo (o : Int) (m : Module) : Module :=
  match m.time.lastMeas with
  | none => m
  | some c =>
    let t : Rat := ((m.time.ctr - c : Nat) : Rat) / (2 ^ 32 * 1000000000)
    if t ≤ 0 then m
    else
      let acc := clampPpb (m.time.acc + f32Value (m.cfg Ent.ptpServoKi) * o)
      let r := clampPpb (-(f32Value (m.cfg Ent.ptpServoKp) * o / t) - acc)
      let inc := incrementOf r
      let t := { m.time with acc := acc, rate := r, incr := inc, outs := (inc :: m.time.outs).take 64 }
      { m with time := t }.setStat Ent.timeRate (uint 32 (roundHalfUp r))

/-- LOCKED is entered (R403). -/
def enterLocked (m : Module) : Module :=
  let m := { m with time := { m.time with source := 4 } }
  timeEvent 0x0D01 0 m.time.offset ((setTState .locked m).setStat Ent.timeLastLock (t80Wire m.now))

/-- Count a measurement toward LOCKED. -/
def countLock (o : Int) (m : Module) : Module :=
  let n := if o.natAbs < m.cfg Ent.timeLockWindow then m.time.lockRun + 1 else 0
  let m := { m with time := { m.time with lockRun := n } }
  if m.time.st = .acquiring ∧ 16 ≤ n then enterLocked m else m

/-- Three offsets agree within the lock window (R402). -/
def offsetsAgree (w : Nat) : List Int → Bool
  | [a, b, c] => decide (max a (max b c) - min a (min b c) ≤ w)
  | _ => false

/-- A measurement within the threshold (R402, R403, R405). -/
def regular (o : Int) (m : Module) : Module :=
  let m := if m.time.gmJump then setGmJump false m else m
  let m := acquire m
  let m := { m with time := { m.time with jumpRun := 0, holdSince := none, holdNs := none } }
  if m.time.st = .acquiring ∧ m.time.stepped = false ∧ m.stopped fnEngine = true then
    let l := (o :: m.time.agree).take 3
    if offsetsAgree (m.cfg Ent.timeLockWindow) l then
      stepCounter 1 (-o) { m with time := { m.time with agree := [], stepped := true, seeded := true, source := 4, lockRun := 0 } }
    else countLock o (servo o { m with time := { m.time with agree := l } })
  else countLock o (servo o m)

/-- An offset measurement in ns, module minus master. -/
def measure (o : Int) (m : Module) : Module :=
  let m := { m with time := { m.time with offset := o } }.setStat Ent.timeOffset (uint 32 (satInt 32 o))
  let m :=
    if m.time.accept then
      let t := { m.time with accept := false, stepped := true, seeded := true, source := 4, jumpRun := 0, agree := [], lockRun := 0, holdSince := none, holdNs := none }
      stepCounter 2 (-o) (setGmJump false (setTState .acquiring { m with time := t }))
    else match jumpThreshold m with
      | some th => if th < (o.natAbs : Rat) then jumpCandidate o m else regular o m
      | none => regular o m
  { m with time := { m.time with lastMeas := some m.time.ctr } }

/-! ### PTP messages -/

/-- The PTP port runs. -/
def ptpOn (m : Module) : Bool := m.running fnTime

/-- A time on the counter corrected by a latency in ps, in ns. -/
def mediumNs (m : Module) (ps : Int) : Int := ((m.nowNs : Int) * 1000 + ps) / 1000

def ingressNs (m : Module) (link : Nat) : Int := mediumNs m (-(m.cfg (Ent.ptpLinkIngress link) : Int))
def egressNs (m : Module) (link : Nat) : Int := mediumNs m (m.cfg (Ent.ptpLinkEgress link))

/-- A correctionField in ns. -/
def corrNs (c : Int) : Int := c / 65536

def countStamp (link : Nat) (m : Module) : Module := m.bump (Ent.ptpLinkStamps link)

/-- A message comes from the current master on the active port. -/
def fromMaster (m : Module) (x : PtpMsg) : Bool :=
  ptpOn m && x.domain == m.cfg Ent.ptpDomain && m.stat Ent.ptpPortActive == x.link.val &&
    (match m.time.master with | some a => a.identity == x.identity && a.port == x.port | none => false)

/-- The mean path delay (R403). -/
def meanDelay (t : Time) : Option Int := if t.delays.isEmpty then none else some (t.delays.sum / t.delays.length)

/-- A Sync's times are complete: an offset measurement, once a path delay is known (R403). -/
def completeSync (t1 t2 corr : Int) (m : Module) : Module :=
  let d := t2 - t1 - corr
  let m := { m with time := { m.time with msDiff := some d, sync := none } }
  match meanDelay m.time with
  | some p => measure (d - p) m
  | none => m

/-- A Sync arrives (R398, R403). -/
def ptpSync (x : PtpMsg) (m : Module) : Module :=
  if !ptpOn m then m
  else
    let t2 := ingressNs m x.link
    let m := countStamp x.link m
    if !fromMaster m x then m
    else
      let m := m.bump Ent.ptpSyncRx
      if x.twoStep then { m with time := { m.time with sync := some ⟨x.seq, t2, corrNs x.correction⟩ } }
      else completeSync x.origin t2 (corrNs x.correction) m

def execPtpSync (x : PtpMsg) (s : State) : Host.Outcome State Fault Refusal := s.runE (ptpSync x)

/-- A Follow_Up arrives (R403). -/
def ptpFollowUp (x : PtpMsg) (m : Module) : Module :=
  if !fromMaster m x then m
  else match m.time.sync with
    | some p => if p.seq = x.seq then completeSync x.origin p.t2 (p.corr + corrNs x.correction) m else m
    | none => m

def execPtpFollowUp (x : PtpMsg) (s : State) : Host.Outcome State Fault Refusal := s.runE (ptpFollowUp x)

/-- A Delay_Resp arrives: a delay measurement, and with the first one the offset measurement of the last Sync (R403). -/
def ptpDelayResp (x : PtpMsg) (m : Module) : Module :=
  if !fromMaster m x || x.toIdentity != Config.clockIdentity then m
  else match m.time.dreq, m.time.msDiff with
    | some (seq, t3), some d =>
      if seq = x.seq then
        let first := m.time.delays.isEmpty
        let delay := (d + (x.origin - t3 - corrNs x.correction)) / 2
        let m := { m with time := { m.time with delays := (delay :: m.time.delays).take 16, dreq := none } }
        let p := (meanDelay m.time).getD 0
        let m := m.setStat Ent.timePathDelay (min p.toNat (2 ^ 32 - 1))
        if first then measure (d - p) m else m
      else m
    | _, _ => m

def execPtpDelayResp (x : PtpMsg) (s : State) : Host.Outcome State Fault Refusal := s.runE (ptpDelayResp x)

/-- A Delay_Req leaves on its own interval (R400). -/
def ptpDelayReqTransmit (m : Module) : Module :=
  let link := m.stat Ent.ptpPortActive
  if ptpOn m && m.time.master.isSome && m.time.st != .master then
    let t3 := egressNs m link
    let seq := m.time.dreqSeq
    countStamp link (emit (.ptp link 1 seq t3 0) { m with time := { m.time with dreq := some (seq, t3), dreqSeq := (seq + 1) % 65536 } })
  else m

def execDelayReqTransmit (s : State) : Host.Outcome State Fault Refusal := s.runE ptpDelayReqTransmit

/-- As master, a Delay_Req is answered with its time of arrival (R400). -/
def ptpDelayReq (x : PtpMsg) (m : Module) : Module :=
  if !ptpOn m then m
  else
    let m := countStamp x.link m
    if m.time.st = .master ∧ x.domain = m.cfg Ent.ptpDomain ∧ m.stat Ent.ptpPortActive = x.link.val then
      emit (.ptp x.link 9 x.seq (ingressNs m x.link) x.identity) m
    else m

def execPtpDelayReq (x : PtpMsg) (s : State) : Host.Outcome State Fault Refusal := s.runE (ptpDelayReq x)

/-- A management message is answered with an error status and counted (Table 13.2). -/
def ptpManagement (link : Nat) (m : Module) : Module :=
  if ptpOn m then emit (.ptp link 13 0 0 0) { m with time := { m.time with managed := m.time.managed + 1 } } else m

def execPtpManagement (link : Fin 3) (s : State) : Host.Outcome State Fault Refusal := s.runE (ptpManagement link)

/-- As master, a Sync, with its Follow_Up in two-step mode, or an Announce (R400, R401). -/
def ptpMasterTransmit (announce : Bool) (m : Module) : Module :=
  let link := m.stat Ent.ptpPortActive
  if !(ptpOn m && m.time.st == .master) then m
  else if announce then
    let seq := m.time.annSeq
    emit (.ptp link 11 seq 0 0) { m with time := { m.time with annSeq := (seq + 1) % 65536 } }
  else
    let seq := m.time.syncSeq
    let t := egressNs m link
    let two := m.cfgOn Ent.ptpTwoStep
    let m := countStamp link { m with time := { m.time with syncSeq := (seq + 1) % 65536 } }
    let m := emit (.ptp link 0 seq (if two then 0 else t) 0) m
    if two then emit (.ptp link 8 seq t 0) m else m

def execPtpMasterTransmit (announce : Bool) (s : State) : Host.Outcome State Fault Refusal := s.runE (ptpMasterTransmit announce)

/-! ### Master selection (R401, R413) -/

/-- What the best master clock algorithm compares, in order (IEEE 1588-2019). -/
def masterRank (a : Announce) : List Nat :=
  [a.priority1, a.clockClass, a.accuracy, a.variance, a.priority2, a.gm, a.stepsRemoved, a.identity, a.port]

/-- The module's own data set, as it announces it (R401); offsetScaledLogVariance is that of a clock with no claim. -/
def ownRank (m : Module) : List Nat :=
  [m.cfg Ent.ptpPriority1, m.cfg Ent.ptpClockClass, 0xFE, 0xFFFF, m.cfg Ent.ptpPriority2, Config.clockIdentity, 0, Config.clockIdentity, 1]

/-- The announce timeout in ns: intervals of 2^log s. -/
def announceNs (m : Module) : Nat := m.cfg Ent.ptpAnnounceTimeout * (2 ^ (m.cfg Ent.ptpLogAnnounce % 8)) * 1000000000

/-- Announces heard within the timeout. -/
def heardNow (m : Module) : List Announce := (m.time.heard.filter fun x => decide (m.nowNs ≤ x.1 + announceNs m)).map Prod.snd

/-- The best of some Announces. -/
def bestOf : List Announce → Option Announce
  | [] => none
  | a :: l => match bestOf l with
    | some b => if masterRank b < masterRank a then some b else some a
    | none => some a

/-- The link the PTP port runs on (R401). -/
def portChoice (m : Module) : Option Nat :=
  let sel := m.cfg Ent.ptpPortSelect
  if sel ≤ 2 then some sel else (List.range 3).find? fun k => (heardNow m).any fun a => a.link.val == k

/-- UTC offset and leap flags of the current master's Announce (R413). -/
def takeUtc (a : Announce) (m : Module) : Module :=
  let m := m.setStat Ent.timeUtcValid (b01 a.utcValid)
  if a.utcValid then
    let m := m.setStat Ent.timeLeap (b01 a.leap61 + 2 * b01 a.leap59)
    let v := uint 32 a.utcOffset
    if m.cfg Ent.timeUtcOffset = v then m else timeEvent 0x0D06 0 m.time.offset (m.setBoth Ent.timeUtcOffset v)
  else m.setStat Ent.timeLeap 0

/-- Take a master, or none: its measurements start afresh (R403). -/
def setMaster (a : Option Announce) (m : Module) : Module :=
  let same := match a, m.time.master with
    | some x, some y => x.identity == y.identity && x.port == y.port && x.link == y.link
    | none, none => true
    | _, _ => false
  let gm := match a with | some x => x.gm | none => 0
  let t := if same then { m.time with master := a }
    else { m.time with master := a, sync := none, msDiff := none, dreq := none, delays := [] }
  let m := { m with time := t }
  let old := m.stat Ent.ptpGmIdentity
  let m := (m.setStat Ent.ptpGmIdentity gm).setStat Ent.ptpStepsRemoved (match a with | some x => x.stepsRemoved | none => 0)
  if a.isSome && old != gm then timeEvent 0x0D05 0 m.time.offset m else m

/-- The port moves (R401). -/
def setPort (k : Option Nat) (m : Module) : Module :=
  let old := m.stat Ent.ptpPortActive
  let new := k.getD 0xFF
  let m := m.setStat Ent.ptpPortActive new
  if old ≠ new ∧ old ≠ 0xFF ∧ new ≠ 0xFF then timeEvent 0x0D09 0 m.time.offset m else m

/-- The module is grandmaster itself: it is master-capable and no better master is heard. -/
def ownBest (m : Module) (best : Option Announce) : Bool :=
  m.cfg Ent.ptpMode == 1 && (match best with | some b => decide (ownRank m < masterRank b) | none => true)

/-- Become the grandmaster (Table 13.1). -/
def enterMaster (m : Module) : Module :=
  if m.time.st = .master then m else timeEvent 0x0D0A 0 m.time.offset (setTState .master (setMaster none m))

/-- Choose port and master from what is heard (R401). -/
def selectMaster (m : Module) : Module :=
  let m := setPort (portChoice m) m
  let best := bestOf ((heardNow m).filter fun a => a.link.val == m.stat Ent.ptpPortActive)
  if ownBest m best then enterMaster m
  else
    let m := if m.time.st = .master then setTState .free m else m
    setMaster best m

/-- An Announce arrives; ARB masters are refused and counted as outliers (Table 13.2). -/
def ptpAnnounce (a : Announce) (m : Module) : Module :=
  if !ptpOn m || a.domain != m.cfg Ent.ptpDomain || a.identity == Config.clockIdentity then m
  else if !a.ptpScale then m.bump Ent.timeOutliers
  else
    let others := m.time.heard.filter fun x => !(x.2.link == a.link && x.2.identity == a.identity && x.2.port == a.port)
    let m := selectMaster { m with time := { m.time with heard := (m.nowNs, a) :: others } }
    if m.time.master = some a then takeUtc a m else m

def execPtpAnnounce (a : Announce) (s : State) : Host.Outcome State Fault Refusal := s.runE (ptpAnnounce a)

/-- SYNC_TIMEOUT (R404). -/
def execSyncTimeout (s : State) : Host.Outcome State Fault Refusal := s.runE (fun m => if ptpOn m then loseMaster m else m)

/-- The current master's Announces have stopped (R401, R404). -/
def announceTimeout (m : Module) : Module :=
  if !ptpOn m then m
  else
    let gone := fun (x : Nat × Announce) => match m.time.master with
      | some y => x.2.identity == y.identity && x.2.port == y.port && x.2.link == y.link
      | none => false
    let m := selectMaster { m with time := { m.time with heard := m.time.heard.filter fun x => !gone x } }
    if m.time.master.isNone && m.time.st != .master then
      loseMaster ((m.setStat Ent.timeUtcValid 0).setStat Ent.timeLeap 0)
    else m

def execAnnounceTimeout (s : State) : Host.Outcome State Fault Refusal := s.runE announceTimeout

/-! ### Host commands' effects, calendar, UTC -/

/-- `time.set` (R409): the refusal, if any. -/
def timeSetCheck (m : Module) : Nat :=
  if !m.stopped fnEngine then stNotStopped
  else match m.time.st with
    | .acquiring | .locked | .master => stBusy
    | _ => stOk

/-- An accepted `time.set` steps the counter at once. -/
def timeSet (t : T80) (m : Module) : Module :=
  let d : Int := (t.toNs : Int) - m.nowNs
  let m := { m with time := { m.time with source := 3, st := .free, seeded := true, holdSince := none, holdNs := none, gmJump := false } }
  stepCounter 3 d (m.setStat Ent.timeGmJump 0)

/-- CALENDAR_CHECK (R412): the difference is a measured value; the calendar is rewritten where it exceeds 61 µs. -/
def calendarCheck (m : Module) : Module :=
  if m.time.st = .locked ∨ m.time.st = .master then
    let (v, m) := takeFree m
    let m := m.setStat Ent.calError (v % 2 ^ 32)
    if 61000 < (sint 32 v).natAbs then calRewrite m else m
  else m

def execCalendarCheck (s : State) : Host.Outcome State Fault Refusal := s.runE calendarCheck

/-- CALENDAR_TRIM (R412): `drift` is how far the calendar gained on the counter in the 1,024 s, in ns; one unit is one cycle in 2^20. -/
def calendarTrim (drift : Int) (m : Module) : Module :=
  if m.time.st = .locked ∧ m.cfgOn Ent.calAutoTrim = true then
    let units := roundHalfUp ((drift : Rat) * 1048576 / 1024000000000)
    m.setBoth Ent.calTrim (uint 32 (max (-63) (min 63 (sint 32 (m.cfg Ent.calTrim) - units))))
  else m

def execCalendarTrim (drift : Int) (s : State) : Host.Outcome State Fault Refusal := s.run (calendarTrim drift)

/-- RETAINED_TIME_WRITE (R409). -/
def retainTime (m : Module) : Module := { m with nv := { m.nv with retained := some m.now } }

def execRetainedTimeWrite (s : State) : Host.Outcome State Fault Refusal := s.run retainTime

/-- LEAP_SECOND (R413): at the end of the UTC day that a leap flag names. -/
def leapSecond (m : Module) : Module :=
  let l := m.stat Ent.timeLeap
  let d : Int := (if bit l 0 then 1 else 0) - (if bit l 1 then 1 else 0)
  if d = 0 then m
  else timeEvent 0x0D06 0 m.time.offset ((m.setStat Ent.timeLeap 0).setBoth Ent.timeUtcOffset (uint 32 (m.cfgI32 Ent.timeUtcOffset + d)))

def execLeapSecond (s : State) : Host.Outcome State Fault Refusal := s.runE leapSecond

/-- CAL_LOST (R411): the backup supply falls below 1.8 V with the module unpowered. -/
def execCalLost (s : State) : Host.Outcome State Fault Refusal :=
  s.run (fun m => if m.power.gneissMain then m else { m with cal := { m.cal with lost := true } })

/-- The counter is seeded when the time island starts (R409). A calendar has moved on by a time that nothing here fixes. -/
def seedTime (m : Module) : Module :=
  if !m.cal.lost then
    let (v, m) := takeFree m
    let ns := m.cal.sec * 1000000000 + m.cal.cyc * 1000000000 / 32768 + v
    { m with time := { m.time with ctr := ns * 2 ^ 32, st := .free, source := 1, seeded := true } }
  else match m.nv.retained with
    | some t =>
      timeEvent 0x0D07 1 0 { m with time := { m.time with ctr := t.toNs * 2 ^ 32, st := .free, source := 2, seeded := true } }
    | none => timeEvent 0x0D07 2 0 { m with time := { m.time with ctr := 0, st := .unset, source := 0 } }

/-! ### START and STOP of function 601h -/

/-- START begins PTP on the selected port (Table 13.1). -/
def timeStart (m : Module) : Module :=
  setPort (portChoice m) { m with time := { m.time with heard := [], master := none, sync := none, msDiff := none, dreq := none, delays := [], jumpRun := 0, agree := [], lockRun := 0, lastMeas := none } }

/-- A stop ends the protocol: FREE, or UNSET if the counter was never seeded, with the rate held. -/
def timeStop (m : Module) : Module :=
  let t := { m.time with st := if m.time.seeded then .free else .unset, heard := [], master := none, sync := none, msDiff := none, dreq := none, holdSince := none, holdNs := none, gmJump := false, accept := false }
  ((({ m with time := t }.setStat Ent.timeGmJump 0).setStat Ent.ptpPortActive 0xFF).setStat Ent.timeUtcValid 0).setStat Ent.timeLeap 0

end Sys2Proof.Machine
end

