-- ==== Sys2Proof/Machine/Dispatcher.lean ====
section
/-! DEFINITION. Dispatcher commands: tags taken (R157, R159), pops (R164 to R166), the release of the input tags (R18) and the late class (R168). -/

namespace Sys2Proof.Machine

/-- The SLOT and KIND fields of a tag match its producer (R157). -/
def tagMatches (d : Nat) (x : Desc) (t : BitVec 64) : Bool :=
  bits t.toNat 63 54 == tagSlot d x && bits t.toNat 53 48 == x.kind

/-- One addressed consumer: a waiting instance of the tag's epoch accepts it, else the tag is discarded for it (R159). -/
def tagToConsumer (p : Nat) (t : BitVec 64) (c : Nat) (m : Module) : Module :=
  let hit := fun (i : Inst) => i.desc == c && i.st == .waiting && i.epoch % 8192 == bits t.toNat 44 32
  if m.disp.insts.any hit then
    { m with disp := { m.disp with insts := m.disp.insts.map (fun i => if hit i then { i with got := i.got ++ [p] } else i) } }
  else m.bump Ent.dispTagsDiscarded

/-- A result tag arrives on its producer's path (R157 to R160). -/
def tagAccept (p : Nat) (t : BitVec 64) (m : Module) : Module :=
  let m := { m with disp := { m.disp with tags := m.disp.tags.erase (p, t) } }
  match m.desc p with
  | none => m.bump Ent.dispTagsDiscarded
  | some x =>
    if tagMatches p x t then
      let cs := ((consumers m p).take 16).zipIdx.filter fun c => bit t.toNat (16 + c.2)
      refreshReady 1 (forL cs (fun c m => tagToConsumer p t c.1.1 m) m)
    else m.bump Ent.dispTagsDiscarded

/-- TAG_ACCEPT (R159): instructions past F of idle lanes have completed by then. -/
def execTagAccept (producer : Nat) (tag : BitVec 64) (s : State) : Host.Outcome State Fault Refusal :=
  s.runE (fun m => tagAccept producer tag (drainIdle m))

/-- A lane with an empty prefetch slot takes an instance (R165, R166). -/
def prefetchPop (l : Nat) (m : Module) : Module :=
  if (m.lane l).prefetch.isSome || !m.active fnEngine then m
  else match popChoice m l with
    | none => m
    | some i =>
      match opOf m i with
      | none => m
      | some c =>
        let m := setInst i.desc i.epoch (fun j => { j with st := .prefetched, popAt := m.absCycle }) m
        (modLane l (fun x => { x with prefetch := some c }) m).bump Ent.dispPops

/-- PREFETCH_POP (R166) at a core cycle of the tick. -/
def execPrefetchPop (l : Fin 16) (cycle : Nat) (s : State) : Host.Outcome State Fault Refusal :=
  s.runE (fun m => prefetchPop l (toCycle cycle m))

/-- At cycle 400 the input tags of the epoch are released together (R18, R160), and the lane first in the pop order is that of the epoch (R165). -/
def releaseTags (m : Module) : Module :=
  match m.tick.epoch with
  | none => m
  | some e => refreshReady 0 { m with disp := { m.disp with released := some e } }

/-- At a group's marshalling start its instances still on a list enter the late class (R168). -/
def lateClass (g epoch : Nat) (m : Module) : Module :=
  let due := m.disp.insts.filter fun i => i.group == g && i.epoch == epoch && i.st == .ready
  let m := m.bumpBy (Ent.dispGroupLate g) due.length
  forL due (fun i m => setInst i.desc i.epoch (fun j => { j with st := .late, wasLate := true }) m) m

end Sys2Proof.Machine
end

