-- ==== Sys2Proof/Machine/FbCfg.lean ====
section
/-! DEFINITION. What a field-bus port's entries say: timing and frame bounds (R306, R307), objects, stations, the Colry matrix (R315, R316), and the checks of START (R335). -/

namespace Sys2Proof.Machine

/-- The lengths of ISO 11898-1 by length code. -/
def dlcLen (d : Nat) : Nat := [0, 1, 2, 3, 4, 5, 6, 7, 8, 12, 16, 20, 24, 32, 48, 64].getD d 0
def isDlcLen (n : Nat) : Bool := (List.range 16).any fun d => dlcLen d == n

/-! ### ID words (Table 10.2) -/

def idExt (w : Nat) : Bool := bit w 31
def idFd (w : Nat) : Bool := bit w 30
def idBrs (w : Nat) : Bool := bit w 29
def idOf (w : Nat) : Nat := bits w 28 0

/-- The arbitration key (R319). -/
def arbKey (w : Nat) : Nat :=
  if idExt w then bits w 28 18 * 2 ^ 19 + 2 ^ 18 + bits w 17 0 else bits w 10 0 * 2 ^ 19

/-- An ID word of a frame that may be sent: an 11-bit identifier has [28:11] 0, and BRS stands with FDF. -/
def idOk (w : Nat) : Bool := (idExt w || bits w 28 11 == 0) && (idFd w || !idBrs w)

/-! ### Bit timing (R306, R307), in island cycles of 12.5 ns -/

/-- A configuration value by key: live or shadow. -/
abbrev Get := Nat → Nat

def nomBit (get : Get) (p : Nat) : Nat := get (Ent.fbNomPrescaler p) * (1 + get (Ent.fbNomTseg1 p) + get (Ent.fbNomTseg2 p))
def dataBit (get : Get) (p : Nat) : Nat := get (Ent.fbDataPrescaler p) * (1 + get (Ent.fbDataTseg1 p) + get (Ent.fbDataTseg2 p))

/-- The entries of a function's block that count at present: the shadow while it is STARTING, else the live copy. -/
def Module.getOf (m : Module) (f : Nat) : Get := if (m.fn f).st == .starting then m.shad else m.cfg

/-- The bound of a frame: bits at the nominal rate, and at the data rate (R307). -/
def frameBits (idw n : Nat) : Nat × Nat :=
  if idFd idw then
    let a := if idExt idw then 36 else 17
    let d := 5 + 8 * n
    let c := if n ≤ 16 then 17 else 21
    (a + (a - 1) / 4 + 13, d + (d - 1) / 4 + 4 + c + (4 + c + 3) / 4)
  else
    let x := if idExt idw then 54 + 8 * n else 34 + 8 * n
    (x + (x - 1) / 4 + 13, 0)

/-- tb in island cycles. -/
def frameBound (get : Get) (p idw n : Nat) : Nat :=
  let b := frameBits idw n
  b.1 * nomBit get p + b.2 * (if idBrs idw then dataBit get p else nomBit get p)

/-- A frame of this bound fits into this many core cycles: 2.5 core cycles make an island cycle. -/
def fits (bound room : Nat) : Bool := decide (5 * bound ≤ 2 * room)

/-- Bits of a frame's arbitration field, SOF first (ISO 11898-1). -/
def arbBits (idw : Nat) : List Bool :=
  if idExt idw then
    [false] ++ (List.range 11).map (fun i => bit idw (28 - i)) ++ [true, true] ++ (List.range 18).map (fun i => bit idw (17 - i)) ++ [false]
  else [false] ++ (List.range 11).map (fun i => bit idw (10 - i)) ++ [false]

/-- Bits on the bus up to and with the last bit, stuff bits counted: last level, its run, bits so far. -/
def stuffedLength : List Bool → Bool → Nat → Nat → Nat
  | [], _, _, n => n
  | b :: l, last, run, n =>
    if run = 5 then (if b == !last then stuffedLength l b 2 (n + 2) else stuffedLength l b 1 (n + 2))
    else if b == last then stuffedLength l b (run + 1) (n + 1)
    else stuffedLength l b 1 (n + 1)

/-- The sample point of the last bit of the arbitration field, in island cycles from the start of frame (R324). -/
def arbEnd (get : Get) (p idw : Nat) : Nat :=
  (stuffedLength (arbBits idw) true 0 0 - 1) * nomBit get p + get (Ent.fbNomPrescaler p) * (1 + get (Ent.fbNomTseg1 p))

/-! ### Transmit objects and stations -/

def objKind (v : Nat) : Nat := bits v 63 61
def objStation (v : Nat) : Nat := bits v 60 56
def objClass (v : Nat) : Nat := bits v 55 52
def objLen (v : Nat) : Nat := dlcLen (bits v 51 48)
def objDeadline (v : Nat) : Nat := bits v 47 32
def objIdw (v : Nat) : Nat := bits v 31 0

/-- A map entry (R328) is used. -/
def fmapUsed (v : Nat) : Bool := v != 0xFFFFFFFF
def fmapShift (v : Nat) : Nat := bits v 31 27
def fmapSigned (v : Nat) : Bool := bit v 26
def fmapBytes (v : Nat) : Nat := bits v 25 24 + 1
def fmapOff (v : Nat) : Nat := bits v 23 18
def fmapWord (v : Nat) : Nat := bits v 17 0

/-- The used map entries of a station. -/
def inMaps (get : Get) (p s : Nat) : List Nat := ((List.range 16).map fun k => get (Ent.fbstInMap p s k)).filter fmapUsed
def outMaps (get : Get) (p s : Nat) : List Nat := ((List.range 16).map fun k => get (Ent.fbstOutMap p s k)).filter fmapUsed

/-- A station has an input frame, or an output object. -/
def hasInput (get : Get) (p s : Nat) : Bool := get (Ent.fbstInId p s) != 0xFFFFFFFF
def outObject (get : Get) (p s : Nat) : Option Nat :=
  let o := get (Ent.fbstOutObject p s)
  if o < 128 then some o else none
def stGroup (get : Get) (p s : Nat) : Nat := get (Ent.fbstGroup p s) % 8

/-- Output moves of a port in a group: the mapped output words of its stations (R310). -/
def portMoves (get : Get) (p g : Nat) : Nat :=
  (((List.range 32).filter fun s => stGroup get p s == g && (outObject get p s).isSome).map fun s => (outMaps get p s).length).sum

/-- Words that a port's stations gather (R329). -/
def portWords (get : Get) (p : Nat) : List Nat := (List.range 32).flatMap fun s => (inMaps get p s).map fmapWord

/-! ### The matrix (Table 10.4) -/

def mxB (bs : List Byte) : Nat := leAt bs 6 2
def mxW (bs : List Byte) : Nat := leAt bs 8 1
def mxC (bs : List Byte) : Nat := leAt bs 9 1
/-- Start of window `w`, in core cycles from the sample instant of the basic cycle's first tick; its length and kind. -/
def mxStart (bs : List Byte) (w : Nat) : Nat := leAt bs (32 + 12 * w) 2 * 4000 + leAt bs (34 + 12 * w) 2
def mxLen (bs : List Byte) (w : Nat) : Nat := leAt bs (36 + 12 * w) 4
def mxKind (bs : List Byte) (w : Nat) : Nat := leAt bs (40 + 12 * w) 1
/-- The cell of basic cycle `r` and window `w`. -/
def mxCell (bs : List Byte) (r w : Nat) : Nat := leAt bs (32 + 12 * mxW bs + 2 * (mxW bs * r + w)) 2
def cellKind (c : Nat) : Nat := bits c 15 13

/-- Every cell of the matrix. -/
def mxCells (bs : List Byte) : List Nat :=
  (List.range (mxC bs)).flatMap fun r => (List.range (mxW bs)).map fun w => mxCell bs r w
/-- Some cell names this object, or this station. -/
def namesObj (bs : List Byte) (o : Nat) : Bool := (mxCells bs).any fun c => cellKind c == 1 && bits c 6 0 == o
def namesStation (bs : List Byte) (s : Nat) : Bool := (mxCells bs).any fun c => cellKind c == 2 && bits c 4 0 == s

/-- A cell is allowed in a window of a kind (Table 10.5). -/
def cellAllowed (kind c : Nat) : Bool :=
  match cellKind c with
  | 0 => bits c 12 0 == 0
  | 1 => bits c 12 7 == 0 && kind == 0
  | 2 => bits c 12 5 == 0 && kind == 0
  | 3 => bits c 12 9 == 0 && bits c 7 4 == 0 && kind == 1
  | _ => false

/-- The header of a matrix is well formed, and its length is exact (R316). -/
def mxHeaderOk (bs : List Byte) : Bool :=
  decide (32 ≤ bs.length) && leAt bs 0 4 == 0x434F4C59 && leAt bs 4 2 == 1 && decide (25 ≤ mxB bs) && decide (mxB bs ≤ 5000) &&
    decide (1 ≤ mxW bs) && decide (mxW bs ≤ 32) && decide (1 ≤ mxC bs) && decide (mxC bs ≤ 64) &&
    ((bs.drop 10).take 22).all (fun b => b == 0) && bs.length == 32 + 12 * mxW bs + 2 * mxW bs * mxC bs

/-- Window `w` is well formed: fields, order and end (R316). -/
def mxWindowOk (bs : List Byte) (w : Nat) : Bool :=
  let stop := mxStart bs w + mxLen bs w
  decide (leAt bs (32 + 12 * w) 2 < mxB bs) && decide (leAt bs (34 + 12 * w) 2 < 4000) && decide (mxKind bs w ≤ 2) &&
    leAt bs (41 + 12 * w) 3 == 0 && decide (stop ≤ mxB bs * 4000) &&
    (w + 1 == mxW bs || (decide (mxStart bs w < mxStart bs (w + 1)) && decide (stop ≤ mxStart bs (w + 1)))) &&
    (List.range (mxC bs)).all fun r => cellAllowed (mxKind bs w) (mxCell bs r w)

/-! ### START (R335) -/

/-- Reason 1: bit timing. -/
def timingOk (get : Get) (p : Nat) : Bool :=
  range 1 32 (get (Ent.fbNomPrescaler p)) && range 2 256 (get (Ent.fbNomTseg1 p)) && range 1 128 (get (Ent.fbNomTseg2 p)) &&
    range 1 (get (Ent.fbNomTseg2 p)) (get (Ent.fbNomSjw p)) && range 1 32 (get (Ent.fbDataPrescaler p)) &&
    range 1 32 (get (Ent.fbDataTseg1 p)) && range 1 16 (get (Ent.fbDataTseg2 p)) && range 1 (get (Ent.fbDataTseg2 p)) (get (Ent.fbDataSjw p)) &&
    decide (get (Ent.fbTdcOffset p) ≤ 127) && range 80 640 (nomBit get p) && decide (10 ≤ dataBit get p) && decide (dataBit get p ≤ nomBit get p)

/-- Reason 2 at a window; FFFFh stands for the header. -/
def matrixBad (bs : List Byte) : Option Nat :=
  if bs.isEmpty then none
  else if !mxHeaderOk bs then some 0xFFFF
  else (List.range (mxW bs)).find? fun w => !mxWindowOk bs w

/-- The bound of the frame that a cell names fits its window. -/
def cellFits (get : Get) (p : Nat) (bs : List Byte) (w c : Nat) : Bool :=
  match cellKind c with
  | 1 => get (Ent.fbMode p) == 2 || fits (frameBound get p (objIdw (get (Ent.fbObj p (bits c 6 0)))) (objLen (get (Ent.fbObj p (bits c 6 0))))) (mxLen bs w)
  | 2 => fits (frameBound get p (get (Ent.fbstInId p (bits c 4 0))) (get (Ent.fbstInLen p (bits c 4 0)))) (mxLen bs w)
  | _ => true

/-- Reason 3 at a window. -/
def boundBad (get : Get) (p : Nat) (bs : List Byte) : Option Nat :=
  if bs.isEmpty then none
  else
    let rows := List.range (mxC bs)
    (List.range (mxW bs)).find? fun w =>
      (w == 0 && objKind (get (Ent.fbObj p 0)) == 1 && rows.any fun r => mxCell bs r 0 != 0x2000) ||
        rows.any fun r => !cellFits get p bs w (mxCell bs r w)

/-- Two ID words meet in identifier and IDE. -/
def sameId (a b : Nat) : Bool := idOf a == idOf b && idExt a == idExt b

/-- Reason 4 at an object. -/
def objBad (get : Get) (p o : Nat) : Bool :=
  let v := get (Ent.fbObj p o)
  let idw := objIdw v
  let s := objStation v
  objKind v != 0 && (decide (3 < objKind v) || (objKind v == 1 && (o != 0 || objLen v != 8)) || (objKind v != 2 && s != 0) ||
    (objKind v == 2 && outObject get p s != some o) || !idOk idw || objDeadline v == 0 || (!idFd idw && decide (8 < bits v 51 48)) ||
    (idFd idw && get (Ent.fbMode p) == 1) ||
    ((List.range 128).any fun j => j != o && objKind (get (Ent.fbObj p j)) != 0 && sameId idw (objIdw (get (Ent.fbObj p j)))) ||
    (List.range 32).any fun j => hasInput get p j && sameId idw (get (Ent.fbstInId p j)))

/-- Reason 4 at a station. -/
def stationBad (get : Get) (p s : Nat) : Bool :=
  let idw := get (Ent.fbstInId p s)
  (match outObject get p s with
    | some o => objKind (get (Ent.fbObj p o)) != 2 || objStation (get (Ent.fbObj p o)) != s
    | none => get (Ent.fbstOutObject p s) != 0xFF) ||
  (hasInput get p s && (!idOk idw || !isDlcLen (get (Ent.fbstInLen p s)) || (!idFd idw && decide (8 < get (Ent.fbstInLen p s))) ||
    (idFd idw && get (Ent.fbMode p) == 1)))

/-- Reason 5 at a station. -/
def mapsBad (get : Get) (free : Nat → Bool) (p s : Nat) : Bool :=
  let bad := fun (n v : Nat) => bits v 25 24 == 3 || decide (19 < fmapShift v) || decide (n < fmapOff v + fmapBytes v)
  let outLen := match outObject get p s with | some o => objLen (get (Ent.fbObj p o)) | none => 0
  ((inMaps get p s).any fun v => bad (get (Ent.fbstInLen p s)) v || !free (fmapWord v)) || (outMaps get p s).any (bad outLen)

/-- The first finding of R335 among reasons 1 to 5: reason and place. -/
def portFinding (get : Get) (bs : List Byte) (free : Nat → Bool) (p : Nat) : Option (Nat × Nat) :=
  if !timingOk get p then some (1, 0xFFFF)
  else match matrixBad bs with
    | some w => some (2, w)
    | none => match boundBad get p bs with
      | some w => some (3, w)
      | none => match (List.range 128).find? (objBad get p) with
        | some o => some (4, o)
        | none => match (List.range 32).find? (stationBad get p) with
          | some s => some (4, s)
          | none => ((List.range 32).find? (mapsBad get free p)).map fun s => (5, s)

end Sys2Proof.Machine
end

