-- ==== Sys2Proof/Machine/FlintIsa.lean ====
section
/-! DEFINITION. Flint's instruction words (R219, R220, R223), the program image (R230), and the walk over a task's paths (R221, R222, R231). -/

namespace Sys2Proof.Machine

/-- A bit operation of format B from its opcode (Table 7.4). -/
def fbitOf : Nat → Option FBit
  | 0x00 => some .ld | 0x01 => some .and | 0x02 => some .or | 0x03 => some .xor | 0x04 => some .st | 0x05 => some .set | 0x06 => some .rst
  | 0x07 => some .andb | 0x08 => some .orb | 0x09 => some .xorb
  | _ => none

/-- A compare from its opcode. -/
def fcmpOf : Nat → Option FCmp
  | 0x10 => some .gt | 0x11 => some .lt | 0x12 => some .ge | 0x13 => some .le | 0x14 => some .eq | 0x15 => some .ne
  | _ => none

/-- The operation writes its operand. -/
def FBit.writes : FBit → Bool
  | .st | .set | .rst => true
  | _ => false

/-- The operand's index lies within its space (Table 7.2), apart from the counts of an image. -/
def FOperand.ok (x : FOperand) : Bool :=
  let i := x.index.val
  match x.space.val with
  | 0 => true
  | 1 => decide (i < 2048)
  | 2 => decide (i < 32768)
  | 3 => decide (i < 32768 ∧ i % 32 < 20)
  | 4 => decide (i < 512)
  | 5 => decide (i < 256)
  | 6 => decide (i < 5)
  | _ => false

/-- A bit operation is one that R223 defines. -/
def fbitDefined (op : FBit) (neg : Bool) (x : FOperand) : Bool :=
  x.ok && (!op.writes || range 1 3 x.space.val) && !(neg && (op == .set || op == .rst))

/-- Format B. -/
def decodeFB (op : FBit) (w : Nat) : Option FlintOp :=
  let x : FOperand := ⟨finOf 8 (bits w 19 17), finOf 131072 (bits w 16 0)⟩
  if bits w 24 20 = 0 ∧ fbitDefined op (bit w 25) x then some (.bit op (bit w 25) x) else none

/-- Formats V, T, J and Z. -/
def decodeFRest (w : Nat) : Option FlintOp :=
  let z := bits w 25 0 == 0
  match bits w 31 26 with
  | 0x0A => if z then some .pop else none
  | 0x0B => if z then some .not else none
  | 0x18 => if bits w 25 22 = 0 then some (.movk (finOf 1024 (bits w 21 12)) (finOf 4096 (bits w 11 0))) else none
  | 0x19 => if bits w 25 22 = 0 then some (.movi (finOf 1024 (bits w 21 12)) (finOf 4096 (bits w 11 0))) else none
  | 0x20 => if bits w 25 9 = 0 then some (.timer 0 (finOf 512 (bits w 8 0))) else none
  | 0x21 => if bits w 25 9 = 0 then some (.timer 1 (finOf 512 (bits w 8 0))) else none
  | 0x22 => if bits w 25 9 = 0 then some (.timer 2 (finOf 512 (bits w 8 0))) else none
  | 0x24 => if bits w 25 8 = 0 then some (.counter 0 (finOf 256 (bits w 7 0))) else none
  | 0x25 => if bits w 25 8 = 0 then some (.counter 1 (finOf 256 (bits w 7 0))) else none
  | 0x26 => if bits w 25 8 = 0 then some (.counter 2 (finOf 256 (bits w 7 0))) else none
  | 0x28 => if bits w 25 13 = 0 then some (.edge false (finOf 8192 (bits w 12 0))) else none
  | 0x29 => if bits w 25 13 = 0 then some (.edge true (finOf 8192 (bits w 12 0))) else none
  | 0x30 => if bits w 25 17 = 0 then some (.jmp 0 (finOf 131072 (bits w 16 0))) else none
  | 0x31 => if bits w 25 17 = 0 then some (.jmp 1 (finOf 131072 (bits w 16 0))) else none
  | 0x32 => if bits w 25 17 = 0 then some (.jmp 2 (finOf 131072 (bits w 16 0))) else none
  | 0x3E => if z then some .nop else none
  | 0x3F => if z then some .fend else none
  | _ => none

/-- The operation of a word; none where R223 makes it undefined. -/
def flintDecode (w : Nat) : Option FlintOp :=
  match fbitOf (bits w 31 26) with
  | some op => decodeFB op w
  | none =>
    match fcmpOf (bits w 31 26) with
    | some op => some (.cmp op (bit w 25) (bit w 24) (finOf 4096 (bits w 23 12)) (finOf 4096 (bits w 11 0)))
    | none => decodeFRest w

/-! ### Words from operations -/

/-- The opcode of a bit operation (Table 7.4). -/
def fbitCode : FBit → Nat
  | .ld => 0x00 | .and => 0x01 | .or => 0x02 | .xor => 0x03 | .st => 0x04 | .set => 0x05 | .rst => 0x06
  | .andb => 0x07 | .orb => 0x08 | .xorb => 0x09

/-- The opcode of a compare. -/
def fcmpCode : FCmp → Nat
  | .gt => 0x10 | .lt => 0x11 | .ge => 0x12 | .le => 0x13 | .eq => 0x14 | .ne => 0x15

/-- The word of an operation (R219, R220). -/
def flintEncode : FlintOp → Nat
  | .bit op neg x => fbitCode op * 2 ^ 26 + b01 neg * 2 ^ 25 + x.space.val * 2 ^ 17 + x.index.val
  | .pop => 0x0A * 2 ^ 26
  | .not => 0x0B * 2 ^ 26
  | .cmp c good flagWord w x => fcmpCode c * 2 ^ 26 + b01 good * 2 ^ 25 + b01 flagWord * 2 ^ 24 + w.val * 2 ^ 12 + x.val
  | .movk f c => 0x18 * 2 ^ 26 + f.val * 2 ^ 12 + c.val
  | .movi f w => 0x19 * 2 ^ 26 + f.val * 2 ^ 12 + w.val
  | .timer kind t => (0x20 + kind.val) * 2 ^ 26 + t.val
  | .counter kind c => (0x24 + kind.val) * 2 ^ 26 + c.val
  | .edge falling e => (0x28 + b01 falling) * 2 ^ 26 + e.val
  | .jmp kind t => (0x30 + kind.val) * 2 ^ 26 + t.val
  | .nop => 0x3E * 2 ^ 26
  | .fend => 0x3F * 2 ^ 26

/-- The operation is one that R223 defines. -/
def FlintOp.defined : FlintOp → Bool
  | .bit op neg x => fbitDefined op neg x
  | _ => true

/-! ### The image (Table 7.5) -/

/-- `n` fields of `len` bytes from an offset. -/
def fields (bs : List Byte) (off len n : Nat) : List Nat := (List.range n).map fun i => leAt bs (off + len * i) len

/-- Take an image apart. -/
def parseFlint (bs : List Byte) : FlintImage :=
  let w := leAt bs 12 4
  let ni := leAt bs 16 2
  let nk := leAt bs 18 2
  let no := leAt bs 20 2
  let nf := leAt bs 22 2
  let nt := leAt bs 24 2
  let nc := leAt bs 26 2
  let nr := leAt bs 28 2
  let o1 := 160 + 4 * ni
  let o2 := o1 + 4 * nk
  let o3 := o2 + 8 * no
  let o4 := o3 + 8 * nf
  let o5 := o4 + 4 * nt
  let o6 := o5 + 4 * nc
  let o7 := o6 + 8 * nr
  let word := fun v => FlintWord.mk (bits v 17 0) (bits v 20 18) (BitVec.ofNat 20 (v / 2 ^ 32))
  { pid := leAt bs 8 4
    tasks := (List.range 8).map fun k => let t := 32 + 16 * k; ⟨leAt bs t 4, leAt bs (t + 4) 4, leAt bs (t + 8) 4, leAt bs (t + 12) 1, leAt bs (t + 14) 2⟩
    inputs := (fields bs 160 4 ni).map (fun v => bits v 17 0)
    consts := (fields bs o1 4 nk).map (fun v => BitVec.ofNat 20 v)
    ovr := (fields bs o2 8 no).map word
    flags := (fields bs o3 8 nf).map word
    tpre := fields bs o4 4 nt
    cpre := fields bs o5 4 nc
    retain := (fields bs o6 8 nr).map fun v => ⟨v % 256, v / 2 ^ 8 % 256 == 1, v / 2 ^ 16 % 2 ^ 16, v / 2 ^ 32 % 2 ^ 16⟩
    code := fields bs o7 4 w }

/-- Bytes of an image before its signature block. -/
def flintLength (bs : List Byte) : Nat :=
  160 + 4 * leAt bs 16 2 + 4 * leAt bs 18 2 + 8 * leAt bs 20 2 + 8 * leAt bs 22 2 + 4 * leAt bs 24 2 + 4 * leAt bs 26 2 + 8 * leAt bs 28 2 + 4 * leAt bs 12 4

/-! ### Paths

Jumps go forward only, so one pass from a task's entry visits every path. -/

/-- Where an instruction leads: the next word, and the jump target. -/
def flintNext : FlintOp → Bool × Option Nat
  | .fend => (false, none)
  | .jmp k t => (k != 0, some t.val)
  | _ => (true, none)

/-- The words that the paths from a task's entry reach: `todo` are jump targets ahead, `here` says that the path falls into word `i`. -/
def flintReach : List Nat → Nat → Nat → Bool → List Nat → List Nat
  | [], _, _, _, _ => []
  | w :: ws, i, entry, here, todo =>
    if here || i == entry || todo.contains i then
      match flintDecode w with
      | some op => i :: flintReach ws (i + 1) entry (flintNext op).1 (match (flintNext op).2 with | some t => t :: todo | none => todo)
      | none => i :: flintReach ws (i + 1) entry false todo
    else flintReach ws (i + 1) entry false todo

/-- The operations of a task, with their words. -/
def flintTaskOps (img : FlintImage) (k : Nat) : List (Nat × FlintOp) :=
  match img.tasks[k]? with
  | some t =>
    if t.period = 0 then []
    else (flintReach img.code 0 t.entry false []).filterMap fun i => (flintDecode (img.code.getD i 0)).map fun o => (i, o)
  | none => []

/-- The permit that an operation writes, and the flag word. -/
def opPermit : FlintOp → Option Nat
  | .bit op _ x => if op.writes && x.space.val == 1 then some x.index.val else none
  | _ => none
def opFlag : FlintOp → Option Nat
  | .bit op _ x => if op.writes && x.space.val == 3 then some (x.index.val / 32) else none
  | .movk f _ => some f.val
  | .movi f _ => some f.val
  | _ => none
/-- The timer (0), counter (1) or edge bit (2) that an operation uses (R226); RSTC resets the counter of a CTU or CTD and is no use of its own (DEDUCED: R225 gives it the kind of that counter). -/
def opUnit : FlintOp → Option (Nat × Nat)
  | .timer _ t => some (0, t.val)
  | .counter k c => if k.val = 2 then none else some (1, c.val)
  | .edge _ e => some (2, e.val)
  | _ => none

/-- The permits and flag words that a task's code writes (R214). -/
def taskPermits (img : FlintImage) (k : Nat) : List Nat := ((flintTaskOps img k).filterMap fun o => opPermit o.2).eraseDups
def taskFlags (img : FlintImage) (k : Nat) : List Nat := ((flintTaskOps img k).filterMap fun o => opFlag o.2).eraseDups

/-- Longest path from each word to END, last word first (R221). -/
def flintCosts (code : List Nat) : List Nat :=
  code.zipIdx.foldr (fun wi rest =>
    let at_ := fun t => rest.getD (t - (wi.2 + 1)) 0
    let c := match flintDecode wi.1 with
      | some .fend => 1
      | some (.jmp 0 t) => 2 + at_ t.val
      | some (.jmp _ t) => max (2 + at_ t.val) (1 + rest.headD 0)
      | _ => 1 + rest.headD 0
    c :: rest) []

/-- Worst-case cycle time of a task (R221). -/
def flintWcet (img : FlintImage) (k : Nat) : Nat :=
  match img.tasks[k]? with
  | some t => if t.period = 0 then 0 else (flintCosts img.code).getD t.entry 0
  | none => 0

/-! ### The static check (R231) -/

/-- Operand indices within the image's counts (reason 4). -/
def opIndexOk (img : FlintImage) : FlintOp → Bool
  | .bit _ _ x =>
    match x.space.val with
    | 0 => decide (x.index.val / 32 < img.inputs.length)
    | 1 => decide (x.index.val < img.ovr.length)
    | 3 => decide (x.index.val / 32 < img.flags.length)
    | _ => true
  | .cmp _ _ s w c => decide (w.val < (if s then img.flags.length else img.inputs.length)) && decide (c.val < img.consts.length)
  | .movk f c => decide (f.val < img.flags.length) && decide (c.val < img.consts.length)
  | .movi f w => decide (f.val < img.flags.length) && decide (w.val < img.inputs.length)
  | _ => true

/-- The branch-stack depth after an operation; none where R222 is broken. -/
def depthAfter (d : Nat) : FlintOp → Option Nat
  | .bit op _ _ => match op with
    | .andb | .orb | .xorb => if d < 8 then some (d + 1) else none
    | _ => some d
  | .pop => if d = 0 then none else some (d - 1)
  | .fend => if d = 0 then some 0 else none
  | _ => some d

/-- Walk a task's paths: the first failing word with its reason (Table 7.7, reasons 3 to 6 and 9). `here` is the depth with which the path falls into word `i`. -/
def flintWalk (img : FlintImage) : List Nat → Nat → Nat → Option Nat → List (Nat × Nat) → Option (Nat × Nat)
  | [], i, _, here, _ => if here.isSome then some (i - 1, 9) else none
  | w :: ws, i, entry, here, todo =>
    let here := if i = entry then some (here.getD 0) else here
    let jumped := (todo.filter fun t => t.1 == i).map Prod.snd
    let all := (match here with | some d => [d] | none => []) ++ jumped
    match all with
    | [] => flintWalk img ws (i + 1) entry none todo
    | d :: more =>
      if more.any (fun x => x != d) then some (i, 6)
      else match flintDecode w with
        | none => some (i, 3)
        | some op =>
          if !opIndexOk img op then some (i, 4)
          else match (flintNext op).2 with
            | some t =>
              if t ≤ i ∨ img.code.length ≤ t then some (i, 5)
              else flintWalk img ws (i + 1) entry (if (flintNext op).1 then some d else none) ((t, d) :: todo)
            | none =>
              match depthAfter d op with
              | none => some (i, 6)
              | some d' => flintWalk img ws (i + 1) entry (if (flintNext op).1 then some d' else none) todo

/-- The first word that repeats a use: two tasks write one permit or flag word, or two instructions use one unit (reason 7). -/
def flintRepeat (img : FlintImage) : Option Nat :=
  let ops := (List.range 8).flatMap fun k => (flintTaskOps img k).map fun o => (k, o.1, o.2)
  let clash := fun (a b : Nat × Nat × FlintOp) =>
    (a.1 != b.1 && ((opPermit b.2.2).isSome && opPermit a.2.2 == opPermit b.2.2 || (opFlag b.2.2).isSome && opFlag a.2.2 == opFlag b.2.2)) ||
    (a.2.1 != b.2.1 && (opUnit b.2.2).isSome && opUnit a.2.2 == opUnit b.2.2)
  (ops.zipIdx.find? fun b => (ops.take b.2).any fun a => clash a b.1).map fun b => b.1.2.1

/-- The 4-byte values of an image that the I20 rule binds are in it (Table 7.5); one that is not is taken under reason 1 (DEDUCED: Table 7.7 names no reason for it). -/
def flintI20Ok (bs : List Byte) (img : FlintImage) : Bool :=
  let o1 := 160 + 4 * img.inputs.length
  let o2 := o1 + 4 * img.consts.length
  let ok := fun v => decide (v < 2 ^ 19) || decide (2 ^ 32 - 2 ^ 19 ≤ v)
  (fields bs o1 4 img.consts.length).all ok && (fields bs o2 8 (img.ovr.length + img.flags.length)).all fun v => ok (v / 2 ^ 32)

/-- Header and counts (reason 1). -/
def flintHeaderOk (bs : List Byte) : Bool :=
  leAt bs 0 4 == 0x464C4E54 && leAt bs 4 4 == 1 && range 1 131072 (leAt bs 12 4) && decide (leAt bs 16 2 ≤ 4096) && decide (leAt bs 18 2 ≤ 4096) &&
    decide (leAt bs 20 2 ≤ 2048) && decide (leAt bs 22 2 ≤ 1024) && decide (leAt bs 24 2 ≤ 512) && decide (leAt bs 26 2 ≤ 256) &&
    decide (leAt bs 28 2 ≤ 4096) && leAt bs 30 2 == 0 && decide (flintLength bs ≤ (imagePart bs).length)

/-- A task table entry (reason 2). -/
def flintTaskOk (bs : List Byte) (img : FlintImage) (k : Nat) : Bool :=
  match img.tasks[k]? with
  | some t => t.period == 0 || (range 5 50000 t.period && decide (t.phase < t.period) && decide (t.tol ≤ 15) && decide (t.entry < img.code.length) &&
      leAt bs (32 + 16 * k + 13) 1 == 0)
  | none => true

/-- Retained items of a kind (R238). -/
def retainCount : Nat → Nat
  | 1 => 8192 | 2 => 512 | 3 => 256 | 4 => 8192 | _ => 0

/-- The retain map (reason 10): kind, operation, indices and the last two bytes as R238 lays them out, and no destination moved to twice. -/
def flintRetainOk (bs : List Byte) (img : FlintImage) : Bool :=
  ((fields bs (flintLength bs - 4 * leAt bs 12 4 - 8 * img.retain.length) 8 img.retain.length).all fun v => bits v 15 9 == 0 && bits v 63 48 == 0) &&
  (img.retain.all fun r => decide (r.dst < retainCount r.kind) && (if r.clear then r.src == 0 else decide (r.src < retainCount r.kind))) &&
    (let ds := (img.retain.filter fun r => !r.clear).map fun r => (r.kind, r.dst); decide (ds.eraseDups.length = ds.length))

/-- Addresses of overrides and flags, without the freedom part of reason 8. -/
def flintAddrOk (bs : List Byte) (img : FlintImage) : Bool :=
  let raw := fields bs (160 + 4 * img.inputs.length + 4 * img.consts.length) 8 (img.ovr.length + img.flags.length)
  (raw.all fun v => bits v 31 21 == 0) && decide ((img.ovr.map FlintWord.addr).eraseDups.length = img.ovr.length) &&
    decide ((img.flags.map FlintWord.addr).eraseDups.length = img.flags.length)

/-- The first failing word of the paths of all used tasks, with its reason (reasons 3 to 7 and 9). -/
def flintFirst (img : FlintImage) : Option (Nat × Nat) :=
  let walks := (List.range 8).filterMap fun k => match img.tasks[k]? with
    | some t => if t.period = 0 then none else flintWalk img img.code 0 t.entry none []
    | none => none
  let found := walks ++ (match flintRepeat img with | some i => [(i, 7)] | none => [])
  found.foldl (fun (acc : Option (Nat × Nat)) x => match acc with
    | none => some x
    | some a => if decide (x.1 < a.1) || (x.1 == a.1 && decide (x.2 < a.2)) then some x else some a) none

/-- The static check of an image, all but the freedom part of reason 8 and reason 11: failing word (FFFF_FFFFh for none) and reason. -/
def flintCheck (bs : List Byte) : Option (Nat × Nat) :=
  let img := parseFlint bs
  let none_ := 0xFFFFFFFF
  if !flintHeaderOk bs || !flintI20Ok bs img then some (none_, 1)
  else if (List.range 8).any (fun k => !flintTaskOk bs img k) then some (none_, 2)
  else match flintFirst img with
    | some r => some r
    | none => if !flintAddrOk bs img then some (none_, 8) else if !flintRetainOk bs img then some (none_, 10) else none

end Sys2Proof.Machine
end

