-- ==== Sys2Proof/Machine/Flint.lean ====
section
/-! DEFINITION. Flint (chapter 7): operands and execution (R218 to R226), releases, overruns and faults (R207, R227 to R229), forces' orphans and the online change (R236 to R239), and what the output writer takes (R213 to R217). -/

namespace Sys2Proof.Machine

/-! ### Access -/

def Module.ftask (m : Module) (k : Nat) : FlintTask := Sparse.get (fun _ => FlintTask.init) m.flint.tasks k
def modFtask (k : Nat) (f : FlintTask → FlintTask) (m : Module) : Module :=
  { m with flint := { m.flint with tasks := Sparse.mod (fun _ => FlintTask.init) m.flint.tasks k f } }
def Module.ftimer (m : Module) (t : Nat) : FTimer := Sparse.get (fun _ => FTimer.init) m.flint.data.timers t
def Module.fcounter (m : Module) (c : Nat) : FCounter := Sparse.get (fun _ => FCounter.init) m.flint.data.counters c
def FData.marker (d : FData) (i : Nat) : Bool := Sparse.get (fun _ => false) d.markers i
def FData.edge (d : FData) (i : Nat) : Bool := Sparse.get (fun _ => false) d.edges i
def modFData (f : FData → FData) (m : Module) : Module := { m with flint := { m.flint with data := f m.flint.data } }
def setFtimer (t : Nat) (x : FTimer) (m : Module) : Module := modFData (fun d => { d with timers := Sparse.set (fun _ => FTimer.init) d.timers t x }) m
def setFcounter (c : Nat) (x : FCounter) (m : Module) : Module := modFData (fun d => { d with counters := Sparse.set (fun _ => FCounter.init) d.counters c x }) m
def setMarker (i : Nat) (v : Bool) (m : Module) : Module := modFData (fun d => { d with markers := Sparse.set (fun _ => false) d.markers i v }) m
def setEdge (i : Nat) (v : Bool) (m : Module) : Module := modFData (fun d => { d with edges := Sparse.set (fun _ => false) d.edges i v }) m

/-- A permit of the override table; a flag word's value as last released. -/
def Module.permit (m : Module) (q : Nat) : Bool := Sparse.get (fun _ => false) m.flint.permits q
def Module.flagVal (m : Module) (f : Nat) : Q := Sparse.get (fun _ => 0) m.flint.flags f
def setPermit (q : Nat) (v : Bool) (m : Module) : Module :=
  { m with flint := { m.flint with permits := Sparse.set (fun _ => false) m.flint.permits q v } }
def setFlagVal (f : Nat) (v : Q) (m : Module) : Module := { m with flint := { m.flint with flags := Sparse.set (fun _ => 0) m.flint.flags f v } }

/-- Payload of a Flint event (R241), bytes 30 to 40. -/
def flintBody (index addr b36 v37 : Nat) : List Byte := leBytes 2 index ++ leBytes 4 addr ++ leBytes 1 b36 ++ leBytes 4 v37

/-! ### Operands (Table 7.2) -/

/-- Read an operand for a task. -/
def flintRead (m : Module) (k : Nat) (x : FOperand) : Bool :=
  let t := m.ftask k
  let i := x.index.val
  match x.space.val with
  | 0 => (t.image.getD (i / 32) 0).getLsbD (i % 32)
  | 1 => Sparse.get (fun _ => false) t.permits i
  | 2 => m.flint.data.marker i
  | 3 => (Sparse.get (fun _ => (0 : Q)) t.flags (i / 32)).getLsbD (i % 32)
  | 4 => (m.ftimer i).q
  | 5 => (m.fcounter i).q
  | 6 => (match i with | 0 => true | 2 => t.first | 3 => t.switched | 4 => t.late | _ => false)
  | _ => false

/-- A flag word of a task's buffer. -/
def FlintTask.flag (t : FlintTask) (f : Nat) : Q := Sparse.get (fun _ => 0) t.flags f
def FlintTask.setFlag (f : Nat) (v : Q) (t : FlintTask) : FlintTask := { t with flags := Sparse.set (fun _ => 0) t.flags f v }
/-- Bit `b` of a 20-bit value set to `v`. -/
def putBit (q : Q) (b : Nat) (v : Bool) : Q := if v then q ||| (1#20 <<< b) else q &&& ~~~(1#20 <<< b)

/-- Write an operand for a task: permits and flag bits into its buffer, markers at once. -/
def flintWrite (k : Nat) (x : FOperand) (v : Bool) (m : Module) : Module :=
  let i := x.index.val
  match x.space.val with
  | 1 => modFtask k (fun t => { t with permits := Sparse.set (fun _ => false) t.permits i v }) m
  | 2 => setMarker i v m
  | 3 => modFtask k (fun t => t.setFlag (i / 32) (putBit (t.flag (i / 32)) (i % 32) v)) m
  | _ => m

/-! ### Execution -/

/-- A pending operation of the branch stack applied. -/
def FStackOp.apply (o : FStackOp) (a b : Bool) : Bool :=
  match o with
  | .and => a && b
  | .or => a || b
  | .xor => a != b

/-- A compare on signed 20-bit values. -/
def FCmp.holds (c : FCmp) (a b : Int) : Bool :=
  match c with
  | .gt => decide (b < a)
  | .lt => decide (a < b)
  | .ge => decide (b ≤ a)
  | .le => decide (a ≤ b)
  | .eq => decide (a = b)
  | .ne => !decide (a = b)

/-- A timer instruction (R224): kind 0 TON, 1 TOF, 2 TP; `e` the epoch of the cycle's release tick. -/
def timerStep (kind preset e : Nat) (acc : Bool) (t : FTimer) : FTimer :=
  let t' := match kind with
    | 0 =>
      if acc then
        let s : Int := if t.running then t.start else e
        { t with running := true, start := s, q := decide (preset + s ≤ e) }
      else { t with running := false, q := false }
    | 1 =>
      if acc then { t with running := false, q := true }
      else
        let t := if t.q && !t.running then { t with running := true, start := e } else t
        if t.running && decide (preset + t.start ≤ e) then { t with q := false, running := false } else t
    | _ =>
      let t := if acc && !t.running && !t.prev then { t with running := true, start := e, q := true } else t
      if t.running && decide (preset + t.start ≤ e) then { t with q := false, running := false } else t
  { t' with prev := acc, elapsed := if t'.running then ((e : Int) - t'.start).toNat else 0 }

/-- A counter instruction (R225): kind 0 CTU, 1 CTD, 2 RSTC. -/
def counterStep (kind pv : Nat) (down acc : Bool) (c : FCounter) : FCounter :=
  match kind with
  | 0 =>
    let cv := if acc && !c.prev then min (c.cv + 1) (2 ^ 32 - 1) else c.cv
    ⟨cv, acc, decide (pv ≤ cv)⟩
  | 1 =>
    let cv := if acc && !c.prev then c.cv - 1 else c.cv
    ⟨cv, acc, cv == 0⟩
  | _ => if acc then { c with cv := if down then pv else 0 } else c

/-- The counter is a CTD counter of the image. -/
def isDown (img : FlintImage) (c : Nat) : Bool :=
  img.code.any fun w => match flintDecode w with | some (.counter k x) => k == 1 && x.val == c | _ => false

/-- The task that executes: the lowest-numbered one whose cycle has not ended (R208). -/
def Module.fcurrent (m : Module) : Option Nat := (List.range 8).find? fun k => (m.ftask k).active && !(m.ftask k).ended

/-- Core cycles pass: every cycle not ended has spent them. -/
def flintSpend (n : Nat) (m : Module) : Module :=
  forN 8 (fun k m => if (m.ftask k).active && !(m.ftask k).ended then modFtask k (fun t => { t with spent := t.spent + n }) m else m) m

def setAcc (k : Nat) (v : Bool) (m : Module) : Module := modFtask k (fun t => { t with acc := v }) m

/-- The action of an instruction on task `k` (Table 7.4), the program counter apart. -/
def flintAction (k : Nat) (op : FlintOp) (m : Module) : Module :=
  let t := m.ftask k
  match op with
  | .bit o neg x =>
    let v := flintRead m k x != neg
    match o with
    | .ld => setAcc k v m
    | .and => setAcc k (t.acc && v) m
    | .or => setAcc k (t.acc || v) m
    | .xor => setAcc k (t.acc != v) m
    | .st => flintWrite k x (t.acc != neg) m
    | .set => if t.acc then flintWrite k x true m else m
    | .rst => if t.acc then flintWrite k x false m else m
    | .andb => modFtask k (fun t => { t with stack := (t.acc, .and) :: t.stack, acc := v }) m
    | .orb => modFtask k (fun t => { t with stack := (t.acc, .or) :: t.stack, acc := v }) m
    | .xorb => modFtask k (fun t => { t with stack := (t.acc, .xor) :: t.stack, acc := v }) m
  | .pop =>
    match t.stack with
    | (s, o) :: rest => modFtask k (fun t => { t with stack := rest, acc := o.apply s t.acc }) m
    | [] => m
  | .not => setAcc k (!t.acc) m
  | .cmp c good flagWord w x =>
    let iw := t.image.getD w.val 0
    let v : Int := if flagWord then (t.flag w.val).toInt else wInt iw
    let okV := flagWord || !good || wValid iw
    setAcc k (t.acc && c.holds v (m.flint.img.consts.getD x.val 0).toInt && okV) m
  | .movk f c => if t.acc then modFtask k (fun t => t.setFlag f.val (m.flint.img.consts.getD c.val 0)) m else m
  | .movi f w => if t.acc then modFtask k (fun t => t.setFlag f.val (wValue (t.image.getD w.val 0))) m else m
  | .timer kind x =>
    let r := timerStep kind.val (m.flint.img.tpre.getD x.val 0) t.epoch t.acc (m.ftimer x.val)
    setAcc k r.q (setFtimer x.val r m)
  | .counter kind x =>
    let r := counterStep kind.val (m.flint.img.cpre.getD x.val 0) (isDown m.flint.img x.val) t.acc (m.fcounter x.val)
    let m := setFcounter x.val r m
    if kind.val = 2 then m else setAcc k r.q m
  | .edge falling e =>
    let old := m.flint.data.edge e.val
    let r := if falling then !t.acc && old else t.acc && !old
    setAcc k r (setEdge e.val t.acc m)
  | .jmp _ _ => m
  | .nop => m
  | .fend => m

/-- The jump is taken. -/
def jumpTaken (t : FlintTask) : FlintOp → Option Nat
  | .jmp kind x => match kind.val with
    | 0 => some x.val
    | 1 => if t.acc then some x.val else none
    | _ => if t.acc then none else some x.val
  | _ => none

/-- END (R207): the cycle has ended, its outputs held in the buffer; execution time is recorded (Table 7.9). -/
def flintEnd (k : Nat) (m : Module) : Module :=
  let spent := (m.ftask k).spent
  let m := modFtask k (fun t => { t with ended := true }) m
  let m := (m.setStat (Ent.flintTaskLastExec k) (min spent (2 ^ 32 - 1))).peak (Ent.flintTaskMaxExec k) (min spent (2 ^ 32 - 1))
  let m := m.bump (Ent.flintTaskCycles k)
  if m.fcurrent.isNone then { m with flint := { m.flint with running := none } } else m

/-- Flint issues an instruction of the highest-priority task under way (R208); nothing happens with none, or where another instruction stands at its address. -/
def flintIssue (op : FlintOp) (m : Module) : Module :=
  match m.fcurrent with
  | none => m
  | some k =>
    let t := m.ftask k
    if flintDecode (m.flint.img.code.getD t.pc 0) ≠ some op ∨ m.flint.img.code.length ≤ t.pc then m
    else
      let switchCost := match m.flint.running with | some j => if j = k then 0 else 4 | none => 0
      let m := { m with flint := { m.flint with running := some k } }
      let j := jumpTaken t op
      let m := flintSpend (switchCost + if j.isSome then 2 else 1) m
      let m := flintAction k op m
      let m := modFtask k (fun t => { t with pc := j.getD (t.pc + 1) }) m
      if op = .fend then flintEnd k m else m

/-- A Flint instruction as a command. -/
def flintCommand (op : FlintOp) (s : State) : Host.Outcome State Fault Refusal := s.run (flintIssue op)

def execFlintPop (s : State) : Host.Outcome State Fault Refusal := flintCommand .pop s
def execFlintNot (s : State) : Host.Outcome State Fault Refusal := flintCommand .not s
def execFlintMovk (f : Fin 1024) (c : Fin 4096) (s : State) : Host.Outcome State Fault Refusal := flintCommand (.movk f c) s
def execFlintMovi (f : Fin 1024) (w : Fin 4096) (s : State) : Host.Outcome State Fault Refusal := flintCommand (.movi f w) s
def execFlintTon (t : Fin 512) (s : State) : Host.Outcome State Fault Refusal := flintCommand (.timer 0 t) s
def execFlintTof (t : Fin 512) (s : State) : Host.Outcome State Fault Refusal := flintCommand (.timer 1 t) s
def execFlintTp (t : Fin 512) (s : State) : Host.Outcome State Fault Refusal := flintCommand (.timer 2 t) s
def execFlintCtu (c : Fin 256) (s : State) : Host.Outcome State Fault Refusal := flintCommand (.counter 0 c) s
def execFlintCtd (c : Fin 256) (s : State) : Host.Outcome State Fault Refusal := flintCommand (.counter 1 c) s
def execFlintRstc (c : Fin 256) (s : State) : Host.Outcome State Fault Refusal := flintCommand (.counter 2 c) s
def execFlintEdgr (e : Fin 8192) (s : State) : Host.Outcome State Fault Refusal := flintCommand (.edge false e) s
def execFlintEdgf (e : Fin 8192) (s : State) : Host.Outcome State Fault Refusal := flintCommand (.edge true e) s
def execFlintJmp (target : Fin 131072) (s : State) : Host.Outcome State Fault Refusal := flintCommand (.jmp 0 target) s
def execFlintJmpc (target : Fin 131072) (s : State) : Host.Outcome State Fault Refusal := flintCommand (.jmp 1 target) s
def execFlintJmpn (target : Fin 131072) (s : State) : Host.Outcome State Fault Refusal := flintCommand (.jmp 2 target) s
def execFlintNop (s : State) : Host.Outcome State Fault Refusal := flintCommand .nop s
def execFlintEnd (s : State) : Host.Outcome State Fault Refusal := flintCommand .fend s
def execFlintLd (neg : Bool) (x : FOperand) (s : State) : Host.Outcome State Fault Refusal := flintCommand (.bit .ld neg x) s
def execFlintAnd (neg : Bool) (x : FOperand) (s : State) : Host.Outcome State Fault Refusal := flintCommand (.bit .and neg x) s
def execFlintOr (neg : Bool) (x : FOperand) (s : State) : Host.Outcome State Fault Refusal := flintCommand (.bit .or neg x) s
def execFlintXor (neg : Bool) (x : FOperand) (s : State) : Host.Outcome State Fault Refusal := flintCommand (.bit .xor neg x) s
def execFlintSt (neg : Bool) (x : FOperand) (s : State) : Host.Outcome State Fault Refusal := flintCommand (.bit .st neg x) s
def execFlintAndb (neg : Bool) (x : FOperand) (s : State) : Host.Outcome State Fault Refusal := flintCommand (.bit .andb neg x) s
def execFlintOrb (neg : Bool) (x : FOperand) (s : State) : Host.Outcome State Fault Refusal := flintCommand (.bit .orb neg x) s
def execFlintXorb (neg : Bool) (x : FOperand) (s : State) : Host.Outcome State Fault Refusal := flintCommand (.bit .xorb neg x) s
def execFlintSet (x : FOperand) (s : State) : Host.Outcome State Fault Refusal := flintCommand (.bit .set false x) s
def execFlintRst (x : FOperand) (s : State) : Host.Outcome State Fault Refusal := flintCommand (.bit .rst false x) s
def execFlintCgt (good flagWord : Bool) (w : Fin 4096) (c : Fin 4096) (s : State) : Host.Outcome State Fault Refusal := flintCommand (.cmp .gt good flagWord w c) s
def execFlintClt (good flagWord : Bool) (w : Fin 4096) (c : Fin 4096) (s : State) : Host.Outcome State Fault Refusal := flintCommand (.cmp .lt good flagWord w c) s
def execFlintCge (good flagWord : Bool) (w : Fin 4096) (c : Fin 4096) (s : State) : Host.Outcome State Fault Refusal := flintCommand (.cmp .ge good flagWord w c) s
def execFlintCle (good flagWord : Bool) (w : Fin 4096) (c : Fin 4096) (s : State) : Host.Outcome State Fault Refusal := flintCommand (.cmp .le good flagWord w c) s
def execFlintCeq (good flagWord : Bool) (w : Fin 4096) (c : Fin 4096) (s : State) : Host.Outcome State Fault Refusal := flintCommand (.cmp .eq good flagWord w c) s
def execFlintCne (good flagWord : Bool) (w : Fin 4096) (c : Fin 4096) (s : State) : Host.Outcome State Fault Refusal := flintCommand (.cmp .ne good flagWord w c) s

/-! ### Releases -/

/-- The task table entry of a task. -/
def Module.ftcfg (m : Module) (k : Nat) : FlintTaskCfg := m.flint.img.tasks.getD k ⟨0, 0, 0, 0, 0⟩

/-- Tick `e` is a release tick of task `k` (R206). -/
def releaseTick (m : Module) (k e : Nat) : Bool :=
  let t := m.ftcfg k
  t.period != 0 && decide (t.phase ≤ e) && (e - t.phase) % t.period == 0

/-- A permit of the override table changes; event 0708h names the source (R241). -/
def changePermit (source q : Nat) (v : Bool) (m : Module) : Module :=
  if m.permit q == v then m
  else
    let addr := match m.flint.img.ovr[q]? with | some o => o.addr | none => 0
    raise source 0x0708 (flintBody q addr (b01 v) 0) (setPermit q v m)

/-- The release of an ended cycle's buffer (R207), which a standing fault keeps from table and words (R229). -/
def releaseBuffer (source k : Nat) (m : Module) : Module :=
  let t := m.ftask k
  if m.stat (Ent.flintTaskFault k) != 0 then m
  else
    let m := forL (taskPermits m.flint.img k) (fun q m => changePermit source q (Sparse.get (fun _ => false) t.permits q) m) m
    forL (taskFlags m.flint.img k) (fun f m => setFlagVal f (t.flag f) m) m

/-- The retained part of the data, timers with their elapsed ticks (R235). -/
def retained (d : FData) : FData := { d with markers := d.markers.filter fun e => decide (e.1 < 8192) }

/-- Journal an item in place of its last copy (Table 14.13). -/
def journal (same : JItem → Bool) (j : JItem) (m : Module) : Module :=
  { m with nv := { m.nv with journal := m.nv.journal.filter (fun x => !same x) ++ [j] } }

/-- Each release journals the retained data (R235). -/
def journalFlint (e : Nat) (m : Module) : Module :=
  let d := { m.flint.data with timers := m.flint.data.timers.map fun t => (t.1, { t.2 with elapsed := if t.2.running then ((e : Int) - t.2.start).toNat else 0 }) }
  journal (fun j => match j with | .flint _ _ => true | _ => false) (.flint (retained d) m.flint.img.pid) m

/-- A task's stop completes (R209): its permits drop, its flag words are written once more with STALE. -/
def taskStopped (k : Nat) (m : Module) : Module :=
  let m := forL (taskPermits m.flint.img k) (fun q m => changePermit fnFlint q false m) m
  let fs := taskFlags m.flint.img k
  let once := fs.filterMap fun f => (m.flint.img.flags[f]?).map fun w => (w.group, FlintWord.mk w.addr w.group (m.flagVal f))
  let fl := { m.flint with onceStale := m.flint.onceStale ++ once, silent := m.flint.silent ++ fs }
  modFtask k (fun t => { t with active := false, ended := false, released := false }) { m with flint := fl }

/-- A task faults (R229). `why`: 1 count, 2 lateness. -/
def taskFault (k why : Nat) (m : Module) : Module :=
  if m.stat (Ent.flintTaskFault k) != 0 then m
  else
    let m := forL (taskPermits m.flint.img k) (fun q m => changePermit fnFlint q false m) m
    let m := { m with flint := { m.flint with staleFlags := m.flint.staleFlags ++ taskFlags m.flint.img k } }
    let m := (m.setStat (Ent.flintTaskFault k) 1).bump (Ent.flintTaskFaults k)
    raise (fnTask k) 0x0702 (flintBody 0 0 why (m.stat (Ent.flintTaskOverrunConsec k))) m

/-- The fault of a task is cleared (R229). -/
def taskFaultClear (k : Nat) (m : Module) : Module :=
  if m.stat (Ent.flintTaskFault k) = 0 then m.setStat (Ent.flintTaskOverrunConsec k) 0
  else
    let fs := taskFlags m.flint.img k
    let m := { m with flint := { m.flint with staleFlags := m.flint.staleFlags.filter (fun f => !fs.contains f) } }
    raise (fnTask k) 0x0703 [] ((m.setStat (Ent.flintTaskFault k) 0).setStat (Ent.flintTaskOverrunConsec k) 0)

/-- Step 1 of a release tick for one task (R211, R227): an ended cycle is released, a cycle not ended is an overrun; a stop completes here (R209), `stop` being what completes a function's stop. -/
def releaseTask (stop : Nat → Module → Module) (e k : Nat) (m : Module) : Module :=
  let t := m.ftask k
  let t := if m.standby then { t with ended := !m.decided e (fun d => match d with | .flint overs _ _ => overs.contains k | _ => false) } else t
  if !releaseTick m k e || m.stopped (fnTask k) || (m.fn (fnTask k)).st == .starting then m
  else if (m.fn (fnTask k)).st == .stopping then
    (if t.active && !t.ended then m else stop (fnTask k) (taskStopped k m))
  else if !t.active then m
  else if t.ended then
    let late := decide (t.epoch + (m.ftcfg k).period < e)
    let m := releaseBuffer (fnTask k) k m
    let m := if late then m else m.setStat (Ent.flintTaskOverrunConsec k) 0
    let m := m.setStat (Ent.flintTaskLastRelease k) e
    journalFlint e (modFtask k (fun t => { t with active := false, ended := false, released := true, late := late, first := false, switched := false }) m)
  else
    let c := min 255 (m.stat (Ent.flintTaskOverrunConsec k) + 1)
    let m := (m.setStat (Ent.flintTaskOverrunConsec k) c).bump (Ent.flintTaskOverruns k)
    raise (fnTask k) 0x0701 (flintBody 0 0 0 c) m

/-- A release that fell in a retired tick takes place at cycle 400 of the takeover epoch and counts as on time (R440): a buffer that had ended by epoch `last` is released, a cycle begun after it is abandoned. -/
def releaseOwed (last e k : Nat) (m : Module) : Module :=
  let t := m.ftask k
  let overs := fun (m : Module) => modFtask k (fun t => { t with active := false, ended := false, first := false, switched := false }) m
  if !t.active then m
  else if last < t.epoch then overs m
  else if t.ended then
    journalFlint e (overs ((releaseBuffer (fnTask k) k m).setStat (Ent.flintTaskLastRelease k) e))
  else m

/-- Lateness of a running cycle (R228). -/
def lateness (m : Module) (k e : Nat) : Nat :=
  let t := m.ftask k
  if t.active && !t.ended then e - (t.epoch + (m.ftcfg k).period) else 0

/-- The reason for which a task faults now (R228): 1 count, 2 lateness, 0 none. -/
def faultDue (m : Module) (k e : Nat) : Nat :=
  if !m.active (fnTask k) then 0
  else if m.standby && !m.decided e (fun d => match d with | .flint _ bad _ => bad.contains k | _ => false) then 0
  else if (m.ftcfg k).tol < m.stat (Ent.flintTaskOverrunConsec k) then 1
  else if (m.ftcfg k).bound != 0 && decide ((m.ftcfg k).bound < lateness m k e) then 2 else 0

/-- Step 2: lateness and fault checks of one task (R211, R228). -/
def checkTask (e k : Nat) (m : Module) : Module :=
  let l := lateness m k e
  let m := (m.setStat (Ent.flintTaskLateness k) l).peak (Ent.flintTaskMaxLateness k) l
  match faultDue m k e with
  | 0 => m
  | why => taskFault k why m

/-- FLINT_TASK_FAULT (R229): the task faults where a condition of R228 stands. -/
def execFlintTaskFault (k : Fin 8) (s : State) : Host.Outcome State Fault Refusal :=
  s.runE (fun m => match m.tick.epoch with
    | none => m
    | some e => match faultDue m k e with | 0 => m | why => taskFault k why m)

/-! ### Online change -/

/-- Flint's change state as `flint.change_state` (R237). -/
def ChangeState.code : ChangeState → Nat
  | .none => 0 | .loaded => 1 | .pending => 2

/-- Move values keyed by place in one table to the places of the same addresses in another. -/
def rekey {α : Type} [DecidableEq α] (d : α) (old new : List FlintWord) (s : Sparse α) : Sparse α :=
  (new.zipIdx.filterMap fun w => (old.findIdx? fun o => o.addr == w.1.addr).map fun i => (w.2, Sparse.get (fun _ => d) s i)).foldl
    (fun acc e => Sparse.set (fun _ => d) acc e.1 e.2) []

/-- Retained data remapped (R238): every source is read first, then destinations, then clears. -/
def remapData (rs : List RetainMap) (d : FData) : FData :=
  let one := fun (acc : FData) (r : RetainMap) =>
    match r.kind with
    | 1 => { acc with markers := Sparse.set (fun _ => false) acc.markers r.dst (d.marker r.src) }
    | 2 => { acc with timers := Sparse.set (fun _ => FTimer.init) acc.timers r.dst (Sparse.get (fun _ => FTimer.init) d.timers r.src) }
    | 3 => { acc with counters := Sparse.set (fun _ => FCounter.init) acc.counters r.dst (Sparse.get (fun _ => FCounter.init) d.counters r.src) }
    | _ => { acc with edges := Sparse.set (fun _ => false) acc.edges r.dst (d.edge r.src) }
  let clr := fun (acc : FData) (r : RetainMap) =>
    match r.kind with
    | 1 => { acc with markers := Sparse.set (fun _ => false) acc.markers r.dst false }
    | 2 => { acc with timers := Sparse.set (fun _ => FTimer.init) acc.timers r.dst FTimer.init }
    | 3 => { acc with counters := Sparse.set (fun _ => FCounter.init) acc.counters r.dst FCounter.init }
    | _ => { acc with edges := Sparse.set (fun _ => false) acc.edges r.dst false }
  (rs.filter fun r => r.clear).foldl clr ((rs.filter fun r => !r.clear).foldl one d)

/-- The task entries of the live image (Table 7.9), the mirror words and the unowned permits. -/
def flintStats (m : Module) : Module :=
  let img := m.flint.img
  let m := forN 8 (fun k m =>
    let t := m.ftcfg k
    ((m.setStat (Ent.flintTaskPeriod k) t.period).setStat (Ent.flintTaskPhase k) t.phase).setStat (Ent.flintTaskWcet k) (flintWcet img k)) m
  let owned := (List.range 8).flatMap (taskPermits img)
  let m := m.setStat Ent.flintProgramId img.pid
  let m := m.setStat Ent.flintMirrorUsed img.inputs.eraseDups.length
  m.setStat Ent.flintPermitsUnowned ((List.range img.ovr.length).filter (fun q => !owned.contains q)).length

/-- Bits [0] and [1] of `flint.force_status[i]` recounted (Table 7.8). -/
def forceCounts (m : Module) : Module :=
  let st := (List.range 1024).filter fun i => bit (m.stat (Ent.flintForceStatus i)) 1
  (m.setStat Ent.flintForcesActive ((m.forces.filter fun f => bit f.2 18).length)).setStat Ent.flintForceOrphans st.length

/-- Enabled forces on flag words of the old image that the new one has not are marked; the mark clears where the address is a flag word again (R239). -/
def markOrphans (old new : List FlintWord) (m : Module) : Module :=
  let has := fun (l : List FlintWord) a => l.any fun w => w.addr == a
  forceCounts (forL (m.forces.filter fun f => bit f.2 18) (fun f m =>
    let a := bits f.2 17 0
    let k := Ent.flintForceStatus f.1
    if has new a then m.setStat k (m.stat k % 2)
    else if has old a then raise fnFlint 0x0706 (flintBody f.1 a 0 0) (m.setStat k (m.stat k % 2 + 2)) else m) m)

/-- The switch (R239), every cycle having ended. -/
def flintSwitchNow (e : Nat) (m : Module) : Module :=
  match m.flint.loaded with
  | none => m
  | some img =>
    let old := m.flint.img
    let m := forN 8 (fun k m => if (m.ftask k).active then
      modFtask k (fun t => { t with active := false, ended := false, released := true }) (releaseBuffer (fnTask k) k m) else m) m
    let m := modFData (remapData img.retain) m
    let gone := (old.ovr.zipIdx.filter fun w => m.permit w.2 && !(img.ovr.any fun o => o.addr == w.1.addr)).map Prod.snd
    let m := forL gone (fun q m => changePermit fnFlint q false m) m
    let fresh := fun (s : Sparse Q) => img.flags.zipIdx.foldl (fun acc w =>
      if old.flags.any (fun o => o.addr == w.1.addr) then acc else Sparse.set (fun _ => 0) acc w.2 w.1.val) (rekey 0 old.flags img.flags s)
    let rekeyT := fun (t : FlintTask) => { t with permits := rekey false old.ovr img.ovr t.permits, flags := fresh t.flags, switched := true }
    let keepIdx := fun (l : List Nat) => l.filterMap fun f => (old.flags[f]?).bind fun w => img.flags.findIdx? fun o => o.addr == w.addr
    let fl := { m.flint with
      permits := rekey false old.ovr img.ovr m.flint.permits, flags := fresh m.flint.flags, staleFlags := keepIdx m.flint.staleFlags,
      silent := keepIdx m.flint.silent, img := img, loaded := none, change := .none }
    let m := { m with flint := fl }
    let m := forN 8 (fun k m => modFtask k rekeyT m) m
    let m := markOrphans old.flags img.flags m
    let bytes := m.cfgB Ent.flintLoad
    let m := (m.setShadB Ent.flintImage bytes).setCfgB Ent.flintImage bytes
    let m := m.setStat Ent.flintActiveBank (1 - m.stat Ent.flintActiveBank % 2)
    let m := (m.bump Ent.flintSwitches).setStat Ent.flintSwitchEpoch e
    raise fnFlint 0x0704 (flintBody 0 img.pid 0 old.pid) (flintStats ((m.setStat Ent.flintChangeState 0).setStat Ent.flintLoadedId 0))

/-- A change that is PENDING is abandoned (R237): reason 1 timeout, 2 Flint left RUNNING. -/
def flintAbandon (reason : Nat) (m : Module) : Module :=
  if m.flint.change = .pending then
    raise fnFlint 0x0705 (flintBody 0 0 reason 0)
      ({ m with flint := { m.flint with change := .loaded } }.setStat Ent.flintChangeState 1)
  else m

/-- SWITCH takes effect (R237, R239). -/
def flintPending (m : Module) : Module :=
  if m.flint.change = .loaded ∧ m.running fnFlint then
    { m with flint := { m.flint with change := .pending, switchAt := m.tick.epoch.getD 0 } }.setStat Ent.flintChangeState 2
  else m

/-- DISCARD takes effect (R237). -/
def flintDiscard (m : Module) : Module :=
  ({ m with flint := { m.flint with change := .none, loaded := none } }.setStat Ent.flintChangeState 0).setStat Ent.flintLoadedId 0

/-- SWITCH_TIMEOUT (R239). -/
def execSwitchTimeout (s : State) : Host.Outcome State Fault Refusal :=
  s.runE (fun m => match m.tick.epoch with
    | none => m
    | some e => if m.flint.change = .pending ∧ m.flint.switchAt + m.cfg Ent.flintSwitchTimeout ≤ e then flintAbandon 1 m else m)

/-- Cycle 399 (R211): releases in ascending task number, the checks, then the switch. -/
def flintRelease (stop : Nat → Module → Module) (m : Module) : Module :=
  match m.tick.epoch with
  | none => m
  | some e =>
    if !m.running fnFlint then m
    else
      let before := m
      let overs := (List.range 8).filter fun k => releaseTick m k e && m.running (fnTask k) && (m.ftask k).active && !(m.ftask k).ended
      let m := forN 8 (checkTask e) (forN 8 (releaseTask stop e) m)
      let now := if m.standby then m.decided e (fun d => match d with | .flint _ _ sw => sw | _ => false)
        else m.flint.change == .pending && m.fcurrent.isNone
      let m := if now then flintSwitchNow e m else m
      let faults := (List.range 8).filter fun k => before.stat (Ent.flintTaskFault k) == 0 && m.stat (Ent.flintTaskFault k) != 0
      sendDecision e (.flint overs faults now) m

/-- Cycle 400 (R207): the input snapshots of the tasks released in this tick. -/
def flintSnapshots (m : Module) : Module :=
  match m.tick.epoch with
  | none => m
  | some e =>
    forN 8 (fun k m =>
      if (releaseTick m k e || m.red.owed.contains k) && m.running (fnTask k) && !(m.ftask k).active then
        let img := m.flint.img.inputs.map m.word
        modFtask k (fun t => { t with active := true, ended := false, acc := false, stack := [], pc := (m.ftcfg k).entry, image := img, epoch := e, spent := 0 }) m
      else m) m

/-! ### What the output writer takes -/

/-- Active override entries (R213, R217). -/
def activeOverrides (m : Module) : List FlintWord :=
  if m.active fnFlint || m.flint.holdOvr then
    (m.flint.img.ovr.zipIdx.filter fun o => !m.permit o.2).map Prod.fst
  else []

/-- An active override of a word stands. -/
def overridden (m : Module) (a : Nat) : Bool := (activeOverrides m).any fun w => w.addr == a

/-- The override table as it stands at the first cycle of a marshalling window (R215). -/
def overrideWindow (g : Nat) (m : Module) : Module :=
  { m with flint := { m.flint with window := m.flint.window.filter (fun w => w.1 != g) ++ [(g, activeOverrides m)] } }

/-- The entries that a group's open window read. -/
def Module.overridesOf (m : Module) (g : Nat) : List FlintWord :=
  match m.flint.window.find? (fun w => w.1 == g) with
  | some w => w.2
  | none => []

/-- Flag words to be written at a group's strobe: address, value, stale (R209, R216, R229). -/
def flagMoves (m : Module) (g : Nat) : List (Nat × Q × Bool) :=
  let once := (m.flint.onceStale.filter fun o => o.1 == g).map fun o => (o.2.addr, o.2.val, true)
  if m.active fnFlint then
    ((m.flint.img.flags.zipIdx.filter fun w => w.1.group == g && !(m.flint.silent.contains w.2)).map fun w =>
      (w.1.addr, m.flagVal w.2, m.flint.staleFlags.contains w.2)) ++ once
  else once

/-! ### START and STOP -/

/-- Flint's START takes effect (R216, R236). -/
def flintStart (m : Module) : Module :=
  let img := parseFlint (m.cfgB Ent.flintImage)
  let e := m.tick.epoch.getD 0
  let fresh : FData := { FData.init with counters := (List.range 256).foldl (fun acc c =>
    if isDown img c then Sparse.set (fun _ => FCounter.init) acc c ⟨img.cpre.getD c 0, false, false⟩ else acc) [] }
  let saved := m.nv.journal.findSome? fun j => match j with | .flint d _ => some d | _ => none
  let wants := m.cfgOn Ent.flintRetainStart
  let data := match wants, saved with
    | true, some d => { d with timers := d.timers.map fun t => (t.1, { t.2 with start := (e : Int) - t.2.elapsed }) }
    | _, _ => fresh
  let flags := img.flags.zipIdx.foldl (fun acc w => Sparse.set (fun _ => (0 : Q)) acc w.2 w.1.val) []
  let tasks : Sparse FlintTask := (List.range 8).map fun k => (k, { FlintTask.init with flags := flags })
  let m := { m with flint := { m.flint with
    img := img, loaded := none, change := .none, tasks := tasks, data := data, permits := [], flags := flags, staleFlags := [], silent := [],
    onceStale := [], running := none, holdOvr := false } }
  let zero := [Ent.flintSwitches, Ent.flintSwitchEpoch, Ent.flintChangeState, Ent.flintLoadedId]
  let m := forL zero (fun k m => m.setStat k 0) m
  let m := forN 8 (fun k m => forN 12 (fun i m => m.setStat (keyOf (0x3010 + k) (3 + i)) 0) m) m
  let m := flintStats m
  if wants && saved.isNone then raise fnFlint 0x0709 [] m else m

/-- Flint's stop completes (R216, R217). -/
def flintStop (m : Module) : Module :=
  let once := m.flint.img.flags.zipIdx.map fun w => (w.1.group, FlintWord.mk w.1.addr w.1.group (m.flagVal w.2))
  let m := flintAbandon 2 m
  { m with flint := { m.flint with
    permits := [], onceStale := m.flint.onceStale ++ once, running := none, tasks := [], holdOvr := m.cfgOn Ent.flintStopHold } }

/-- A task's START takes effect at its release tick (R209). -/
def taskStart (k : Nat) (m : Module) : Module :=
  let fs := taskFlags m.flint.img k
  let m := { m with flint := { m.flint with silent := m.flint.silent.filter (fun f => !fs.contains f) } }
  modFtask k (fun t => { t with active := false, ended := false, first := true, late := false, released := false }) m

end Sys2Proof.Machine
end

