-- ==== Sys2Proof/Machine/Recipe.lean ====
section
/-! DEFINITION. Recipe images (R179 to R183), the valve table (R188), and the output moves of a group (R23). -/

namespace Sys2Proof.Machine

/-! ### Images -/

/-- The recipe image a function's steps are read from: the shadow one while STARTING, else the live one. -/
def recipeImg (m : Module) (r : Nat) : List Byte :=
  if (m.fn (fnRecipe r)).st == .starting then m.shadB (Ent.recipeImage r) else m.cfgB (Ent.recipeImage r)

def rcSteps (bs : List Byte) : Nat := leAt bs 8 2
def rcGroup (bs : List Byte) : Nat := leAt bs 10 1 % 8
def rcDepth (bs : List Byte) : Nat := leAt bs 11 1
def rcStart (bs : List Byte) : Nat := leAt bs 12 2
def rcAbort (bs : List Byte) : Option Nat := if leAt bs 14 2 = 0xFFFF then none else some (leAt bs 14 2)
def rcAbortWord (bs : List Byte) : Option Nat := if leAt bs 16 4 = 0xFFFFFFFF then none else some (leAt bs 16 4)

/-- Byte offset of the record of step `k`, and its counts. -/
def rcOff (bs : List Byte) (k : Nat) : Nat := leAt bs (32 + 4 * k) 4
def rcActs (bs : List Byte) (k : Nat) : Nat := leAt bs (rcOff bs k) 1
def rcExits (bs : List Byte) (k : Nat) : Nat := leAt bs (rcOff bs k + 1) 1
def rcPredicted (bs : List Byte) (k : Nat) : Nat := leAt bs (rcOff bs k + 2) 1
/-- The byte after the record of step `k`. -/
def rcEnd (bs : List Byte) (k : Nat) : Nat := rcOff bs k + 8 + 16 * rcExits bs k + 8 * rcActs bs k

/-- Exit `i` of step `k` (Table 6.3); a QUAL of 0 is read as 1. -/
def rcExit (bs : List Byte) (k i : Nat) : RecipeExit :=
  let o := rcOff bs k + 8 + 16 * i
  { kind := leAt bs o 1, hook := leAt bs (o + 1) 1, next := leAt bs (o + 2) 2, word := leAt bs (o + 4) 4,
    a := sint 20 (leAt bs (o + 8) 3), b := sint 20 (leAt bs (o + 11) 3), qual := max 1 (leAt bs (o + 14) 2) }

/-- The exits of step `k`. -/
def rcExitList (bs : List Byte) (k : Nat) : List RecipeExit := (List.range (rcExits bs k)).map (rcExit bs k)

/-- Action `j` of step `k` (R182). -/
def rcAction (bs : List Byte) (k j : Nat) : RecipeAction :=
  let o := rcOff bs k + 8 + 16 * rcExits bs k + 8 * j
  { kind := leAt bs o 1, sub := leAt bs (o + 1) 1, target := leAt bs (o + 2) 2, value := leAt bs (o + 4) 4 }

/-- The actions of step `k`. -/
def rcActionList (bs : List Byte) (k : Nat) : List RecipeAction := (List.range (rcActs bs k)).map (rcAction bs k)

/-- Staged entries of step `k`: actions other than NOP (R189). -/
def rcEntries (bs : List Byte) (k : Nat) : Nat := ((rcActionList bs k).filter fun a => a.kind != 0).length

/-- Where an exit leads (R181). -/
def nextOf (n : Nat) : NextStep :=
  if n = 0xFFFC then .hold else if n = 0xFFFD then .abort else if n = 0xFFFE then .finish else .step n

/-- Recipes that are STARTING, RUNNING or STOPPING: their steps are resident (R176). -/
def residentRecipes (m : Module) : List Nat := (List.range 64).filter fun r => !m.stopped (fnRecipe r)

/-! ### Valve words -/

/-- A configured valve word: address, group, initial value (Table 6.8). -/
def valveOf (v : Nat) : Option (Nat × Nat × Q) :=
  if v = 0xFFFFFFFFFFFFFFFF then none else some (bits v 17 0, bits v 20 18, BitVec.ofNat 20 (v / 2 ^ 44))

/-- The live valve table: valve number, address, group, initial value. -/
def valveTable (m : Module) : List (Nat × Nat × Nat × Q) :=
  (List.range 256).filterMap fun v => (valveOf (m.cfg (Ent.slateValve v))).map fun x => (v, x)

/-- The shadow valve table. -/
def valveShadow (m : Module) : List (Nat × Nat × Nat × Q) :=
  (List.range 256).filterMap fun v => (valveOf (m.shad (Ent.slateValve v))).map fun x => (v, x)

/-- The valve table that Slate runs on, or will once its accepted START takes effect; empty while it is STOPPED. -/
def valveInUse (m : Module) : List (Nat × Nat × Nat × Q) :=
  if m.stopped fnSlate then [] else if (m.fn fnSlate).st == .starting then valveShadow m else valveTable m

/-- The Flint image in use, in the same way. -/
def flintInUse (m : Module) : FlintImage :=
  if m.stopped fnFlint then FlintImage.empty else if (m.fn fnFlint).st == .starting then parseFlint (m.shadB Ent.flintImage) else m.flint.img

/-! ### Output moves (R23) -/

/-- Output words that a slot writes at its strobes, and published setpoints (R24), for a group. -/
def slotMoves (m : Module) (g : Nat) : Nat :=
  let get := fun n k => if (m.fn n).st == .starting then m.shad k else m.cfg k
  let up := m.upSlots.filter fun n => get n (Ent.loopGroup n) % 8 == g
  (up.filter fun n => isAddr (get n (Ent.loopOutAddr n))).length + (up.filter fun n => isAddr (get n (Ent.loopSpWord n))).length

/-- Flint's moves in a group: override entries and flag words (R213, R216). -/
def flintMoves (img : FlintImage) (g : Nat) : Nat :=
  (img.ovr.filter fun w => w.group == g).length + (img.flags.filter fun w => w.group == g).length

/-- The overrun word that the loop engine writes at a group's strobes under action 2 (R107). -/
def overrunWord (m : Module) (g : Nat) : Option Nat :=
  let a := m.cfg (Ent.groupOverrunWord g)
  if m.cfg (Ent.groupOverrunAction g) = 2 ∧ isAddr a = true ∧ m.active fnEngine = true then some a else none

/-- Moves of overrun words at a group's strobe. -/
def overrunMoves (m : Module) (g : Nat) : Nat := b01 (overrunWord m g).isSome

/-- Words of the discrete outputs that are output moves of their group (R291). -/
def doMoves (m : Module) (g : Nat) : Nat :=
  let get : Get := m.getOf fnDo
  if !m.stopped fnDo && get Ent.doGroup % 8 == g && isAddr (get Ent.doWordBase) then (if get Ent.doWordMode = 0 then 2 else 32) else 0

/-- Station output words of the ports in use (R310). -/
def stationMoves (m : Module) (g : Nat) : Nat :=
  (((List.range 8).filter fun p => !m.stopped (fnPort p)).map fun p => portMoves (m.getOf (fnPort p)) p g).sum

/-- The output moves of a group as the module stands (R23); a resident recipe reserves 32 (R183). -/
def groupMoves (m : Module) (g : Nat) : Nat :=
  slotMoves m g + ((valveInUse m).filter fun v => v.2.2.1 == g).length + flintMoves (flintInUse m) g + overrunMoves m g + doMoves m g + stationMoves m g +
    32 * ((residentRecipes m).filter fun r => rcGroup (recipeImg m r) == g).length

/-- The marshalling windows of two hyperperiods of 100 ticks: first cycle and moves. -/
def marshalWindows (phase moves : Nat → Nat) : List (Nat × Nat) :=
  (List.range 200).flatMap fun e => ((List.range 8).filter fun g => samples g e && moves g != 0).map fun g => (e * 4000 + phase g - 80, moves g)

/-- From one window on: every connected run of windows has room for its moves. -/
def windowRunOk (start stop total : Nat) : List (Nat × Nat) → Bool
  | [] => true
  | w :: ws =>
    if stop ≤ w.1 then true
    else
      let stop := w.1 + 80
      let total := total + w.2
      decide (total ≤ 14 * (stop - start)) && windowRunOk start stop total ws

/-- Each window with the connected ones after it. -/
def windowsOk : List (Nat × Nat) → Bool
  | [] => true
  | w :: ws => decide (w.2 ≤ 14 * 80) && windowRunOk w.1 (w.1 + 80) w.2 ws && windowsOk ws

/-- R23: the moves of any overlapping windows fit 14 per cycle of their union. -/
def movesFit (phase moves : Nat → Nat) : Bool :=
  windowsOk ((marshalWindows phase moves).mergeSort fun a b => decide (a.1 ≤ b.1))

/-- The phase of a group as it runs. -/
def livePhase (m : Module) (g : Nat) : Nat := m.cfg (Ent.groupPhase g)

/-- `extra` further moves in each group still fit. -/
def extraFits (m : Module) (extra : Nat → Nat) : Bool := movesFit (livePhase m) fun g => groupMoves m g + extra g

/-! ### The check of R183 -/

/-- A value cell whose [23:20] repeat bit 19. -/
def cellOk (v : Nat) : Bool := bits v 23 20 == (if bit v 19 then 15 else 0)
/-- A wire value by the I20 rule of Table 2.1. -/
def i20Ok (v : Nat) : Bool := bits v 31 20 == (if bit v 19 then 0xFFF else 0)

/-- Reason 1. -/
def rcHeaderOk (bs : List Byte) : Bool :=
  let len := (imagePart bs).length
  decide (32 ≤ len) && leAt bs 0 4 == 0x50434552 && leAt bs 4 4 == 1 && range 1 65532 (rcSteps bs) && decide (leAt bs 10 1 ≤ 7) &&
    range 1 4 (rcDepth bs) && decide (rcStart bs < rcSteps bs) && (match rcAbort bs with | some k => decide (k < rcSteps bs) | none => true) &&
    (match rcAbortWord bs with | some a => isAddr a | none => true) && leAt bs 20 12 == 0 && decide (32 + 4 * rcSteps bs ≤ len)

/-- The exit at an offset is well formed (reason 3). -/
def rcExitOk (bs : List Byte) (k i : Nat) : Bool :=
  let x := rcExit bs k i
  let o := rcOff bs k + 8 + 16 * i
  decide (x.kind ≤ 7) && (decide (x.next < rcSteps bs) || range 0xFFFC 0xFFFE x.next) && !(x.kind == 7 && x.hook == 0xFF) &&
    (if x.kind = 0 then x.word != 0 else if x.kind = 6 ∨ x.kind = 7 then x.word == 0 else isAddr x.word) &&
    cellOk (leAt bs (o + 8) 3) && cellOk (leAt bs (o + 11) 3)

/-- An action is one of Table 6.5 (reason 4). -/
def rcActionOk (a : RecipeAction) : Bool :=
  match a.kind with
  | 0 => a.sub == 0 && a.target == 0 && a.value == 0
  | 1 => a.sub == 0 && decide (a.target < 1024) && i20Ok a.value
  | 2 => a.sub == 0 && decide (a.target < 1024) && i20Ok a.value
  | 3 => a.sub == 0 && decide (a.target < 1024) && decide (a.value ≤ 4)
  | 4 => a.sub == 0 && decide (a.target < 1024) && a.value == 1
  | 5 => a.sub == 0 && decide (a.target < 256) && i20Ok a.value
  | 6 => range 1 0x0E a.sub && decide (a.target < 32)
  | 7 => a.sub == 0 && decide (a.target < 16) && a.value == 0
  | 8 => a.sub == 0
  | _ => false

/-- The finding for the record of step `k`; none where it passes. -/
def rcStepReason (m : Module) (bs : List Byte) (k : Nat) : Option Nat :=
  let len := (imagePart bs).length
  let o := rcOff bs k
  if o < 32 + 4 * rcSteps bs ∨ len < o + 8 then some 2
  else if !range 1 4 (rcExits bs k) || decide (rcExits bs k ≤ rcPredicted bs k) || leAt bs (o + 3) 5 != 0 then some 3
  else if 32 < rcActs bs k then some 4
  else if len < rcEnd bs k then some 2
  else if (List.range (rcSteps bs)).any (fun j => j != k && decide (rcOff bs j < rcEnd bs k ∧ o < rcEnd bs j)) then some 2
  else if (List.range (rcExits bs k)).any (fun i => !rcExitOk bs k i) then some 3
  else if (rcActionList bs k).any (fun a => !rcActionOk a) then some 4
  else if (rcActionList bs k).any (fun a => a.kind == 5 &&
      (match valveOf (m.getOf fnSlate (Ent.slateValve a.target)) with | some (_, g, _) => g != rcGroup bs | none => true)) then some 5
  else none

/-- Words that an image watches (R184). -/
def watchedWords (bs : List Byte) : List Nat :=
  (match rcAbortWord bs with | some a => [a] | none => []) ++
    (List.range (rcSteps bs)).flatMap fun k => ((rcExitList bs k).filter fun x => range 1 5 x.kind).map RecipeExit.word

/-- Resident steps and watched words of some images. -/
def residentSteps (l : List (List Byte)) : Nat := (l.map rcSteps).sum
def watchCount (l : List (List Byte)) : Nat := (l.flatMap watchedWords).eraseDups.length

/-- R183: the first failing step (FFFFh for the header) and the reason. Reasons 1 to 5 are looked for in the header and then step by step; the manual gives no order among them. -/
def recipeCheck (m : Module) (r : Nat) : Option (Nat × Nat) :=
  let bs := m.shadB (Ent.recipeImage r)
  let others := ((residentRecipes m).filter fun x => x != r).map (recipeImg m)
  if !rcHeaderOk bs then some (0xFFFF, 1)
  else match (List.range (rcSteps bs)).findSome? (fun k => (rcStepReason m bs k).map fun x => (k, x)) with
    | some f => some f
    | none =>
      if 65536 < residentSteps (bs :: others) then some (0xFFFF, 6)
      else if 4096 < watchCount (bs :: others) then some (0xFFFF, 7)
      else if !extraFits m (fun g => if g = rcGroup bs then 32 else 0) then some (0xFFFF, 8)
      else none

end Sys2Proof.Machine
end

