-- ==== Sys2Proof/Machine/Slate.lean ====
section
/-! DEFINITION. Slate: runs, exits, staging and commits (chapter 6). -/

namespace Sys2Proof.Machine

def Module.rrun (m : Module) (r : Nat) : Run := Sparse.get (fun _ => Run.init) m.slate.runs r
def modRun (r : Nat) (f : Run → Run) (m : Module) : Module :=
  { m with slate := { m.slate with runs := Sparse.mod (fun _ => Run.init) m.slate.runs r f } }

/-- `recipe[r].run_state` (Table 6.6). -/
def RunState.code : RunState → Nat
  | .idle => 0 | .running => 1 | .held => 2 | .aborting => 3 | .done => 4 | .aborted => 5

/-- The state has a run. -/
def RunState.live : RunState → Bool
  | .running | .held | .aborting => true
  | _ => false

/-- The status entries of a run (Table 6.9). -/
def runStats (r : Nat) (m : Module) : Module :=
  let x := m.rrun r
  let m := (m.setStat (Ent.recipeRunState r) x.st.code).setStat (Ent.recipeStep r) (x.step.getD 0xFFFF)
  let m := (m.setStat (Ent.recipeStepEpoch r) x.stepEpoch).setStat (Ent.recipeElapsed r) (min x.elapsed (2 ^ 32 - 1))
  (m.setStat (Ent.recipeLastExit r) (x.lastExit.getD 0xFF)).setStat (Ent.recipeReservedEntries r) x.reserved

/-- The payload of a Slate event, bytes 30 to 39 (R205). -/
def slateBody (left entered : Option Nat) (exit : Option Nat) (reason val : Nat) : List Byte :=
  leBytes 2 (left.getD 0xFFFF) ++ leBytes 2 (entered.getD 0xFFFF) ++ leBytes 1 (exit.getD 0xFF) ++ leBytes 1 reason ++ leBytes 4 val

/-- The recipe image in use and its group. -/
def recipeGroup (m : Module) (r : Nat) : Nat := rcGroup (m.cfgB (Ent.recipeImage r))

/-! ### Staged entries (R189, R190) -/

/-- A stage takes its entries from the run's reservation. -/
def Stage.reservedKind (s : Stage) : Bool := decide (2 ≤ s.path)

/-- Entries in use, reservations included. -/
def entriesUsed (m : Module) : Nat :=
  (m.slate.runs.map fun e => e.2.reserved + ((e.2.stages.filter fun s => !s.reservedKind).map Stage.entries).sum).sum

/-- Recount `slate.entries_used` and its peak. -/
def countEntries (m : Module) : Module :=
  let n := entriesUsed m
  (m.setStat Ent.slateEntriesUsed n).peak Ent.slateEntriesPeak n

/-- Place of a stage in the order of building (R189). -/
def buildRank (x : Nat × Stage) : List Nat :=
  let s := x.2
  if s.path = 3 then [0, 0, x.1, 0] else if s.path = 2 then [1, 0, x.1, 0] else [2, s.depth, x.1, s.path]

/-- Insert a stage among those waiting to be built. -/
def insertBuild (x : Nat × Stage) : List (Nat × Stage) → List (Nat × Stage)
  | [] => [x]
  | y :: l => if buildRank x < buildRank y then x :: y :: l else y :: insertBuild x l

/-- Queue a stage of a run: it holds its entries from now on. -/
def queueStage (r : Nat) (s : Stage) (m : Module) : Module :=
  let m := modRun r (fun x => { x with stages := x.stages ++ [s] }) m
  countEntries { m with slate := { m.slate with building := insertBuild (r, s) m.slate.building } }

/-- Take stages of a run away: their entries are freed, and they are built no more. -/
def dropStages (r : Nat) (p : Stage → Bool) (m : Module) : Module :=
  let m := modRun r (fun x => { x with stages := x.stages.filter fun s => !p s }) m
  countEntries { m with slate := { m.slate with building := m.slate.building.filter fun y => !(y.1 == r && p y.2) } }

/-- Squash stages of a run (R195). -/
def squash (r : Nat) (p : Stage → Bool) (m : Module) : Module :=
  dropStages r p (m.bumpBy Ent.slateSquashed ((m.rrun r).stages.filter p).length)

/-- The rest of a path from a step, through predicted exits (R191). -/
def pathFrom (bs : List Byte) (path : Nat) : Nat → Nat → Nat → List (Nat × Nat × Nat)
  | 0, _, _ => []
  | fuel + 1, depth, k =>
    (path, depth, k) :: match nextOf (rcExit bs k (rcPredicted bs k)).next with
      | .step j => pathFrom bs path fuel (depth + 1) j
      | _ => []

/-- The run-ahead tree of a step (R191): path, depth, step. -/
def treeOf (bs : List Byte) (k : Nat) : List (Nat × Nat × Nat) :=
  let d := rcDepth bs
  let succs := (rcExitList bs k).map fun x => nextOf x.next
  match succs with
  | [.step a, .step b] =>
    if a != b then pathFrom bs 0 d 1 a ++ pathFrom bs 1 d 1 b
    else pathFrom bs 0 d 1 a
  | _ => match nextOf (rcExit bs k (rcPredicted bs k)).next with
    | .step a => pathFrom bs 0 d 1 a
    | _ => []

/-- The runs' trees, stage by stage in the order of R189: depth, recipe, path. -/
def wantedStages (m : Module) : List (Nat × Nat × Nat × Nat) :=
  let rs := (m.slate.runs.filter fun e => e.2.st.live && e.2.late.isNone && (match e.2.due with | .none => true | _ => false)).map Prod.fst
  let trees := rs.map fun r => match (m.rrun r).step with
    | some k => (treeOf (m.cfgB (Ent.recipeImage r)) k).map fun t => (r, t)
    | none => []
  (List.range 4).flatMap fun d => trees.flatMap fun t => t.filter fun x => x.2.2.1 == d + 1

/-- Queue every wanted stage that a run does not hold and for which entries are free; count the others (R190). -/
def fillTrees (m : Module) : Module :=
  forL (wantedStages m) (fun w m =>
    let (r, path, depth, k) := w
    if (m.rrun r).stages.any fun s => s.path == path && s.depth == depth then m
    else
      let e := rcEntries (m.cfgB (Ent.recipeImage r)) k
      if entriesUsed m + e ≤ 2048 then queueStage r ⟨k, path, depth, e, false⟩ m
      else raise fnSlate 0x060B (slateBody none none none 0 0) (m.bump Ent.slateStagesStarved)) m

/-- STAGE_BUILD_COMPLETE (R189): the stage first in order is built. -/
def stageBuilt (m : Module) : Module :=
  match m.slate.building with
  | [] => m
  | (r, s) :: rest =>
    modRun r (fun x => { x with stages := mapFirst (fun y => y == s) (fun y => { y with built := true }) x.stages })
      { m with slate := { m.slate with building := rest } }

def execStageBuildComplete (s : State) : Host.Outcome State Fault Refusal := s.run stageBuilt

/-! ### Aborts and ends (R198, R200) -/

/-- Journal a run (Table 14.13). -/
def journalRun (r : Nat) (m : Module) : Module :=
  journal (fun j => match j with | .recipe q _ => q == r | _ => false) (.recipe r (m.rrun r)) m

/-- An abort begins (R200): a pending commit is dropped, run-ahead stages are squashed, the abort stage falls due. `e` is the epoch of the period's sample instant. -/
def abortBegin (r reason : Nat) (exit : Option Nat) (e : Nat) (m : Module) : Module :=
  let left := (m.rrun r).step
  let m := squash r (fun s => s.path != 2) m
  let m := modRun r (fun x => { x with st := .aborting, late := none, due := .abort reason, evalEpoch := some e, cont := x.cont }) m
  raiseEpoch e (fnRecipe r) 0x0606 (slateBody left none exit reason 0) (journalRun r (runStats r m))

/-- A run ends (R198, R200): DONE, or ABORTED out of ABORTING. Its reservation and stages go. -/
def runEnd (r : Nat) (exit : Option Nat) (e : Nat) (m : Module) : Module :=
  let left := (m.rrun r).step
  let m := squash r (fun _ => true) m
  let m := modRun r (fun x => { x with
    st := if x.st = .aborting then .aborted else .done, step := none, due := .none, late := none, reserved := 0, results := [], quals := [] }) m
  fillTrees (countEntries (raiseEpoch e (fnRecipe r) 0x0607 (slateBody left none exit 0 0) (runStats r m)))

/-! ### Commands (R199) -/

/-- The result of a command. -/
def runResult (r v : Nat) (m : Module) : Module := m.setStat (Ent.recipeLastResult r) v

/-- The start step of a RUN; one that the live image does not have stands for the image's default. -/
def runStart (m : Module) (r : Nat) : Nat :=
  let bs := m.cfgB (Ent.recipeImage r)
  let k := m.cfg (Ent.recipeStartStep r)
  if k < rcSteps bs then k else rcStart bs

/-- RUN (R190, R199). -/
def runRun (r e : Nat) (m : Module) : Module :=
  let bs := m.cfgB (Ent.recipeImage r)
  let ab := match rcAbort bs with | some k => rcEntries bs k | none => 0
  if 2048 < entriesUsed m + 32 + ab then
    raiseEpoch e (fnRecipe r) 0x0603 (slateBody none none none 0 0) (runResult r 2 m)
  else
    let k := runStart m r
    let m := modRun r (fun _ => { Run.init with st := .running, due := .start k, reserved := 32 + ab, evalEpoch := some e }) m
    let m := queueStage r ⟨k, 3, 0, rcEntries bs k, false⟩ m
    let m := match rcAbort bs with | some a => queueStage r ⟨a, 2, 0, ab, false⟩ m | none => m
    raiseEpoch e (fnRecipe r) 0x0603 (slateBody none (some k) none 0 0) (journalRun r (runStats r (runResult r 0 m)))

/-- A command of Table 6.6 takes effect at the recipe group's sample instant of epoch `e`. -/
def recipeCommand (r cmd e : Nat) (m : Module) : Module :=
  let x := m.rrun r
  let ignored := runResult r 1 (m.bump (Ent.recipeIgnored r))
  if !m.running (fnRecipe r) then m
  else match cmd, x.st with
    | 1, .idle => runRun r e m
    | 1, .done => runRun r e m
    | 1, .aborted => runRun r e m
    | 2, .running => raiseEpoch e (fnRecipe r) 0x0604 (slateBody x.step none none 0 0) (journalRun r (runStats r (runResult r 0 (modRun r (fun y => { y with st := .held }) m))))
    | 3, .held =>
      raiseEpoch e (fnRecipe r) 0x0605 (slateBody x.step none none 0 0)
        (journalRun r (runStats r (runResult r 0 (modRun r (fun y => { y with st := .running, quals := [] }) m))))
    | 4, .running => runResult r 0 (abortBegin r 1 none e m)
    | 4, .held => runResult r 0 (abortBegin r 1 none e m)
    | 5, .running => runResult r 0 (modRun r (fun y => { y with cont := true }) m)
    | 5, .held => runResult r 0 (modRun r (fun y => { y with cont := true }) m)
    | 5, .aborting => runResult r 0 (modRun r (fun y => { y with cont := true }) m)
    | _, _ => ignored

/-! ### Evaluation (R185, R186) -/

/-- The run evaluates its exits in the period of its last sample instant. -/
def Run.evaluating (x : Run) : Bool :=
  (x.st == .running || x.st == .aborting) && x.due == .none && x.late.isNone && !x.results.isEmpty

/-- At a sample instant of the recipe group, after its commands: a run with no commit pending counts the instant and opens its exits (R178, R185). -/
def runInstant (r e : Nat) (m : Module) : Module :=
  let x := m.rrun r
  if !m.running (fnRecipe r) || !x.st.live then m
  else if (x.st == .running || x.st == .aborting) && x.due == .none && x.late.isNone then
    match x.step with
    | none => m
    | some k =>
      let n := rcExits (m.cfgB (Ent.recipeImage r)) k
      runStats r (modRun r (fun x => { x with
        elapsed := x.elapsed + 1, evalEpoch := some e, hooks := [], results := List.replicate n none,
        quals := if x.quals.length = n then x.quals else List.replicate n 0 }) m)
  else modRun r (fun x => { x with results := [] }) m

/-- The term of an exit (Table 6.4). -/
def exitTerm (m : Module) (x : Run) (group e : Nat) (ex : RecipeExit) : Bool :=
  let w := m.word ex.word
  let v := wInt w
  match ex.kind with
  | 0 => decide (ex.word ≤ x.elapsed)
  | 1 => wValid w && decide (ex.a < v)
  | 2 => wValid w && decide (v < ex.a)
  | 3 => wValid w && decide (ex.a ≤ v) && decide (v ≤ ex.b)
  | 4 => wValid w && (decide (v < ex.a) || decide (ex.b < v))
  | 5 => wValid w && Nat.land (wValue w).toNat (uint 20 ex.a) == uint 20 ex.b
  | 6 => x.cont
  | _ => m.disp.hooks.contains (ex.hook, group, e)

/-- One exit is evaluated: its QUAL count and its outcome. -/
def evalExit (r i : Nat) (value : Bool) (m : Module) : Module :=
  let x := m.rrun r
  let qual := match x.step with | some k => (rcExit (m.cfgB (Ent.recipeImage r)) k i).qual | none => 1
  let c := if value then min 65535 (x.quals.getD i 0 + 1) else 0
  modRun r (fun x => { x with quals := x.quals.set i c, results := x.results.set i (some (decide (qual ≤ c))) }) m

/-- The exit that resolves the step: the lowest true one, every lower one being evaluated. -/
def takenExit : List (Option Bool) → Nat → Option Nat
  | [], _ => none
  | some true :: _, i => some i
  | some false :: l, i => takenExit l (i + 1)
  | none :: _, _ => none

/-- The step resolves if it can (R186, R192, R197); `c` is the cycle counted from the period's sample instant. -/
def tryResolve (r c : Nat) (m : Module) : Module :=
  let x := m.rrun r
  let bs := m.cfgB (Ent.recipeImage r)
  if !x.evaluating || decide (m.cfg (Ent.groupPhase (rcGroup bs)) < c + 81) then m
  else match x.step, takenExit x.results 0 with
    | some k, some i =>
      match nextOf (rcExit bs k i).next with
      | .step j =>
        let hit := x.stages.any fun s => decide (s.path ≤ 1) && s.depth == 1 && s.step == j && s.built
        let m := modRun r (fun x => { x with due := .resolved (.step j) i (!hit), late := if hit then none else some (j, i, false) }) m
        if hit then m else queueStage r ⟨j, 3, 0, rcEntries bs j, false⟩ m
      | nx => modRun r (fun x => { x with due := .resolved nx i false }) m
    | _, _ => m

/-- At cycle 400 of a sample instant of the recipe group: the abort-request word, then the exits without a hook (R185, R200). -/
def runEvaluate (r e : Nat) (m : Module) : Module :=
  let x := m.rrun r
  let bs := m.cfgB (Ent.recipeImage r)
  let g := rcGroup bs
  let ask := match rcAbortWord bs with | some a => wValid (m.word a) && wValue (m.word a) != 0 | none => false
  if !m.running (fnRecipe r) || !samples g e then m
  else if ask && (x.st == .running || x.st == .held) then abortBegin r 3 none e m
  else if x.evaluating && x.evalEpoch == some e then
    match x.step with
    | none => m
    | some k =>
      let m := forL ((rcExitList bs k).zipIdx.filter fun y => y.1.hook == 0xFF) (fun y m => evalExit r y.2 (exitTerm m (m.rrun r) g e y.1) m) m
      tryResolve r 404 m
  else m

/-- Slate's work at cycle 400, in ascending recipe number. -/
def slateEvaluate (m : Module) : Module :=
  match m.tick.epoch with
  | none => m
  | some e => forL (m.slate.runs.map Prod.fst) (fun r m => runEvaluate r e m) m

/-- An exit with a hook is evaluated in the cycle after the hook's signal (R185). -/
def hookEvaluate (r i cycle : Nat) (m : Module) : Module :=
  let x := m.rrun r
  let bs := m.cfgB (Ent.recipeImage r)
  let g := rcGroup bs
  match x.step, x.evalEpoch, m.tick.epoch with
  | some k, some e, some now =>
    let ex := rcExit bs k i
    let c := (now - e) * 4000 + cycle
    if !x.evaluating || x.results[i]? != some none || ex.hook == 0xFF || !m.disp.hooks.contains (ex.hook, g, e) then m
    else if (if m.standby then m.decided e (fun d => d == .hook r i) else decide (m.cfg (Ent.groupPhase g) < c + 82)) then
      sendDecision e (.hook r i) ((evalExit r i false m).bump (Ent.recipeLateHooks r))
    else tryResolve r (c + 1) (evalExit r i (exitTerm m x g e ex) m)
  | _, _, _ => m

/-- HOOK_EXIT_EVALUATION (R185) at a core cycle of the tick. -/
def execHookExitEvaluation (r : Fin 64) (x : Fin 8) (cycle : Nat) (s : State) : Host.Outcome State Fault Refusal :=
  s.runE (fun m => hookEvaluate r x cycle (toCycle cycle m))

/-! ### Commits (R193 to R197) -/

/-- Two actions fall on one target: axis commands and events each stand for themselves (R245, R182). -/
def sameTarget (a b : RecipeAction) : Bool := a.kind == b.kind && a.target == b.target && a.kind != 6 && a.kind != 8

/-- The actions of a stage: NOPs out, and of two on one target the later one (R193). -/
def finalActions : List RecipeAction → List RecipeAction
  | [] => []
  | a :: l => if a.kind = 0 ∨ l.any (sameTarget a) = true then finalActions l else a :: finalActions l

/-- A step's late commit falls on the strobe of tick `now` (R197). -/
def lateDue (m : Module) (r now : Nat) : Bool :=
  match (m.rrun r).late, (m.rrun r).evalEpoch with
  | some (_, _, true), some e => now == e + m.cfg (Ent.groupPhase (recipeGroup m r)) / 4000 + 1
  | _, _ => false

/-- The step that a run commits at this strobe. `normal`: the strobe of the group's period; `now`: the running tick. -/
def commitStep (m : Module) (normal : Bool) (now r : Nat) : Option Nat :=
  let x := m.rrun r
  if lateDue m r now then x.late.map fun l => l.1
  else if normal then
    match x.due with
    | .start k => some k
    | .resolved (.step k) _ false => some k
    | .resolved .abort _ _ => rcAbort (m.cfgB (Ent.recipeImage r))
    | .abort _ => rcAbort (m.cfgB (Ent.recipeImage r))
    | _ => none
  else none

/-- The runs of a group in ascending recipe number. -/
def groupRuns (m : Module) (g : Nat) : List Nat :=
  (m.slate.runs.map Prod.fst).filter fun r => recipeGroup m r == g && m.active (fnRecipe r)

/-- Some run of the group has a late commit at this tick's strobe. -/
def anyLateDue (m : Module) (g now : Nat) : Bool := (groupRuns m g).any fun r => lateDue m r now

/-- Committed actions of the group at this strobe: recipe, action. -/
def committing (m : Module) (normal : Bool) (g now : Nat) : List (Nat × RecipeAction) :=
  (groupRuns m g).flatMap fun r => match commitStep m normal now r with
    | some k => (finalActions (rcActionList (m.cfgB (Ent.recipeImage r)) k)).map fun a => (r, a)
    | none => []

/-- At the marshalling start the committed valve values are handed to the writer (R193). -/
def slateMarshal (normal : Bool) (g now : Nat) (m : Module) : Module :=
  let vs := ((committing m normal g now).filter fun x => x.2.kind == 5).map fun x => (x.2.target, x.2.value % 2 ^ 20)
  { m with slate := { m.slate with committed := m.slate.committed.filter (fun c => !(vs.any fun v => v.1 == c.1)) ++ vs } }

/-- The function an action's target belongs to; none where nothing is asked of it. -/
def actionFn (a : RecipeAction) : Option Nat :=
  match a.kind with
  | 5 => some fnSlate
  | 6 => some (fnAxis a.target)
  | 7 => some (fnWin a.target)
  | 8 => none
  | _ => some a.target

/-- A committed loop action lands in its slot at the strobe (R194); what the slot does at its next sample instant comes before any host write to the same entry. -/
def landLoop (n kind v : Nat) (m : Module) : Module :=
  let front := fun (key val : Nat) (m : Module) => { m with odp := { m.odp with pend := ⟨key, val, some n, 0⟩ :: m.odp.pend } }
  let live := m.active n
  match kind with
  | 1 => when live (slotSpWrite n v) (m.setBoth (Ent.loopSp n) v)
  | 2 => when live (fun m => front (Ent.loopManOut n) v (setCellQ n 0x51 (sint 20 v) m)) (m.setBoth (Ent.loopManOut n) v)
  | 3 => front (Ent.loopModeReq n) v (when live (setMem n 0x54 1 v) (m.setBoth (Ent.loopModeReq n) v))
  | _ => when live (fun m => front (Ent.loopSwap n) 1 (setMem n 0x55 1 1 m)) m

/-- One committed action reaches its target at the strobe, or is discarded (R194, R201). -/
def commitAction (e : Nat) (r : Nat) (a : RecipeAction) (m : Module) : Module :=
  let left := (m.rrun r).step
  let okay := match actionFn a with | some f => m.up f | none => true
  if !okay then raiseEpoch e (fnRecipe r) 0x0608 (slateBody left none none a.kind a.target) (m.bump Ent.slateDiscarded)
  else match a.kind with
    | 5 => m
    | 6 =>
      let c : AxisCmd := ⟨a.target, a.sub, sint 32 a.value⟩
      if 3994 ≤ m.tick.cycle then { m with motion := { m.motion with slateNext := m.motion.slateNext ++ [c] } }
      else { m with motion := { m.motion with slateCmds := m.motion.slateCmds ++ [c] } }
    | 7 => trigger a.target ⟨6, 0, m.tick.epoch.getD 0, m.now⟩ m
    | 8 =>
      let ev : Event := ⟨fnRecipe r, 0x060A, 2 + notLocked m, m.now, some e, padTo 28 (slateBody left (some a.target) none 0 a.value)⟩
      { m with agate := { m.agate with raised := m.agate.raised ++ [ev] } }
    | k => landLoop a.target k a.value m

/-- Targets on which two runs commit at this strobe (R196). -/
def collisions (l : List (Nat × RecipeAction)) : List RecipeAction :=
  let hit := fun (x y : Nat × RecipeAction) => x.1 != y.1 && x.2.kind == y.2.kind && x.2.target == y.2.target && x.2.kind != 8
  let cs := (l.filter fun x => l.any (hit x)).map fun x => (x.2.kind, x.2.target)
  cs.eraseDups.map fun c => ⟨c.1, 0, c.2, 0⟩

/-- A stage has been committed: the step changes, other stages are squashed but those of the kept path, and the new tree is begun (R191 to R195). -/
def afterCommit (r k : Nat) (exit : Option Nat) (kind : Nat) (e : Nat) (m : Module) : Module :=
  let x := m.rrun r
  let kept := if kind = 1 then (x.stages.find? fun s => decide (s.path ≤ 1) && s.depth == 1 && s.step == k && s.built).map Stage.path else none
  let chosen : Stage → Bool := fun s => match kind with
    | 1 => kept == some s.path && s.depth == 1
    | 3 => s.path == 2
    | _ => s.path == 3
  let inPath : Stage → Bool := fun s => kept == some s.path && decide (1 < s.depth)
  let m := dropStages r chosen m
  let m := squash r (fun s => !inPath s && s.path != 2) m
  let tree := treeOf (m.cfgB (Ent.recipeImage r)) k
  let first := (x.stages.find? fun s => inPath s && s.depth == 2).map Stage.step
  let path := match tree.find? fun t => t.2.1 == 1 && some t.2.2 == first with | some t => t.1 | none => 0
  let move := fun (s : Stage) => if inPath s then { s with path := path, depth := s.depth - 1 } else s
  let m := { m with slate := { m.slate with building := m.slate.building.map fun y => if y.1 = r then (y.1, move y.2) else y } }
  let n := rcExits (m.cfgB (Ent.recipeImage r)) k
  let m := modRun r (fun x => { x with
    stages := x.stages.map move, step := some k, stepEpoch := e, elapsed := 0, lastExit := exit, cont := false, due := .none, late := none,
    quals := List.replicate n 0, results := [], reserved := if kind = 3 then 32 else x.reserved }) m
  let m := countEntries (m.bump (Ent.recipeCommits r))
  let m := if kind = 1 then m.bump Ent.slateHits else m
  let m := if kind = 2 then (m.bump (Ent.recipeMisses r)).bump Ent.slateMisses else m
  let m := raiseEpoch e (fnRecipe r) (if kind = 2 then 0x0602 else 0x0601) (slateBody x.step (some k) exit (if kind = 2 then 1 else 0) 0) m
  fillTrees (journalRun r (runStats r m))

/-- One run at its strobe (R193, R197, R198, R200). Kinds: 0 start, 1 hit, 2 late, 3 abort. -/
def runStrobe (normal : Bool) (now e r : Nat) (m : Module) : Module :=
  let x := m.rrun r
  let abort := fun (exit : Option Nat) (m : Module) => match rcAbort (m.cfgB (Ent.recipeImage r)) with
    | some k => afterCommit r k none 3 e m
    | none => journalRun r (runEnd r exit e m)
  if lateDue m r now then
    match x.late with
    | some (k, i, _) => afterCommit r k (some i) 2 e m
    | none => m
  else if normal then
    match x.due with
    | .none => m
    | .start k => afterCommit r k none 0 e m
    | .resolved (.step k) i false => afterCommit r k (some i) 1 e m
    | .resolved (.step k) i true =>
      squash r (fun s => decide (s.path ≤ 1)) (modRun r (fun x => { x with due := .none, late := some (k, i, true), results := [] }) m)
    | .resolved .hold i _ =>
      journalRun r (raiseEpoch e (fnRecipe r) 0x0604 (slateBody x.step none (some i) 0 0)
        (runStats r (modRun r (fun x => { x with st := .held, due := .none, results := [] }) m)))
    | .resolved .finish i _ => journalRun r (runEnd r (some i) e m)
    | .resolved .abort i _ => abort none (abortBegin r 2 (some i) e m)
    | .abort _ => abort none m
  else m

/-- Slate at an output strobe: actions land in ascending recipe number, then runs move on. `e` is the epoch of the period's sample instant. -/
def slateStrobe (normal : Bool) (g e : Nat) (m : Module) : Module :=
  let now := m.tick.epoch.getD 0
  let l := committing m normal g now
  let m := forL (collisions l) (fun c m => raiseEpoch e fnSlate 0x0609 (slateBody none none none 0 c.target) (m.bump Ent.slateCollisions)) m
  let m := forL l (fun x m => commitAction e x.1 x.2 m) m
  forL (groupRuns m g) (fun r m => runStrobe normal now e r m) m

/-! ### Valve words at the strobe (R188) -/

/-- The value a valve word takes at a strobe: the one Slate committed last, else the held one. -/
def valveValue (m : Module) (v : Nat) : Nat :=
  match (m.slate.committed.filter fun c => c.1 == v).getLast? with
  | some c => c.2
  | none => Sparse.get (fun _ => 0) m.slate.valves v

/-- Valve writes of a group's strobe: address and value; `all` is false at a late commit, which writes committed values alone. -/
def valveMoves (m : Module) (all : Bool) (g : Nat) : List (Nat × Q) :=
  if m.active fnSlate then
    (valveTable m).filterMap fun v =>
      if v.2.2.1 == g && (all || m.slate.committed.any fun c => c.1 == v.1) then some (v.2.1, BitVec.ofNat 20 (valveValue m v.1)) else none
  else []

/-- The committed values become held values at the strobe. -/
def valveHold (g : Nat) (m : Module) : Module :=
  let mine := (valveTable m).filter fun v => v.2.2.1 == g
  let m := forL mine (fun v m => { m with slate := { m.slate with valves := Sparse.set (fun _ => 0) m.slate.valves v.1 (valveValue m v.1) } }) m
  { m with slate := { m.slate with committed := m.slate.committed.filter fun c => !(mine.any fun v => v.1 == c.1) } }

/-! ### START and STOP -/

/-- Recount resident steps and watched words. -/
def countResident (m : Module) : Module :=
  let l := (residentRecipes m).map (recipeImg m)
  (m.setStat Ent.slateStepsResident (residentSteps l)).setStat Ent.slateWatchUsed (watchCount l)

/-- Slate's START takes effect (R188): held values are the initial ones. -/
def slateStart (m : Module) : Module :=
  let t := valveTable m
  let m := forN 11 (fun i m => m.setStat (keyOf 0x2C00 (i + 1)) 0) m
  let m := { m with slate := { m.slate with valves := t.foldl (fun (acc : Sparse Nat) (v : Nat × Nat × Nat × Q) => Sparse.set (fun _ => 0) acc v.1 v.2.2.2.toNat) [], committed := [], stopWrite := [] } }
  countResident (m.setStat Ent.slateValveWords t.length)

/-- Slate's stop completes (R188): each valve word is to be written once with its initial value. -/
def slateStop (m : Module) : Module :=
  { m with slate := { m.slate with stopWrite := (valveTable m).map fun v => (v.2.2.1, v.2.1, v.2.2.2) } }

/-- The reservation of a run restored from the journal is made again; where it finds no room, the run is IDLE (R515). -/
def restoreRun (r : Nat) (m : Module) : Module :=
  let bs := m.cfgB (Ent.recipeImage r)
  let x := m.rrun r
  let ab := match rcAbort bs with | some k => rcEntries bs k | none => 0
  let n := match x.step with | some k => rcExits bs k | none => 0
  let m := modRun r (fun _ => Run.init) m
  if 2048 < entriesUsed m + 32 + ab then raise (fnRecipe r) 0x0603 (slateBody none none none 0 0) (runResult r 2 m)
  else
    let m := modRun r (fun _ => { x with quals := List.replicate n 0, reserved := 32 + ab, evalEpoch := m.tick.epoch }) m
    match rcAbort bs with
    | some a => queueStage r ⟨a, 2, 0, ab, false⟩ m
    | none => countEntries m

/-- A recipe's START takes effect: it has no run (R202), or the HELD one that boot restored (R515). -/
def recipeStart (r : Nat) (m : Module) : Module :=
  let m := if (m.rrun r).st = .held then restoreRun r m else modRun r (fun _ => Run.init) m
  let m := forL [9, 0xA, 0xB, 0xC, 0xD] (fun i m => m.setStat (keyOf (0x2C40 + r) i) 0) m
  let m := m.setStat (Ent.recipeSteps r) (rcSteps (m.cfgB (Ent.recipeImage r)))
  countResident (runStats r m)

/-- A recipe's stop completes (R202). -/
def recipeStop (r : Nat) (m : Module) : Module :=
  countEntries (countResident (runStats r (modRun r (fun _ => Run.init) { m with slate := { m.slate with building := m.slate.building.filter fun y => y.1 != r } })))

/-- The check of a recipe's START (R183): the status to refuse with, and the entries it leaves. -/
def recipeStartCheck (r : Nat) (m : Module) : Nat × Module :=
  match recipeCheck m r with
  | none => (stOk, (m.setStat (Ent.recipeCheckStep r) 0xFFFF).setStat (Ent.recipeCheckReason r) 0)
  | some (k, why) =>
    (if 6 ≤ why then stOutCapacity else stBadValue, (m.setStat (Ent.recipeCheckStep r) k).setStat (Ent.recipeCheckReason r) why)

end Sys2Proof.Machine
end

