-- ==== Sys2Proof/Machine/Motion.lean ====
section
/-! DEFINITION. Motion (chapter 8): profiles, segments, stops, homing, following, coarse steps, interpolation groups, encoders, limits and commands. -/

namespace Sys2Proof.Machine

def Module.axis (m : Module) (a : Nat) : Axis := Sparse.get (fun _ => Axis.init) m.motion.axes a
def modAxis (a : Nat) (f : Axis → Axis) (m : Module) : Module :=
  { m with motion := { m.motion with axes := Sparse.mod (fun _ => Axis.init) m.motion.axes a f } }
def Module.mgroup (m : Module) (g : Nat) : MGroup := Sparse.get (fun _ => MGroup.init) m.motion.groups g
def modMGroup (g : Nat) (f : MGroup → MGroup) (m : Module) : Module :=
  { m with motion := { m.motion with groups := Sparse.mod (fun _ => MGroup.init) m.motion.groups g f } }

/-- One microstep in the position unit (Table 8.1). -/
def ustep : Int := 65536

/-- The highest velocity, 80 microsteps per tick, in 2^-32 microsteps per tick. -/
def vTop : Int := 0x5000000000

/-- `axis[a].state` (Table 8.2). -/
def AxisState.code : AxisState → Nat
  | .disabled => 0 | .standstill => 1 | .moving => 2 | .stopping => 3 | .interrupted => 4 | .homing => 5 | .following => 6 | .stepin => 7 | .fault => 8

/-- States in which the axis is under way. -/
def AxisState.busy : AxisState → Bool
  | .moving | .stopping | .homing | .following | .stepin => true
  | _ => false

/-! ### Profiles (R248, R249) -/

/-- What a profile runs with: acc, dec, vs and vmax. -/
structure Kinematics where
  acc : Int
  dec : Int
  vs : Int
  vmax : Int
  deriving DecidableEq, Repr

/-- Distance to brake from speed `u`. -/
def brake (k : Kinematics) (u : Int) : Int :=
  let n := max 0 ((u - k.vs) / k.dec)
  n * u - k.dec * n * (n + 1) / 2

/-- The speed after one segment of a ramped stop. -/
def stopstep (k : Kinematics) (v : Int) : Int := if k.vs ≤ v - k.dec then v - k.dec else 0

/-- The sign of a number. -/
def sgn (x : Int) : Int := if x < 0 then -1 else if x = 0 then 0 else 1

/-- One segment of a profiled move. A target that lies behind is not landed on: the move comes to rest first, as the text of R248 says. -/
def profileStep (k : Kinematics) (x : Profile) : Profile :=
  let dir := if x.v = 0 ∧ x.t ≠ x.p then sgn (x.t - x.p) else x.dir
  let r := (x.t - x.p) * dir * 65536
  if r = 0 then { x with v := 0, dir := dir }
  else if 0 < r ∧ r ≤ k.vs then { x with p := x.t, v := 0, dir := dir }
  else
    let u := max (min (x.v + k.acc) k.vmax) k.vs
    let w := max (x.v - k.dec) k.vs
    let v := if u + brake k u ≤ r then u
      else if k.vs ≤ x.v ∧ x.v + brake k x.v ≤ r then x.v
      else if w + brake k w ≤ r then w
      else stopstep k x.v
    if 0 < v ∧ 0 < r ∧ r ≤ v then { x with p := x.t, v := 0, dir := dir }
    else { x with p := x.p + dir * (v / 65536), v := v, dir := dir }

/-- One segment of a stop; a stop that reaches the target lands there (R249). `bound`: the target counts. -/
def stopStepSeg (k : Kinematics) (hard bound : Bool) (x : Profile) : Profile :=
  let v := if hard then 0 else stopstep k x.v
  let r := (x.t - x.p) * x.dir * 65536
  if bound ∧ 0 < v ∧ 0 < r ∧ r ≤ v then { x with p := x.t, v := 0 }
  else { x with p := x.p + x.dir * (v / 65536), v := v }

/-- One segment at a set speed in a direction (R262). -/
def speedStep (k : Kinematics) (dir : Int) (x : Profile) : Profile :=
  let v := max (min (x.v + k.acc) k.vmax) k.vs
  { x with p := x.p + dir * (v / 65536), v := v, dir := dir }

/-- The average of the last Nj positions, rounded down (R250). Before the first one of a history the axis stood at it. -/
def filtered (nj : Nat) (h : List Int) : Int :=
  let l := h.drop (h.length - nj)
  (l.sum + ((nj - l.length : Nat) : Int) * l.headD 0) / nj

/-- The kinematics of an axis: the top speed of a JOG, of SET_VMAX, or the configured one. -/
def axisKin (m : Module) (a : Nat) : Kinematics :=
  let x := m.axis a
  let top := if x.jogV ≠ 0 then x.jogV else if x.vmaxCmd ≠ 0 then x.vmaxCmd else m.cfgI48 (Ent.axisVmax a)
  ⟨m.cfg (Ent.axisAcc a), m.cfg (Ent.axisDec a), m.cfg (Ent.axisVstart a), top⟩

/-- The kinematics of a group. -/
def groupKin (m : Module) (g : Nat) : Kinematics :=
  ⟨m.cfg (Ent.mgroupAcc g), m.cfg (Ent.mgroupDec g), m.cfg (Ent.mgroupVstart g), m.cfgI48 (Ent.mgroupVmax g)⟩

/-- Nj of an axis. -/
def axisNj (m : Module) (a : Nat) : Nat := if m.cfg (Ent.axisProfile a) = 1 then max 1 (m.cfg (Ent.axisJerkTicks a)) else 1
/-- Nj of a group. -/
def groupNj (m : Module) (g : Nat) : Nat := max 1 (m.cfg (Ent.mgroupJerkTicks g))

/-! ### Step pulses (R251, R252) -/

/-- Motion cycles of the steps of a segment from p0 to p1. -/
def stepCycles (p0 p1 : Int) : List Int :=
  let d := max (p1 - p0) (p0 - p1)
  if p0 < p1 then
    let n := p0 / ustep
    (List.range (p1 / ustep - n).toNat).map fun (j : Nat) => (((n + (j : Int) + 1) * ustep - p0) * 2000 + d - 1) / d - 1
  else
    let n := p0 / ustep
    (List.range (n - p1 / ustep).toNat).map fun (j : Nat) => ((p0 - (n - (j : Int)) * ustep + 1) * 2000 + d - 1) / d - 1

/-- Issue steps one after another with the timing of Table 8.5: steps put off, and the cycle of the last one. `last` is the last edge, `setup` the earliest cycle after a change of DIR. -/
def issueSteps : List Int → Int → Int → Nat × Int
  | [], last, _ => (0, last)
  | c :: cs, last, setup =>
    let t := max c (max (last + 25) setup)
    let r := issueSteps cs t setup
    (r.1 + (if t = c then 0 else 1), r.2)

/-- The steps of the segment from `seg0` to `seg1` are issued. -/
def emitSteps (a : Nat) (m : Module) : Module :=
  let x := m.axis a
  let cs := stepCycles x.seg0 x.seg1
  if cs.isEmpty then modAxis a (fun x => { x with sinceStep := min 4000 (x.sinceStep + 2000) }) m
  else
    let dir := sgn (x.seg1 - x.seg0)
    let setup : Int := if dir = x.lastDir then -2000 else m.cfg (Ent.axisDirSetup a)
    let r := issueSteps cs (-x.sinceStep) setup
    (modAxis a (fun x => { x with lastDir := dir, sinceStep := 2000 - r.2 }) m).bumpBy (Ent.axisStepDeferred a) r.1

/-! ### Events and status -/

/-- The byte of `axis[a].inputs`. -/
def axisInputs (x : Axis) : Nat :=
  b01 x.inPos + 2 * b01 x.inNeg + 4 * b01 x.inHome + 8 * b01 x.zLevel + 16 * b01 x.latchPos + 32 * b01 x.latchNeg

/-- The payload of a motion event (R270). -/
def axisBody (m : Module) (a code31 : Nat) (dev : Bool) : List Byte :=
  let x := m.axis a
  leBytes 1 a ++ leBytes 1 code31 ++ leBytes 6 (uint 48 x.seg1) ++ leBytes 6 (uint 48 (if dev then x.deviation else x.prof.t - x.prof.p)) ++ leBytes 1 (axisInputs x)

def axisEvent (a code code31 : Nat) (m : Module) : Module := raise (fnAxis a) code (axisBody m a code31 (code == 0x0802)) m

/-- The status entries of an axis (Table 8.10). -/
def axisStats (a : Nat) (m : Module) : Module :=
  let x := m.axis a
  let m := (m.setStat (Ent.axisState a) x.st.code).setStatI (Ent.axisPosition a) 64 (sint 48 (uint 48 x.seg0))
  let m := (m.setStatI (Ent.axisTarget a) 64 (sint 48 (uint 48 x.prof.t))).setStatI (Ent.axisRemaining a) 64 (sint 48 (uint 48 (x.prof.t - x.before.p)))
  let m := (m.setStatI (Ent.axisVelocity a) 64 (if x.st.busy then x.prof.v * x.prof.dir else 0)).setStat (Ent.axisEncCount a) x.encCount.toNat
  let m := (m.setStatI (Ent.axisEncPosition a) 64 (sint 48 (uint 48 x.encPos))).setStatI (Ent.axisDeviation a) 64 (sint 48 (uint 48 x.deviation))
  let m := (m.setStat (Ent.axisFault a) x.fault).setStat (Ent.axisInputs a) (axisInputs x)
  let m := (m.setStat (Ent.axisHomed a) (b01 x.homed)).setStatI (Ent.axisGtarget a) 64 (sint 48 (uint 48 x.gtarget))
  (m.setStat (Ent.axisLastResult a) x.lastResult).setStatI (Ent.axisZPosition a) 64 (sint 48 (uint 48 x.zPos))

/-- The status entries of a group (Table 8.11). -/
def mgroupStats (g : Nat) (m : Module) : Module :=
  let x := m.mgroup g
  let m := (m.setStat (Ent.mgroupLeader g) (x.leader.getD 0xFF)).setStatI (Ent.mgroupProgress g) 64 x.prof.p
  (m.setStatI (Ent.mgroupLength g) 64 x.prof.t).setStat (Ent.mgroupState g) x.st

/-! ### Groups -/

/-- The members that a mask names. -/
def maskAxes (v : Nat) : List Nat := (List.range 32).filter (bit v)

/-- The RUNNING group that an axis is a member of. -/
def groupOf (m : Module) (a : Nat) : Option Nat := (List.range 8).find? fun g => m.running (fnMGroup g) && bit (m.cfg (Ent.mgroupMembers g)) a

/-- The group whose motion an axis takes part in or waits in. -/
def movingGroup (m : Module) (a : Nat) : Option Nat :=
  match (List.range 8).find? (fun g => m.active (fnMGroup g) && (m.mgroup g).members.any fun y => y.1 == a) with
  | some g => if (m.mgroup g).st = 0 then none else some g
  | none => none

/-- Every member of a group changes. -/
def modMembers (g : Nat) (f : Axis → Axis) (m : Module) : Module := forL (m.mgroup g).members (fun y m => modAxis y.1 f m) m

/-- A cause stops the whole group (R257). -/
def groupStop (g : Nat) (hard : Bool) (m : Module) : Module :=
  let x := m.mgroup g
  if x.st = 1 ∨ x.st = 2 then
    modMembers g (fun y => { y with st := .stopping })
      (modMGroup g (fun x => { x with st := 2, stopHard := (x.st == 2 && x.stopHard) || hard }) m)
  else m

/-! ### Stops (R249, R255, R257) -/

/-- Microsteps of a batch that will not be emitted. -/
def dropWaiting (a : Nat) (m : Module) : Module :=
  let n := (m.axis a).siTimes.length
  (modAxis a (fun x => { x with siTimes := [] }) m).bumpBy (Ent.axisStepinDropped a) n

/-- Waiting microsteps at the interval of Table 8.5, from a motion cycle on. -/
def paced (t : Nat) (l : List (Nat × Int)) : List (Nat × Int) := l.zipIdx.map fun y => (t + 25 * y.2, y.1.2)

/-- The first motion cycle from `t` on that keeps the least interval after the last STEP edge, which `sinceStep` reckons from the motion cycle `start` (R252). -/
def stepFree (t : Nat) (x : Axis) (start : Nat) : Nat := max t ((start : Int) - x.sinceStep + 25).toNat

/-- The motion cycle of the last sample instant, counted from epoch 0. -/
def Module.motionCycle (m : Module) : Nat := (m.tick.epoch.getD 0) * 2000

/-- A cause stops an axis: hard or ramped with a deceleration, into FAULT or not. -/
def beginStop (a : Nat) (hard : Bool) (dec : Int) (toFault : Bool) (m : Module) : Module :=
  let x := m.axis a
  let mark := modAxis a (fun x => { x with toFault := x.toFault || toFault }) m
  match movingGroup m a with
  | some g =>
    if (m.mgroup g).st ≤ 2 then groupStop g hard mark
    else if toFault then modAxis a (fun x => { x with st := .fault, toFault := false }) (modMGroup g (fun y => { y with st := 4 }) m) else m
  | none =>
    match x.st with
    | .moving | .homing | .following =>
      modAxis a (fun x => { x with st := .stopping, stopHard := hard, stopDec := dec, spread := none }) mark
    | .stopping => modAxis a (fun x => { x with stopHard := x.stopHard || hard, stopDec := if toFault then dec else x.stopDec }) (if hard && x.kind == .stepin then dropWaiting a mark else mark)
    | .stepin =>
      let m := modAxis a (fun x => { x with st := .stopping, stopHard := hard, stopDec := dec, kind := .stepin, siLast := none }) mark
      if hard then dropWaiting a m else modAxis a (fun x => { x with siTimes := paced (stepFree m.motionCycle x m.motionCycle) x.siTimes }) m
    | .standstill | .interrupted => if toFault then modAxis a (fun x => { x with st := .fault }) m else m
    | _ => m

/-- The deceleration of an axis's ordinary stops. -/
def axisDec (m : Module) (a : Nat) : Int := m.cfg (Ent.axisDec a)

/-- An axis takes a fault code; the first by precedence stands (R266). -/
def setFault (a code : Nat) (m : Module) : Module := modAxis a (fun x => if x.fault = 0 then { x with fault := code } else x) m

/-! ### Limits (R260, R263) -/

/-- The side of the reference limit of a homing mode: some false for limit+, some true for limit−. -/
def refLimit : Nat → Option Bool
  | 3 => some true | 4 => some false | _ => none

/-- The input is fitted, and its configured stop is ramped. -/
def limitFitted (m : Module) (a : Nat) (neg : Bool) : Bool := bit (m.cfg (Ent.axisLimitStop a)) (if neg then 5 else 4)
def limitRamped (m : Module) (a : Nat) (neg : Bool) : Bool := bit (m.cfg (Ent.axisLimitStop a)) (if neg then 1 else 0)

def Axis.qual (x : Axis) (neg : Bool) : Nat := if neg then x.qualNeg else x.qualPos
def Axis.latch (x : Axis) (neg : Bool) : Bool := if neg then x.latchNeg else x.latchPos
def Axis.rel (x : Axis) (neg : Bool) : Nat := if neg then x.relNeg else x.relPos
def Axis.level (x : Axis) (neg : Bool) : Bool := if neg then x.inNeg else x.inPos
def Axis.setLatch (x : Axis) (neg v : Bool) : Axis := if neg then { x with latchNeg := v } else { x with latchPos := v }

/-- A limit input is read at a sample instant: counts and chatter. -/
def readLimit (a : Nat) (neg now : Bool) (m : Module) : Module :=
  let x := m.axis a
  let changed := x.level neg != now
  let chat := changed && (range 1 (m.cfg (Ent.axisLimitQual a) - 1) (x.qual neg) || (x.latch neg && decide (x.rel neg < m.cfg (Ent.axisLimitRelease a))))
  let q := if now then min 255 (x.qual neg + 1) else 0
  let r := if now then 0 else min 255 (x.rel neg + 1)
  let m := modAxis a (fun x => if neg then { x with inNeg := now, qualNeg := q, relNeg := r } else { x with inPos := now, qualPos := q, relPos := r }) m
  if chat then m.bump (Ent.axisChatter a) else m

/-- A limit trips where its count has reached limit_qual and no latch stands (R260, R263). -/
def limitTrip (a : Nat) (neg : Bool) (m : Module) : Module :=
  let x := m.axis a
  if !m.active (fnAxis a) || !limitFitted m a neg || x.latch neg || !x.level neg || decide (x.qual neg < m.cfg (Ent.axisLimitQual a)) then m
  else
    let m := modAxis a (fun x => x.setLatch neg true) m
    let hard := !limitRamped m a neg
    let dec : Int := if m.cfg (Ent.axisLimitDec a) = 0 then axisDec m a else m.cfg (Ent.axisLimitDec a)
    if x.st == .homing && refLimit x.homeMode == some neg then m
    else if x.st == .homing then
      let m := modAxis a (fun x => { x with fault := 4, homed := false }) m
      beginStop a hard dec true (axisEvent a 0x0803 4 m)
    else
      let code := if neg then 2 else 1
      let m := if x.st == .fault then m else modAxis a (fun x => { x with fault := if x.fault = 0 ∨ x.fault = 3 then code else x.fault }) m
      beginStop a hard dec true (axisEvent a 0x0801 code m)

/-- Homing clears the latch of its reference limit once the release count is reached (R263). -/
def homingLatch (a : Nat) (m : Module) : Module :=
  let x := m.axis a
  match refLimit x.homeMode with
  | some neg => if x.latch neg && decide (m.cfg (Ent.axisLimitRelease a) ≤ x.rel neg) && x.fault == 0 then modAxis a (fun x => x.setLatch neg false) m else m
  | none => m

/-! ### Encoder and stall (R264, R265) -/

/-- The captured count moves the encoder position. -/
def captureEncoder (a : Nat) (m : Module) : Module :=
  if m.cfg (Ent.axisEncMode a) = 0 then m
  else modAxis a (fun x =>
    let d := (x.encHw - x.encCount).toInt
    { x with encCount := x.encHw, encPos := x.encPos + d * m.cfgI32 (Ent.axisEncScale a) }) m

/-- The deviation has stood for stall_time instants: the stall action applies (R265). -/
def stallFault (a : Nat) (m : Module) : Module :=
  let x := m.axis a
  if m.active (fnAxis a) && m.cfg (Ent.axisStallWindow a) != 0 && x.stallCount == m.cfg (Ent.axisStallTime a) && m.cfg (Ent.axisStallAction a) != 0 &&
      x.st != .fault && !x.toFault && x.st != .stepin then
    let m := axisEvent a 0x0802 3 (setFault a 3 m)
    beginStop a (m.cfg (Ent.axisStallAction a) == 2) (axisDec m a) true m
  else m

/-- The deviation at an instant. -/
def stallCheck (a : Nat) (m : Module) : Module :=
  let w := m.cfg (Ent.axisStallWindow a)
  if w = 0 ∨ m.cfg (Ent.axisEncMode a) = 0 then modAxis a (fun x => { x with deviation := 0, stallCount := 0 }) m
  else
    let m := modAxis a (fun x =>
      let d := x.cmdHist.getD (m.cfg (Ent.axisStallLag a)) x.seg1 - x.encPos
      { x with deviation := d, stallCount := if (w : Int) < max d (-d) then min 65536 (x.stallCount + 1) else 0 }) m
    stallFault a m

/-! ### Homing (R262, R263) -/

/-- Directions of search and creep of a mode; 0 where the mode has none (Table 8.7). -/
def homeDirs : Nat → Int × Int
  | 1 => (1, -1) | 2 => (-1, 1) | 3 => (-1, 1) | 4 => (1, -1) | 5 => (1, -1) | 6 => (0, 1) | 7 => (0, -1) | _ => (0, 0)

/-- The level that the search ends on and whose release is the reference: home, limit− or limit+. -/
def homeLevel (x : Axis) : Bool := match refLimit x.homeMode with | some neg => x.level neg | none => x.inHome

/-- The search's event: home active, or the reference limit's trip. -/
def searchEvent (x : Axis) : Bool := match refLimit x.homeMode with | some neg => x.latch neg | none => x.inHome

/-- Homing is complete: positions shift so that the reference reads home_offset. -/
def homeDone (a : Nat) (m : Module) : Module :=
  let x := m.axis a
  let d := m.cfgI48 (Ent.axisHomeOffset a) - x.homeRef.getD x.prof.p
  let p := x.prof.p + d
  let m := modAxis a (fun x => { x with
    st := .standstill, kind := .move, prof := ⟨p, p, 0, x.prof.dir⟩, hist := x.hist.map (fun y => y + d), seg0 := x.seg0 + d, seg1 := x.seg1 + d,
    encPos := p, cmdHist := x.cmdHist.map (fun y => y + d), homed := true, homePhase := .none, homeRef := none, zRef := none }) m
  axisEvent a 0x0804 0 m

/-- A search or creep has passed home_travel without its event (R263). -/
def homeNotFound (a : Nat) (m : Module) : Module :=
  let x := m.axis a
  let far := (m.cfg (Ent.axisHomeTravel a) : Int) * ustep
  let run := match x.homePhase with | .search | .creep | .index => true | _ => false
  if m.active (fnAxis a) && x.st == .homing && run && decide (far < max (x.prof.p - x.homeFrom) (x.homeFrom - x.prof.p)) then
    beginStop a false (axisDec m a) true (axisEvent a 0x0805 5 (modAxis a (fun x => { x with fault := 5 }) m))
  else m

/-! ### The segment of an instant (R244, R248 to R250, R254, R262) -/

/-- The new end position joins the filter's history; the emitted end position follows. -/
def Axis.emitTo (nj : Nat) (x : Axis) (p : Profile) : Axis :=
  let h := keepLast (nj + 1) (x.hist ++ [p.p])
  { x with prof := p, hist := h, seg1 := if nj = 1 then p.p else filtered nj h }

/-- The filter has held nothing but p for a segment before this one: with Nj = 1 there is no filter. -/
def filterStill (nj : Nat) (h : List Int) (p : Int) : Bool := nj == 1 || h.all (· == p)

/-- The axis rests: speed 0, and the emitted position stands still on p (R249, R250). -/
def Axis.settled (nj : Nat) (x : Axis) : Bool := x.prof.v == 0 && x.seg0 == x.seg1 && x.seg1 == x.prof.p && filterStill nj x.hist x.prof.p

/-- The state an ended stop leaves. -/
def stopEnd (x : Axis) : Axis :=
  let home := x.homePhase != .none
  let x := if home then { x with prof := { x.prof with t := x.prof.p }, kind := .move, homePhase := .none, homeRef := none, zRef := none } else x
  { x with st := if x.toFault then .fault else if x.prof.t = x.prof.p ∧ x.kind = .move ∧ !home then .standstill else .interrupted, toFault := false, jogV := x.jogV }

/-- One homing segment. -/
def homeSeg (m : Module) (a : Nat) (x : Axis) : Axis :=
  let k := axisKin m a
  let nj := axisNj m a
  let dirs := homeDirs x.homeMode
  let halt := fun (x : Axis) => x.emitTo nj (stopStepSeg k false false x.prof)
  let run := fun (dir : Int) (v : Nat) (x : Axis) => x.emitTo nj (speedStep { k with vmax := v } dir x.prof)
  match x.homePhase with
  | .search => if searchEvent x then halt { x with homePhase := .stop } else run dirs.1 (m.cfg (Ent.axisHomeVel a)) x
  | .stop =>
    let y := halt x
    if y.settled nj then { y with homePhase := .creep, homeFrom := y.prof.p } else y
  | .creep =>
    if !homeLevel x then
      (if x.homeMode = 5 then run dirs.2 (m.cfg (Ent.axisHomeCreep a)) { x with homePhase := .index, zRef := none }
       else halt { x with homePhase := .finish, homeRef := some x.prof.p })
    else run dirs.2 (m.cfg (Ent.axisHomeCreep a)) x
  | .index =>
    match x.zRef with
    | some z => halt { x with homePhase := .finish, homeRef := some z }
    | none => run dirs.2 (m.cfg (Ent.axisHomeCreep a)) x
  | .finish => halt x
  | .none => x

/-- One segment of following (R254). -/
def followSeg (top : Int) (nj : Nat) (x : Axis) : Axis :=
  match x.spread with
  | none => x.emitTo nj { x.prof with v := 0 }
  | some s =>
    let i := min s.d (s.i + 1)
    let want := s.from_ + (s.target - s.from_) * i / s.d
    let inc := want - x.prof.p
    let cap := top / 65536
    let got := max (-cap) (min cap inc)
    let p := x.prof.p + got
    let lag := got != inc
    let y := x.emitTo nj { x.prof with p := p, v := max got (-got) * 65536, dir := if got = 0 then x.prof.dir else sgn got }
    { y with followLag := lag, spread := if p = s.target ∧ i = s.d then none else some { s with i := i } }

/-- Microsteps of STEPIN emitted before a motion cycle move P; `start` is the motion cycle that `sinceStep` is reckoned from. -/
def drainStepin (t start : Nat) (x : Axis) : Axis :=
  let done := x.siTimes.filter fun y => decide (y.1 < t)
  let d := (done.map Prod.snd).sum * ustep
  let p := x.prof.p + d
  { x with siTimes := x.siTimes.filter (fun y => !decide (y.1 < t)), prof := { x.prof with p := p, t := p }, seg1 := p, hist := [p],
           lastDir := match done.getLast? with | some y => y.2 | none => x.lastDir
           sinceStep := match done.getLast? with | some y => (start : Int) - y.1 | none => x.sinceStep }

/-- The segment of an axis that moves on its own. -/
def axisSeg (a : Nat) (m : Module) : Module :=
  let x := m.axis a
  let nj := axisNj m a
  let k := axisKin m a
  let m := modAxis a (fun x => { x with seg0 := x.seg1, before := x.prof, beforeSt := x.st }) m
  let m := match x.st with
    | .moving => modAxis a (fun x =>
        let y := x.emitTo nj (profileStep k x.prof)
        if y.settled nj && y.prof.p == y.prof.t then { y with st := if y.kind = .follow then .following else .standstill, jogV := 0 } else y) m
    | .stopping =>
      if x.kind = .stepin then modAxis a (fun x => if x.siTimes.isEmpty then stopEnd x else x) m
      else modAxis a (fun x =>
        let y := x.emitTo nj (stopStepSeg { k with dec := if x.stopDec = 0 then k.dec else x.stopDec } x.stopHard (x.homePhase == .none) x.prof)
        if y.settled nj then stopEnd y else y) m
    | .homing => modAxis a (homeSeg m a) m
    | .following => modAxis a (followSeg k.vmax nj) m
    | _ => m
  let y := m.axis a
  if y.st == .homing && y.homePhase == .finish && y.settled nj then homeDone a m else m

/-- One segment of a group (R256, R257). -/
def groupSeg (g : Nat) (m : Module) : Module :=
  let x := m.mgroup g
  if x.st ≠ 1 ∧ x.st ≠ 2 then m
  else
    let k := groupKin m g
    let nj := groupNj m g
    let p := if x.st = 1 then profileStep k x.prof else stopStepSeg k x.stopHard true x.prof
    let h := keepLast (nj + 1) (x.hist ++ [p.p])
    let out := if nj = 1 then p.p else filtered nj h
    let settled := p.v == 0 && out == x.out && out == p.p && filterStill nj h p.p
    let m := modMGroup g (fun x => { x with before := x.prof, beforeSt := x.st, prof := p, hist := h, out := out }) m
    let m := forL x.members (fun y m =>
      let (a, s, d) := y
      let pos := if p.t = 0 then s else s + sgn d * (max d (-d) * out / p.t)
      modAxis a (fun z =>
        let v := max (pos - z.prof.p) (z.prof.p - pos) * 65536
        { z with seg0 := z.seg1, before := z.prof, beforeSt := z.st, seg1 := pos, hist := [pos],
                 prof := { z.prof with p := pos, t := s + d, v := v, dir := if pos = z.prof.p then z.prof.dir else sgn (pos - z.prof.p) } }) m) m
    if !settled then m
    else if p.p = p.t then
      let faults := x.members.any fun y => (m.axis y.1).toFault
      let m := modMGroup g (fun _ => { MGroup.init with st := if faults then 4 else 0 }) m
      forL x.members (fun y m => modAxis y.1 (fun z => { z with st := if z.toFault then .fault else .standstill, toFault := false, kind := .move }) m) m
    else if x.st = 2 then
      let faults := x.members.any fun y => (m.axis y.1).toFault
      let m := modMGroup g (fun y => { y with st := if faults then 4 else 3 }) m
      forL x.members (fun y m => modAxis y.1 (fun z => { z with st := if z.toFault then .fault else .interrupted, toFault := false }) m) m
    else m

/-! ### Commands (Table 8.3, Table 8.4) -/

/-- The command moves the axis: toward + (1), toward − (−1), in place (0); none for a command that commands no motion. -/
def cmdHeading (m : Module) (a code : Nat) (op : Int) : Option Int :=
  let x := m.axis a
  match code with
  | 1 => some (sgn (op * ustep - x.prof.p))
  | 2 => some (sgn ((if x.st = .standstill then x.prof.p else x.prof.t) + op * ustep - x.prof.p))
  | 3 => if op = 0 then none else some (sgn op)
  | 6 => some (sgn (x.prof.t - x.prof.p))
  | 7 =>
    let mode := if op = 0 then m.cfg (Ent.axisHomeMode a) else op.toNat
    some (if (homeDirs mode).1 = 0 then (homeDirs mode).2 else (homeDirs mode).1)
  | 0x0D => some 0
  | _ => none

/-- The heading runs toward a latched limit of the axis. -/
def towardLatch (x : Axis) (d : Int) : Bool := (x.latchPos && decide (0 < d)) || (x.latchNeg && decide (d < 0))

/-- ENABLE is on and its delay has passed (R253). -/
def enabledFor (m : Module) (a : Nat) : Bool := (m.axis a).enabled && decide (m.cfg (Ent.axisEnableDelay a) ≤ (m.axis a).enTicks)

/-- States a command is accepted in (Table 8.3). -/
def cmdStates (code : Nat) (st : AxisState) : Bool :=
  match code with
  | 1 => st == .standstill || st == .moving || st == .interrupted
  | 2 => st == .standstill || st == .moving || st == .interrupted
  | 3 => st == .standstill || st == .moving
  | 4 => st == .moving || st == .homing || st == .following || st == .stepin
  | 5 => st == .moving || st == .homing || st == .following || st == .stepin || st == .stopping
  | 6 => st == .interrupted
  | 7 => st == .standstill || st == .interrupted
  | 8 => st == .standstill || st == .interrupted
  | 9 => st == .fault
  | 0x0B => st == .standstill || st == .interrupted || st == .fault
  | 0x0D => st == .standstill
  | _ => st != .disabled

/-- The new target of a move command. -/
def moveTarget (x : Axis) (code : Nat) (op : Int) : Int :=
  if code = 1 then op * ustep else (if x.st = .standstill then x.prof.p else x.prof.t) + op * ustep

/-- The target lies within the soft limits (R261). -/
def softOk (m : Module) (a : Nat) (t : Int) : Bool := decide (m.cfgI48 (Ent.axisSoftLo a) ≤ t) && decide (t ≤ m.cfgI48 (Ent.axisSoftHi a))

/-- The members that GROUP_GO moves: axis, start, distance. -/
def goMembers (m : Module) (g : Nat) : List (Nat × Int × Int) :=
  (maskAxes (m.cfg (Ent.mgroupMembers g))).map fun i => (i, (m.axis i).prof.p, (m.axis i).gtarget - (m.axis i).prof.p)

/-- The result with which a command is refused; 0 where it is accepted. Limits and the inhibit come first (R266). -/
def cmdResult (m : Module) (a code : Nat) (op : Int) : Nat :=
  let x := m.axis a
  let named := cmdStates code x.st
  let code := if code = 3 ∧ op = 0 then 4 else code
  let heading := cmdHeading m a code op
  let grp := movingGroup m a
  let go := groupOf m a
  let goList := match go with | some g => goMembers m g | none => []
  let lineList : List (Nat × Int) := match grp with | some g => if code = 6 then (m.mgroup g).members.map (fun (y : Nat × Int × Int) => (y.1, (m.axis y.1).prof.t - (m.axis y.1).prof.p)) else [] | none => []
  let badOp := match code with
    | 3 => decide (vTop < max op (-op) * 65536)
    | 7 => !(decide (0 ≤ op) && decide (op ≤ 8)) || (range 5 7 (if op = 0 then m.cfg (Ent.axisHomeMode a) else op.toNat) && m.cfg (Ent.axisEncMode a) == 0)
    | 0x0A => decide (op < 0) || decide (vTop < op * 65536)
    | 0x0B => !(op == 0 || op == 1)
    | 4 => false
    | 5 => op != 0
    | 6 => op != 0
    | 9 => op != 0
    | 0x0D => op != 0
    | 0x0E => op != 0
    | _ => false
  let latched := match heading with | some d => towardLatch x d || (code == 0x0D && goList.any fun y => towardLatch (m.axis y.1) (sgn y.2.2)) || lineList.any (fun y => towardLatch (m.axis y.1) (sgn y.2)) | none => false
  let inhibited := heading.isSome && (x.inhibit || (code == 0x0D && goList.any fun y => (m.axis y.1).inhibit) || lineList.any fun y => (m.axis y.1).inhibit)
  let toT := moveTarget x code op
  if latched then 2
  else if inhibited then 4
  else if !named then (if x.st == .fault && heading.isSome then 9 else 1)
  else if badOp then 7
  else if code == 6 && grp.isSome && (match grp with | some g => (m.mgroup g).members.any fun y => (m.axis y.1).st != .interrupted | none => false) then 9
  else if (grp.isSome && (code == 1 || code == 2 || code == 3 || code == 7 || code == 8)) || (code == 0x0D && go.isNone) then 6
  else if code == 0x0D && goList.any (fun y => (m.axis y.1).st != .standstill && (m.axis y.1).st != .interrupted) then 1
  else if heading.isSome && (!enabledFor m a || (code == 0x0D && goList.any fun y => !enabledFor m y.1) || lineList.any fun y => !enabledFor m y.1) then 5
  else if (code == 1 || code == 2) && !(decide (-(2 ^ 47) ≤ toT) && decide (toT < 2 ^ 47)) then 7
  else if (code == 1 || code == 2) && !softOk m a toT then 3
  else if code == 0x0E && !((x.latchPos && decide (m.cfg (Ent.axisLimitRelease a) ≤ x.relPos)) || (x.latchNeg && decide (m.cfg (Ent.axisLimitRelease a) ≤ x.relNeg))) then 8
  else 0

/-- GROUP_GO (R256). -/
def groupGo (g : Nat) (m : Module) : Module :=
  let ms := goMembers m g
  let len := ms.foldl (fun acc y => max acc (max y.2.2 (-y.2.2))) 0
  if len = 0 then m
  else
    let leader := (ms.find? fun y => max y.2.2 (-y.2.2) == len).map Prod.fst
    let m := modMGroup g (fun _ => { MGroup.init with st := 1, leader := leader, prof := ⟨0, len, 0, 1⟩, hist := [0], members := ms }) m
    forL ms (fun y m => modAxis y.1 (fun x => { x with st := .moving, kind := .group, jogV := 0, prof := { x.prof with t := y.2.1 + y.2.2 } }) m) m

/-- An accepted command's effect. -/
def cmdEffect (a code : Nat) (op : Int) (m : Module) : Module :=
  let x := m.axis a
  match code with
  | 3 =>
    if op = 0 then beginStop a false (axisDec m a) false m
    else
      let t := if 0 < op then m.cfgI48 (Ent.axisSoftHi a) else m.cfgI48 (Ent.axisSoftLo a)
      modAxis a (fun x => { x with st := .moving, kind := .move, jogV := max op (-op) * 65536, prof := { x.prof with t := t } }) m
  | 4 => beginStop a false (axisDec m a) false m
  | 5 => beginStop a true (axisDec m a) false m
  | 6 =>
    match movingGroup m a with
    | some g => modMembers g (fun y => { y with st := .moving }) (modMGroup g (fun y => { y with st := 1, stopHard := false, prof := { y.prof with v := 0 } }) m)
    | none =>
      if x.kind = .stepin then modAxis a (fun x => { x with st := .stepin, siTimes := [], siLast := none }) m
      else modAxis a (fun x => { x with st := .moving, prof := { x.prof with v := 0 } }) m
  | 7 =>
    let mode := if op = 0 then m.cfg (Ent.axisHomeMode a) else op.toNat
    let m := modAxis a (fun x => { x with
      st := .homing, kind := .homing, homeMode := mode, homeFrom := x.prof.p, homeRef := none, zRef := none, jogV := 0,
      prof := ⟨x.prof.p, x.prof.p, 0, x.prof.dir⟩, homePhase := if range 6 7 mode then .index else .search }) m
    if mode = 8 then homeDone a m else m
  | 8 =>
    let p := op * ustep
    modAxis a (fun x => { x with
      prof := ⟨p, p, 0, x.prof.dir⟩, hist := [p], seg0 := p, seg1 := p, encPos := p, cmdHist := [], kind := .move, jogV := 0 }) m
  | 9 =>
    let m := axisEvent a 0x0806 x.fault (modAxis a (fun x => { x with fault := 0, st := if x.prof.t = x.prof.p then .standstill else .interrupted }) m)
    match movingGroup m a with
    | some g => if (m.mgroup g).st = 4 ∧ (m.mgroup g).members.all (fun y => (m.axis y.1).st != .fault) = true then modMGroup g (fun y => { y with st := 3 }) m else m
    | none => m
  | 0x0A => modAxis a (fun x => { x with vmaxCmd := op * 65536 }) m
  | 0x0B =>
    if op = 1 then modAxis a (fun x => if x.enabled then x else { x with enabled := true, enTicks := 0 }) m
    else modAxis a (fun x => { x with enabled := false, homed := false }) m
  | 0x0C => modAxis a (fun x => { x with gtarget := op * ustep }) m
  | 0x0D => match groupOf m a with | some g => groupGo g m | none => m
  | 0x0E =>
    let r := m.cfg (Ent.axisLimitRelease a)
    modAxis a (fun x => { x with latchPos := x.latchPos && decide (x.relPos < r), latchNeg := x.latchNeg && decide (x.relNeg < r) }) m
  | _ => modAxis a (fun x => { x with st := .moving, kind := .move, jogV := 0, prof := { x.prof with t := moveTarget x code op } }) m

/-- One command takes effect at a sample instant (R245 to R247). An axis whose function is not in use leaves it. -/
def axisCommand (c : AxisCmd) (m : Module) : Module :=
  if !m.running (fnAxis c.axis) then m
  else
    let r := cmdResult m c.axis c.code c.operand
    let m := modAxis c.axis (fun x => { x with lastResult := r }) m
    if r = 0 then cmdEffect c.axis c.code c.operand m else m

/-! ### Following and the inhibit at an instant (R254, R259) -/

/-- A follow value that has arrived sets a follow target. -/
def takeFollow (a : Nat) (m : Module) : Module :=
  let x := m.axis a
  match x.followWord with
  | none => modAxis a (fun x => { x with followWord := x.followNext, followNext := none }) m
  | some w =>
    let m := modAxis a (fun x => { x with followWord := x.followNext, followNext := none }) m
    if !wValid w then m
    else
      let lo := m.cfgI48 (Ent.axisSoftLo a)
      let hi := m.cfgI48 (Ent.axisSoftHi a)
      let t := clampI (m.cfgI48 (Ent.axisOrigin a) + wInt w * 2 ^ m.cfg (Ent.axisWordShift a)) lo hi
      let sp : Spread := ⟨t, x.prof.p, 0, divisor (m.cfg (Ent.axisGroup a) % 8)⟩
      let free := x.st == .standstill && enabledFor m a && !x.inhibit && !towardLatch x (sgn (t - x.prof.p))
      if x.st == .following || free then
        modAxis a (fun x => { x with st := .following, kind := .follow, prof := { x.prof with t := t }, spread := some sp }) m
      else if x.kind == .follow && (x.st == .interrupted || x.st == .moving) then modAxis a (fun x => { x with prof := { x.prof with t := t } }) m
      else m

/-- The inhibit word is read (R259). -/
def readInhibit (a : Nat) (m : Module) : Module :=
  let addr := m.cfg (Ent.axisInhibitAddr a)
  let pol := m.cfg (Ent.axisInhibitPolicy a)
  if !isAddr addr then modAxis a (fun x => { x with inhibit := false }) m
  else
    let w := m.word addr
    let now := if wValid w then wValue w != 0 else bit pol 1
    let x := m.axis a
    let m := modAxis a (fun x => { x with inhibit := now }) m
    if now && !x.inhibit && x.st.busy then beginStop a (bit pol 0) (axisDec m a) false (axisEvent a 0x0807 pol m) else m

/-! ### The sample instant (R244) -/

/-- The axes in use, in ascending order. -/
def upAxes (m : Module) : List Nat := (List.range 32).filter fun a => m.active (fnAxis a)

/-- Step 1 and the causes that come before commands. -/
def axisRead (cap : Capture) (a : Nat) (m : Module) : Module :=
  let v := match cap.axis.find? (fun y => y.1 == a) with | some y => y.2 | none => 0
  let m := modAxis a (fun x => { x with inHome := bit v 2, zLevel := bit v 3, enTicks := if x.enabled then min 65536 (x.enTicks + 1) else 0 }) m
  let m := captureEncoder a m
  let m := modAxis a (fun x => let y := if x.st = .stepin ∨ (x.st = .stopping ∧ x.kind = .stepin) ∨ (x.st = .standstill ∧ !x.siTimes.isEmpty) then drainStepin m.motionCycle m.motionCycle x else x
                               { y with cmdHist := (y.seg1 :: y.cmdHist).take 16 }) m
  let m := readLimit a true (bit v 1) (readLimit a false (bit v 0) m)
  -- The reference limit of a homing comes first, so that another limit at the same instant finds the homing under way (R266).
  let first := if (m.axis a).st == .homing then (refLimit (m.axis a).homeMode).getD false else false
  homingLatch a (stallCheck a (limitTrip a (!first) (limitTrip a first m)))

/-- A RUNNING axis with source 2 that coarse steps have reached enters STEPIN (R255). -/
def enterStepin (a : Nat) (m : Module) : Module :=
  let x := m.axis a
  if x.st == .standstill && m.cfg (Ent.axisSource a) == 2 && x.siLast.isSome then modAxis a (fun x => { x with st := .stepin, kind := .stepin }) m else m

/-- A stopping function stops its axis (R267). -/
def functionStop (a : Nat) (m : Module) : Module :=
  if (m.fn (fnAxis a)).st == .stopping && (m.axis a).st.busy && !(m.axis a).stopFunc then
    beginStop a false (axisDec m a) false (modAxis a (fun x => { x with stopFunc := true }) m)
  else m

/-- The motion unit at a sample instant: captures, inhibits, commands (Slate's, then the host's), segments. -/
def motionInstant (cap : Capture) (host : List AxisCmd) (m : Module) : Module :=
  let m := forL (upAxes m) (axisRead cap) m
  let m := forL (upAxes m) readInhibit m
  let cmds := m.motion.slateCmds ++ host
  let m := { m with motion := { m.motion with slateCmds := m.motion.slateNext, slateNext := [] } }
  let m := forL (upAxes m) functionStop m
  let m := forL cmds axisCommand m
  let m := forL (upAxes m) takeFollow m
  let m := forL (upAxes m) enterStepin m
  let m := forL ((upAxes m).filter fun a => match movingGroup m a with | some g => decide (2 < (m.mgroup g).st) | none => true) axisSeg m
  let m := forN 8 (fun g m => mgroupStats g (groupSeg g m)) m
  let m := forL (upAxes m) (fun a m => if (m.axis a).st == .homing then homeNotFound a m else m) m
  forL (upAxes m) (fun a m => axisStats a (emitSteps a m)) m

/-- sat20 of a position in the word's unit (R258). -/
def posWord (m : Module) (a g e : Nat) (p : Int) : Word :=
  let v := (p - m.cfgI48 (Ent.axisOrigin a)) / 2 ^ m.cfg (Ent.axisWordShift a)
  let overs := if satActs 20 v then (if 0 < v then sOVR else sUNDR) else 0
  mkWord (sVALID + overs) g (parityOf g e) (satQ v)

/-- Steps fall in the coming segment: of its own positions, or of the coarse steps that wait. -/
def stepsComing (m : Module) (x : Axis) : Bool :=
  !(stepCycles x.seg0 x.seg1).isEmpty || x.siTimes.any fun y => decide (y.1 < m.motionCycle + 2000)

/-- The status word (Table 8.6). DEV_WARN stands while the deviation exceeds the window, as R265 says. -/
def axisStatus (m : Module) (a : Nat) : Nat :=
  let x := m.axis a
  b01 (stepsComing m x) + 2 * b01 (x.st == .standstill && x.prof.p == x.prof.t) + 4 * b01 x.homed + 8 * b01 x.latchPos + 16 * b01 x.latchNeg +
    32 * b01 x.inHome + 64 * b01 (x.st == .fault) + 128 * b01 x.inhibit +
    256 * b01 (x.stallCount != 0) + 512 * b01 x.enabled + 1024 * b01 x.followLag

/-- The words of an axis, with STALE for the once-write of its stop (R258). -/
def axisWords (m : Module) (a e : Nat) (stale : Bool) : List (Nat × Word) :=
  let g := m.cfg (Ent.axisGroup a) % 8
  let st := fun (w : Word) => if stale then mkWord ((wStatus w - sVALID) + sSTALE) g (wParity w) (wValue w) else w
  [(m.cfg (Ent.axisCmdWord a), st (posWord m a g e (m.axis a).seg0)), (m.cfg (Ent.axisEncWord a), st (posWord m a g e (m.axis a).encPos)),
   (m.cfg (Ent.axisStatusWord a), st (mkWord sVALID g (parityOf g e) (BitVec.ofNat 20 (axisStatus m a))))]

/-- The gather port writes the words of the axes of the sampling groups. -/
def axisGather (e : Nat) (m : Module) : Module :=
  forL ((upAxes m).filter fun a => samples (m.cfg (Ent.axisGroup a) % 8) e) (fun a m => forL (axisWords m a e false) (fun w m => gatherWord w.1 w.2 m) m) m

/-! ### START and STOP -/

/-- An axis's START takes effect (R253, R267). -/
def axisStart (a : Nat) (m : Module) : Module :=
  let m := forL [Ent.axisChatter a, Ent.axisStepDeferred a, Ent.axisEncErrors a, Ent.axisStepinDropped a] (fun k m => m.setStat k 0) m
  modAxis a (fun x => { Axis.init with
    st := .standstill, prof := ⟨x.prof.p, x.prof.p, 0, 1⟩, hist := [x.prof.p], seg0 := x.prof.p, seg1 := x.prof.p, before := ⟨x.prof.p, x.prof.p, 0, 1⟩,
    homed := x.homed, enabled := true, encHw := x.encHw, encCount := x.encHw, encAB := x.encAB, encPos := x.encPos, zPos := x.zPos, gtarget := x.gtarget }) m

/-- The axis of a STOPPING function has come to rest. -/
def axisAtRest (m : Module) (a : Nat) : Bool := !(m.axis a).st.busy

/-- An axis's stop completes: ENABLE turns off, and its words are written once more with STALE (R258, R267). -/
def axisStop (a : Nat) (m : Module) : Module :=
  let e := m.tick.epoch.getD 0
  let ws := axisWords m a e true
  let m := modAxis a (fun x => { x with st := .disabled, enabled := false, homed := false, stopFunc := false, spread := none, followWord := none, followNext := none, siTimes := [], siLast := none }) m
  axisStats a (forL ws (fun w m => gatherWord w.1 w.2 m) m)

/-- The members of a group's shadow break R256, or one of them is not STARTING or RUNNING (R267). -/
def mgroupBad (m : Module) (g : Nat) : Bool :=
  let ms := maskAxes (m.shad (Ent.mgroupMembers g))
  decide (8 < ms.length) || ms.any fun a =>
    !m.up (fnAxis a) || (if (m.fn (fnAxis a)).st = .starting then m.shad (Ent.axisSource a) else m.cfg (Ent.axisSource a)) != 0 ||
    (List.range 8).any fun h => h != g && !m.stopped (fnMGroup h) && bit (if (m.fn (fnMGroup h)).st = .starting then m.shad (Ent.mgroupMembers h) else m.cfg (Ent.mgroupMembers h)) a

/-- An axis's shadow is refused at START, apart from the words that are not free (R267). -/
def axisBad (m : Module) (a : Nat) : Bool :=
  let vmax := sint 48 (m.shad (Ent.axisVmax a))
  let vs : Int := m.shad (Ent.axisVstart a)
  decide (vmax < vs) || decide (vs < 65536) || m.shad (Ent.axisAcc a) == 0 || m.shad (Ent.axisDec a) == 0 || decide (vTop < vmax) ||
    !range 1 256 (m.shad (Ent.axisMicrosteps a)) ||
    (m.shad (Ent.axisSource a) == 2 && (m.shad (Ent.axisEncMode a) == 1 || m.shad (Ent.axisStallWindow a) != 0)) ||
    (range 5 7 (m.shad (Ent.axisHomeMode a)) && m.shad (Ent.axisEncMode a) == 0)

/-- A group's START takes effect; its stop leaves it idle. -/
def mgroupReset (g : Nat) (m : Module) : Module := mgroupStats g (modMGroup g (fun _ => MGroup.init) m)

/-! ### Commands from the axes' inputs -/

/-- Where the axis was before the segment of this instant (R260, R265): the segment is computed again. -/
def redo (a : Nat) (m : Module) : Module :=
  let back := fun (x : Axis) => { x with prof := x.before, st := x.beforeSt, seg1 := x.seg0, hist := x.hist.dropLast ++ (if x.hist.length ≤ 1 then [x.before.p] else []) }
  match movingGroup m a with
  | some g => modMembers g back (modMGroup g (fun x => { x with prof := x.before, st := x.beforeSt, hist := x.hist.dropLast }) m)
  | none => modAxis a back m

/-- Compute the segment of an axis, or of its group. -/
def segmentOf (a : Nat) (m : Module) : Module :=
  match movingGroup m a with
  | some g => if (m.mgroup g).st ≤ 2 then mgroupStats g (groupSeg g m) else axisSeg a m
  | none => axisSeg a m

/-- A cause found at this instant acts on the segment of the instant. -/
def atInstant (f : Nat → Module → Module) (cond : Module → Nat → Bool) (a : Nat) (m : Module) : Module :=
  if cond m a then axisStats a (segmentOf a (f a (redo a m))) else m

/-- The trip of a limit is due. -/
def tripDue (neg : Bool) (m : Module) (a : Nat) : Bool :=
  let x := m.axis a
  m.active (fnAxis a) && limitFitted m a neg && !x.latch neg && x.level neg && decide (m.cfg (Ent.axisLimitQual a) ≤ x.qual neg)

/-- LIMIT_TRIP (R260). -/
def execLimitTrip (a : Fin 32) (negative : Bool) (s : State) : Host.Outcome State Fault Refusal :=
  s.runE (atInstant (fun a => limitTrip a negative) (tripDue negative) a)

/-- A stall fault is due. -/
def stallDue (m : Module) (a : Nat) : Bool :=
  let x := m.axis a
  m.active (fnAxis a) && m.cfg (Ent.axisStallWindow a) != 0 && x.stallCount == m.cfg (Ent.axisStallTime a) && m.cfg (Ent.axisStallAction a) != 0 &&
    x.st != .fault && !x.toFault && x.st != .stepin

/-- STALL_FAULT (R265). -/
def execStallFault (a : Fin 32) (s : State) : Host.Outcome State Fault Refusal := s.runE (atInstant stallFault stallDue a)

/-- HOME_NOT_FOUND (R263). -/
def execHomeNotFound (a : Fin 32) (s : State) : Host.Outcome State Fault Refusal := s.runE (fun m => axisStats a (homeNotFound a m))

/-- A new batch of microsteps behind those that wait: each at its time, and no sooner than 25 cycles after the one before (R252, R255). -/
def batch (t interval count : Nat) (dir : Int) : Nat → Nat → List (Nat × Int)
  | _, 0 => []
  | first, n + 1 =>
    let i := count - (n + 1)
    let c := max (t + i * interval / count) first
    (c, dir) :: batch t interval count dir (c + 25) n

/-- A coarse STEP edge at a motion cycle of the tick (R255). -/
def coarseStep (a mc : Nat) (negative : Bool) (m : Module) : Module :=
  let x := m.axis a
  let t := m.motionCycle + mc
  let n := m.cfg (Ent.axisMicrosteps a)
  if !m.active (fnAxis a) || m.cfg (Ent.axisSource a) != 2 then m
  else if x.st == .stopping || x.st == .interrupted || x.st == .fault then m.bumpBy (Ent.axisStepinDropped a) n
  else if x.st != .stepin && x.st != .standstill then m
  else
    let limit := m.cfg (Ent.axisStepinTimeout a)
    let gap := match x.siLast with | some l => min limit (t - l) | none => limit
    let m := modAxis a (drainStepin (t + 1) (m.motionCycle + 2000)) m
    let free := stepFree t (m.axis a) (m.motionCycle + 2000)
    let old := paced free (m.axis a).siTimes
    let first := match old.getLast? with | some y => y.1 + 25 | none => free
    let all := old ++ batch t gap n (if negative then -1 else 1) first n
    let m := modAxis a (fun x => { x with siTimes := all, siLast := some t }) m
    if 65535 < all.length then
      let m := axisEvent a 0x0808 6 (setFault a 6 m)
      beginStop a true (axisDec m a) true (modAxis a (fun x => { x with st := .stepin, kind := .stepin }) m)
    else m

/-- COARSE_STEP (R255). -/
def execCoarseStep (a : Fin 32) (mc : Nat) (negative : Bool) (s : State) : Host.Outcome State Fault Refusal :=
  s.runE (fun m => if m.standby then m else sendDecision m.epochWire (.coarse a mc negative) (coarseStep a mc negative m))

/-- P of a motion cycle of the current segment. -/
def posAt (x : Axis) (mc : Nat) : Int :=
  x.seg0 + sgn (x.seg1 - x.seg0) * (max (x.seg1 - x.seg0) (x.seg0 - x.seg1) * (min mc 1999 + 1) / 2000)

/-- A Z index edge (R264). -/
def zEdge (a mc : Nat) (m : Module) : Module :=
  let x := m.axis a
  if !m.active (fnAxis a) || m.cfg (Ent.axisEncMode a) == 0 then m
  else
    let z := posAt x mc
    let takes := x.st != .homing || ((x.homePhase == .creep || x.homePhase == .index) && x.zRef.isNone)
    let m := modAxis a (fun x => { x with
      zPos := if takes then z else x.zPos, zRef := if x.st = .homing ∧ x.zRef.isNone ∧ (x.homePhase = .creep ∨ x.homePhase = .index) then some z else x.zRef }) m
    axisStats a m

/-- Z_EDGE (R264). -/
def execZEdge (a : Fin 32) (mc : Nat) (s : State) : Host.Outcome State Fault Refusal := s.run (zEdge a mc)

/-- Place of a pair of A and B levels ([1] A, [0] B) in the quadrature order 00, 10, 11, 01. -/
def quadPlace : Nat → Nat
  | 0 => 0 | 2 => 1 | 3 => 2 | _ => 3

/-- An edge on A or B (R264): one count, or an error where a state was skipped. -/
def quadrature (a ab : Nat) (m : Module) : Module :=
  let x := m.axis a
  if !m.active (fnAxis a) || m.cfg (Ent.axisEncMode a) == 0 then m
  else
    let d := (quadPlace ab + 4 - quadPlace x.encAB) % 4
    let up : BitVec 32 := if bit (m.cfg (Ent.axisOutPolarity a)) 3 then -1 else 1
    let m := modAxis a (fun x => { x with encAB := ab, encHw := if d = 1 then x.encHw + up else if d = 3 then x.encHw - up else x.encHw }) m
    if d = 2 then m.bump (Ent.axisEncErrors a) else m

/-- QUADRATURE_EDGE (R264). -/
def execQuadratureEdge (a : Fin 32) (ab : Fin 4) (s : State) : Host.Outcome State Fault Refusal := s.run (quadrature a ab)

end Sys2Proof.Machine
end

