-- ==== Sys2Proof/Machine/Io.lean ====
section
/-! DEFINITION. Universal channels, banks and discrete points (chapter 9). -/

namespace Sys2Proof.Machine

/-- The member acts as holder: it holds the token, or is a module without a partner, no member reading HOLD on its lines (R285). -/
def Module.holder (m : Module) : Bool := m.red.hold || (m.red.partner.isNone && m.red.lines != 1 && m.red.computing)

def Module.chan (m : Module) (c : Nat) : Chan := Sparse.get (fun _ => Chan.init) m.io.chans c
def modChan (c : Nat) (f : Chan → Chan) (m : Module) : Module :=
  { m with io := { m.io with chans := Sparse.mod (fun _ => Chan.init) m.io.chans c f } }

/-- The payload of an I/O event (R303). -/
def ioBody (num detail : Nat) (reading : Int) : List Byte := leBytes 1 num ++ leBytes 1 detail ++ leBytes 4 (uint 32 reading)

/-- An I/O event, stamped at the sample instant. -/
def ioEvent (source code num detail : Nat) (reading : Int) (m : Module) : Module := raise source code (ioBody num detail reading) m

/-- The bank of a channel, and whether it stands in fault. -/
def chanBank (c : Nat) : Nat := c / 8
def bankBad (m : Module) (c : Nat) : Bool := Sparse.get (fun _ => 0) m.io.bankFault (chanBank c) != 0

/-- Mode and group of a channel. -/
def chanMode (m : Module) (c : Nat) : Nat := m.cfg (Ent.chanMode c)
def chanGrp (m : Module) (c : Nat) : Nat := m.cfg (Ent.chanGroup c) % 8
/-- The channel measures, or drives. -/
def isInput (m : Module) (c : Nat) : Bool := range 1 4 (chanMode m c)
def isOutput (m : Module) (c : Nat) : Bool := range 5 6 (chanMode m c)

/-- Channels in use, in ascending order. -/
def upChans (m : Module) : List Nat := (List.range 64).filter fun c => m.active (fnChan c)

/-! ### From reading to word (R276) -/

/-- sat20(q(gain × x + (offset << 17))) before saturation. -/
def trimRaw (gain offset x : Int) : Int := trunc17 (gain * x + offset * 2 ^ 17)

/-- Temperature ends of a sensor of a mode, on the 2,048 °C scale (Table 9.1): 256 units per °C. -/
def rangeEnds (mode sensor : Nat) : Int × Int :=
  match mode with
  | 2 => (0, 0x78000)
  | 3 => if sensor = 0 then (0, 0x7D000) else (-51200, 217600)
  | 4 =>
    let t : Int × Int := match sensor with
      | 0 => (250, 1820) | 1 => (-200, 1000) | 2 => (-210, 1200) | 3 => (-200, 1372) | 4 => (-200, 1300) | 5 => (-50, 1768) | 6 => (-50, 1768) | _ => (-200, 400)
    (t.1 * 256, t.2 * 256)
  | 6 => (0, 0x78000)
  | _ => (-524288, 524287)

/-- Clamping to a range: value, over, under. -/
def clampFlag (r : Int × Int) (x : Int) : Int × Bool × Bool :=
  if r.2 < x then (r.2, true, false) else if x < r.1 then (r.1, false, true) else (x, false, false)

/-- The NE 43 bands (Table 9.3): valid, over, under, value, band. -/
def ne43 (x : Int) : Bool × Bool × Bool × Int × Nat :=
  if x ≤ 73728 then (false, false, true, 0x13000, 1)
  else if x < 77824 then (true, false, true, 0x13000, 0)
  else if x ≤ 419840 then (true, false, false, x, 0)
  else if x < 430080 then (true, true, false, 0x66800, 0)
  else (false, true, false, 0x66800, 2)

/-- The characteristic of a channel. -/
def chanChar (m : Module) (c e : Nat) (x : Int) : Int × Bool :=
  characteristic (m.cfg (Ent.chanChar c)) (m.cfgQ (Ent.chanCharGain c)) (m.cfgQ (Ent.chanCharOffset c)) (m.cfgQ (Ent.chanSqrtCutoff c))
    (m.tablePts (m.cfg (Ent.chanTable c)) e) x

/-- The cold junction of a TC channel: value, and bad (R278). -/
def coldJunction (m : Module) (cap : Capture) (c : Nat) : Int × Bool :=
  match m.cfg (Ent.chanCjc c) with
  | 0 => (match cap.cjc.find? (fun y => y.1 == chanBank c) with | some y => y.2 | none => 0, false)
  | 1 => let w := m.word (m.cfg (Ent.chanCjcWord c) % 2 ^ 18); (wInt w, !wValid w)
  | _ => (m.cfgQ (Ent.chanCjcFixed c), false)

/-- What a reading becomes: reading of step 2, value before the characteristic, valid, over, under, NE 43 band, cold junction, CJC_BAD, open. -/
structure Reading where
  reading : Int
  value : Int
  valid : Bool
  overs : Bool
  under : Bool
  band : Nat
  cj : Int
  cjBad : Bool
  isOpen : Bool
  deriving DecidableEq, Repr

/-- Steps 1 to 4 of R276 with R277 and R278. -/
def readChan (m : Module) (cap : Capture) (c : Nat) : Reading :=
  let mode := chanMode m c
  let sensor := m.cfg (Ent.chanSensor c)
  let raw := match cap.analog.find? (fun y => y.1 == c) with | some y => y.2 | none => 0
  let cal := satInt 20 (trimRaw (Config.calGain c mode).toInt (Config.calOffset c mode).toInt raw)
  let full := trimRaw (m.cfgQ (Ent.chanTrimGain c)) (m.cfgQ (Ent.chanTrimOffset c)) cal
  let x := satInt 20 full
  let opts := m.cfg (Ent.chanOptions c)
  let ends := rangeEnds mode sensor
  let cj := if mode = 4 then coldJunction m cap c else (0, false)
  if mode = 2 ∧ bit opts 0 = true then
    let n := ne43 x
    ⟨x, n.2.2.2.1, n.1, n.2.1, n.2.2.1, n.2.2.2.2, 0, false, false⟩
  else
    let y := if mode = 3 ∧ sensor ≠ 0 then Config.ptLinear sensor x else if mode = 4 then Config.tcLinear sensor x cj.1 else if mode = 1 then full else x
    let r := clampFlag ends y
    let open_ := (mode = 3 ∨ mode = 4) ∧ (cap.openCh.contains c = true ∨ ((m.chan c).openCircuit = true ∧ (r.2.1 = true ∨ r.2.2 = true)))
    if open_ then
      let up := bit opts 3
      ⟨x, if up then ends.2 else ends.1, false, up, !up, 0, cj.1, cj.2, true⟩
    else ⟨x, r.1, !cj.2, r.2.1, r.2.2, 0, cj.1, cj.2, false⟩

/-- Bits of `chan[c].flags` (Table 9.12). -/
def chanFlags (m : Module) (c : Nat) : Module :=
  let x := m.chan c
  m.setStat (Ent.chanFlags c) (b01 x.flagOvr + 2 * b01 x.flagUndr + 4 * b01 (x.band != 0) + 8 * b01 x.openCircuit + 16 * b01 x.compl +
    32 * b01 x.alarm + 64 * b01 (bankBad m c) + 128 * b01 x.stage + 256 * b01 x.failAct + 512 * b01 x.cjcBad)

/-- A word that keeps its value and reads STALE (R282, R283). -/
def staleWord (m : Module) (a g e : Nat) : Word := mkWord sSTALE g (parityOf g e) (wValue (m.word a))

/-- An input channel at a sample instant of its group (R276, R277); under CLOCK_FAULT its word reads VALID = 0 and STALE = 1 (R456). -/
def inputInstant (cap : Capture) (e c : Nat) (m : Module) : Module :=
  let g := chanGrp m c
  let a := m.cfg (Ent.chanWord c)
  if bankBad m c then (if isAddr a then gatherWord a (staleWord m a g e) m else m)
  else
    let old := m.chan c
    let r := readChan m cap c
    let ch := chanChar m c e r.value
    let overs := if ch.2 then decide (0 ≤ ch.1) else r.overs
    let under := if ch.2 then decide (ch.1 < 0) else r.under
    let st := (if m.cfault then sSTALE else if r.valid then sVALID else 0) + (if overs then sOVR else 0) + (if under then sUNDR else 0)
    let m := modChan c (fun x => { x with flagOvr := overs, flagUndr := under, band := r.band, openCircuit := r.isOpen, cjcBad := r.cjBad }) m
    let m := (m.setStat (Ent.chanReading c) (qWire (BitVec.ofInt 20 r.reading))).setStat (Ent.chanCjcTemp c) (qWire (satQ r.cj))
    let m := if r.band ≠ 0 ∧ r.band ≠ old.band then ioEvent (fnChan c) 0x0901 c r.band r.reading m else m
    let m := if r.isOpen && !old.openCircuit then ioEvent (fnChan c) 0x0907 c 0 r.reading m else m
    gatherWord a (mkWord st g (parityOf g e) (BitVec.ofInt 20 ch.1)) m

/-! ### Outputs (R275, R279 to R282) -/

/-- The compliance count has reached its time: the alarm is set (R281). -/
def complAlarm (c : Nat) (m : Module) : Module :=
  let x := m.chan c
  if m.active (fnChan c) && isOutput m c && !x.alarm && x.complCount != 0 && decide (m.cfg (Ent.chanComplTime c) ≤ x.complCount) then
    let m := (modChan c (fun x => { x with alarm := true }) m).bump (Ent.chanComplAlarms c)
    ioEvent (fnChan c) 0x0902 c 0 (sint 32 (m.stat (Ent.chanReading c))) (chanFlags m c)
  else m

/-- COMPLIANCE_ALARM (R281). -/
def execComplianceAlarm (c : Fin 64) (s : State) : Host.Outcome State Fault Refusal := s.runE (complAlarm c)

/-- An output channel at a sample instant of its group: readback and compliance (R275, R280, R281). -/
def outputInstant (cap : Capture) (e c : Nat) (m : Module) : Module :=
  let g := chanGrp m c
  let a := m.cfg (Ent.chanReadback c)
  let x := m.chan c
  if bankBad m c then
    let m := modChan c (fun x => { x with stage := false }) m
    if isAddr a then gatherWord a (staleWord m a g e) m else m
  else
    let v := satInt 20 (match cap.analog.find? (fun y => y.1 == c) with | some y => y.2 | none => 0)
    let m := m.setStat (Ent.chanReading c) (qWire (BitVec.ofInt 20 v))
    let st := sVALID + (if x.clamped = 1 then sOVR else if x.clamped = 2 then sUNDR else 0)
    let m := gatherWord a (mkWord st g (parityOf g e) (BitVec.ofInt 20 v)) m
    let fresh := match x.changedAt with | some t => decide (m.absCycle < t + 2400) | none => false
    if fresh || !x.stage then m
    else
      let d := v - x.drive.toInt
      let short := decide (m.cfgQ (Ent.chanComplBand c) < max d (-d))
      if short then complAlarm c (modChan c (fun x => { x with compl := true, complCount := min 65535 (x.complCount + 1) }) m)
      else
        let m := modChan c (fun x => { x with compl := false, complCount := 0, alarm := false }) m
        if x.alarm then ioEvent (fnChan c) 0x0903 c 0 v m else m

/-- The channels of the sampling groups at a sample instant. -/
def chanInstant (cap : Capture) (e : Nat) (m : Module) : Module :=
  forL ((upChans m).filter fun c => samples (chanGrp m c) e) (fun c m =>
    let m := if isInput m c then inputInstant cap e c m else if isOutput m c then outputInstant cap e c m else m
    chanFlags (m.setStat (Ent.chanComplConsec c) (m.chan c).complCount) c) m

/-- The value of a fail action (R279): none holds the last value. -/
def failValue (m : Module) (c : Nat) : Option Int :=
  match m.cfg (Ent.chanFailMode c) with
  | 0 => none | 1 => some 73728 | 2 => some 430080 | _ => some (m.cfgQ (Ent.chanFailValue c))

/-- An output channel at a strobe of its group (R275, R279, R282, R285). -/
def chanStrobe (e c : Nat) (m : Module) : Module :=
  let x := m.chan c
  let w := m.strobeWord (m.cfg (Ent.chanWord c) % 2 ^ 18)
  let good := x.written && isAddr (m.cfg (Ent.chanWord c)) && (wValid w || wSubst w)
  let v := if good then some (chanChar m c e (wInt w)).1 else failValue m c
  let r := match v with | some v => clampFlag (rangeEnds (chanMode m c) 0) v | none => (x.drive.toInt, false, false)
  let d := r.1 - x.drive.toInt
  let moved := decide (m.cfgQ (Ent.chanComplBand c) < max d (-d))
  let paired := bit (m.cfg (Ent.chanOptions c)) 2
  let now := m.absCycle
  chanFlags (modChan c (fun x => { x with
    drive := BitVec.ofInt 20 r.1, failAct := !good, stage := !bankBad m c && (!paired || m.holder) && m.power.outputs,
    clamped := if r.2.1 then 1 else if r.2.2 then 2 else 0, changedAt := if moved then some now else x.changedAt }) m) c

/-- The output channels of a group at its strobe. -/
def chansStrobe (g e : Nat) (m : Module) : Module :=
  forL ((upChans m).filter fun c => isOutput m c && chanGrp m c == g) (chanStrobe e) m

/-- COMPL of the onboard channels that an output word drives (R280). -/
def chanCompl (m : Module) (a : Nat) : Bool := (upChans m).any fun c => isOutput m c && m.cfg (Ent.chanWord c) == a && (m.chan c).compl

/-! ### START and STOP of a channel -/

/-- A channel's shadow is refused at START, apart from words that are not free (R272, R275, R279, R285). -/
def chanBad (m : Module) (c : Nat) : Bool :=
  let mode := m.shad (Ent.chanMode c)
  let out := range 5 6 mode
  (range 3 4 mode && decide (m.shad (Ent.chanGroup c) < 6)) || (out && decide (2 ≤ m.shad (Ent.chanChar c))) ||
    (mode == 5 && range 1 2 (m.shad (Ent.chanFailMode c))) || (mode == 3 && bit (m.shad (Ent.chanOptions c)) 2)

/-- A channel's START takes effect: the fail action applies from here (R279). -/
def chanStart (c : Nat) (m : Module) : Module :=
  let m := modChan c (fun x => { Chan.init with drive := x.drive }) m
  let m := (m.setStat (Ent.chanComplAlarms c) 0).setStat (Ent.chanComplConsec c) 0
  if isOutput m c then
    chanFlags (modChan c (fun x => { x with failAct := true, drive := match failValue m c with | some v => BitVec.ofInt 20 v | none => x.drive }) m) c
  else chanFlags m c

/-- A channel's stop completes (R282). -/
def chanStop (c : Nat) (m : Module) : Module :=
  let e := m.tick.epoch.getD 0
  let a := m.cfg (Ent.chanWord c)
  let m := if isInput m c && isAddr a then gatherWord a (staleWord m a (chanGrp m c) e) m else m
  chanFlags (modChan c (fun x => { Chan.init with drive := x.drive }) m) c

/-! ### Banks (R283) -/

/-- A bank fault begins: it shows from the next sample instant. -/
def bankFaultSet (b cause : Nat) (m : Module) : Module :=
  if cause = 0 ∨ Sparse.get (fun _ => 0) m.io.bankFault b ≠ 0 then m
  else
    let m := { m with io := { m.io with bankFault := Sparse.set (fun _ => 0) m.io.bankFault b cause, bankNote := m.io.bankNote ++ [(b, cause)] } }
    (m.setStat (Ent.bankFault b) cause).bump (Ent.bankFaults b)

/-- BANK_FAULT (R283): causes 1 supply low, 2 converter, 3 barrier data (Table 9.13). -/
def execBankFault (b : Fin 8) (cause : Fin 4) (s : State) : Host.Outcome State Fault Refusal := s.run (bankFaultSet b cause)

/-- A bank recovers. -/
def bankFaultClear (b : Nat) (m : Module) : Module :=
  if Sparse.get (fun _ => 0) m.io.bankFault b = 0 then m
  else
    let m := { m with io := { m.io with bankFault := Sparse.set (fun _ => 0) m.io.bankFault b 0, bankNote := m.io.bankNote ++ [(b, 0)] } }
    m.setStat (Ent.bankFault b) 0

/-- BANK_RECOVERED (R283). -/
def execBankRecovered (b : Fin 8) (s : State) : Host.Outcome State Fault Refusal := s.run (bankFaultClear b)

/-- At a sample instant: bank events are recorded, and the terminal sensors read. -/
def bankInstant (cap : Capture) (m : Module) : Module :=
  let m := forL m.io.bankNote (fun y m => ioEvent (0x550 + y.1) 0x0904 y.1 y.2 0 m) { m with io := { m.io with bankNote := [] } }
  forL cap.cjc (fun y m => if y.1 < 8 then m.setStat (Ent.bankCjcTemp y.1) (qWire (satQ y.2)) else m) m

/-! ### Discrete inputs (R288, R289) -/

/-- Set or clear a bit of a number. -/
def setBit (v i : Nat) (b : Bool) : Nat := if b then Nat.lor v (2 ^ i) else v - (if bit v i then 2 ^ i else 0)

/-- An input has read its new level filter + 1 times: the accepted state changes. -/
def diAccept (i : Nat) (m : Module) : Module :=
  let n := Sparse.get (fun _ => 0) m.io.diCount i
  if !m.active fnDi || n == 0 || decide (n < m.cfg (Ent.diFilter i) + 1) then m
  else
    let v := !bit m.io.diState i
    let t := T80.ofNs (Sparse.get (fun _ => 0) m.io.diSince i)
    let st := setBit m.io.diState i v
    let m := { m with io := { m.io with diState := st, diCount := Sparse.set (fun _ => 0) m.io.diCount i 0 } }
    let m := m.setStat Ent.diState st
    if bit (m.cfg Ent.diEventMask) i then raiseAt t fnDi 0x0905 0 (ioBody i (b01 v) 0) (m.bump Ent.diEvents) else m

/-- DI_CHANGE (R288). -/
def execDiChange (i : Fin 32) (s : State) : Host.Outcome State Fault Refusal := s.runE (diAccept i)

/-- One input is read. The time at which its comparator took the new level is not captured: it is a free time in the period before the first instant that reads it. -/
def diRead (level : Bool) (i : Nat) (m : Module) : Module :=
  if level == bit m.io.diState i then { m with io := { m.io with diCount := Sparse.set (fun _ => 0) m.io.diCount i 0 } }
  else
    let n := Sparse.get (fun _ => 0) m.io.diCount i
    let r := takeFree m
    let back := (r.1 % (divisor (m.cfg Ent.diGroup % 8) * 4000)) * 5
    let m := if n = 0 then { r.2 with io := { r.2.io with diSince := Sparse.set (fun _ => 0) r.2.io.diSince i (r.2.tick.instantT.toNs - back) } } else m
    diAccept i { m with io := { m.io with diCount := Sparse.set (fun _ => 0) m.io.diCount i (n + 1) } }

/-- The discrete inputs at a sample instant. -/
def diInstant (cap : Capture) (e : Nat) (m : Module) : Module :=
  let g := m.cfg Ent.diGroup % 8
  if !m.active fnDi || !samples g e then m
  else
    let m := forN 32 (fun i m => diRead (bit cap.di i) i m) m
    let m := ({ m with io := { m.io with diRaw := cap.di % 2 ^ 32 } }).setStat Ent.diRaw (cap.di % 2 ^ 32)
    let w := fun (v : Nat) => mkWord sVALID g (parityOf g e) (BitVec.ofNat 20 v)
    gatherWord (m.cfg Ent.diWordB) (w (m.io.diState / 65536)) (gatherWord (m.cfg Ent.diWordA) (w (m.io.diState % 65536)) m)

/-- The discrete inputs' START takes effect: every input starts from state 0. -/
def diStart (m : Module) : Module :=
  let m := { m with io := { m.io with diState := 0, diRaw := 0, diCount := [], diSince := [] } }
  ((m.setStat Ent.diState 0).setStat Ent.diRaw 0).setStat Ent.diEvents 0

/-! ### Discrete outputs (R291, R292) -/

/-- A point faults (R292): 1 overcurrent, 2 thermal, 3 L+ absent, 4 mismatch. The first two switch it off. -/
def doFaultSet (i cause : Nat) (m : Module) : Module :=
  if cause = 0 ∨ !m.active fnDo ∨ Sparse.get (fun _ => 0) m.io.doCause i = cause then m
  else
    let m := { m with io := { m.io with doCause := Sparse.set (fun _ => 0) m.io.doCause i cause, doOff := if cause ≤ 2 then setBit m.io.doOff i true else m.io.doOff } }
    let m := (m.setStat Ent.doFault (setBit (m.stat Ent.doFault) i true)).bump Ent.doFaults
    ioEvent fnDo 0x0906 i cause 0 m

/-- DO_FAULT (R292). -/
def execDoFault (i : Fin 32) (cause : Fin 5) (s : State) : Host.Outcome State Fault Refusal := s.runE (doFaultSet i cause)

/-- A faulted point is cleared and follows its command again. -/
def doPointClear (i : Nat) (m : Module) : Module :=
  let m := { m with io := { m.io with doCause := Sparse.set (fun _ => 0) m.io.doCause i 0, doOff := setBit m.io.doOff i false } }
  m.setStat Ent.doFault (setBit (m.stat Ent.doFault) i false)

/-- DO_RETRY (R292): a point switched off by a fault returns to its commanded state, where `do.retry` is not 0. -/
def execDoRetry (i : Fin 32) (s : State) : Host.Outcome State Fault Refusal :=
  s.run (fun m => if bit m.io.doOff i && m.cfg Ent.doRetry != 0 then doPointClear i m else m)

/-- A write of `do.fault_clear` takes effect. -/
def doFaultsClear (mask : Nat) (m : Module) : Module := forN 32 (fun i m => if bit mask i && bit (m.stat Ent.doFault) i then doPointClear i m else m) m

/-- The terminals are read back at every sample instant (R292). -/
def doInstant (cap : Capture) (m : Module) : Module :=
  let m := (m.setStat Ent.doReadback (cap.doTerm % 2 ^ 32)).setStat Ent.doSupply (cap.lplus % 16)
  if !m.active fnDo then m
  else
    let now := m.absCycle
    let hold := m.holder
    let m := forN 32 (fun i m =>
      let want := bit m.io.doLatch i && !bit m.io.doOff i && (hold || !bit (m.cfg Ent.doPaired) i)
      let settled := decide (Sparse.get (fun _ => 0) m.io.doChanged i + 20000 ≤ now)
      let bad := settled && bit cap.lplus (i / 8) && (bit cap.doTerm i != want)
      let m := if bad && bit m.io.doMism i then doFaultSet i 4 m else m
      { m with io := { m.io with doMism := setBit m.io.doMism i bad } }) m
    forN 32 (fun i m => if bit cap.lplus (i / 8) then m else doFaultSet i 3 m) m

/-- What a word says of a point: its state, or its fail state (R291). -/
def pointState (m : Module) (w : Word) (on : Bool) (i : Nat) : Bool :=
  if wValid w || wSubst w then on else bit (m.cfg Ent.doFailState) i && bit m.io.doLatch i

/-- The discrete outputs at a strobe of their group. -/
def doStrobe (g : Nat) (m : Module) : Module :=
  if !m.active fnDo || m.cfg Ent.doGroup % 8 != g || !isAddr (m.cfg Ent.doWordBase) then m
  else
    let base := m.cfg Ent.doWordBase
    let now := m.absCycle
    let st := fun (i : Nat) =>
      if m.cfg Ent.doWordMode = 0 then let w := m.strobeWord ((base + i / 16) % 2 ^ 18); pointState m w (bit (wValue w).toNat (i % 16)) i
      else let w := m.strobeWord ((base + i) % 2 ^ 18); pointState m w (wValue w != 0) i
    let latch := (List.range 32).foldl (fun acc i => acc + (if st i then 2 ^ i else 0)) 0
    let ch := (List.range 32).foldl (fun acc i => if bit latch i != bit m.io.doLatch i then Sparse.set (fun _ => 0) acc i now else acc) m.io.doChanged
    ({ m with io := { m.io with doLatch := latch, doChanged := ch } }).setStat Ent.doCommanded latch

/-- The discrete outputs' START takes effect. -/
def doStart (m : Module) : Module :=
  let m := { m with io := { m.io with doOff := 0, doMism := 0, doCause := [], doChanged := [] } }
  (m.setStat Ent.doFault 0).setStat Ent.doFaults 0

/-- The discrete outputs' stop completes: every point off. -/
def doStop (m : Module) : Module := ({ m with io := { m.io with doLatch := 0 } }).setStat Ent.doCommanded 0

end Sys2Proof.Machine
end

