-- ==== Sys2Proof/Machine/FieldBus.lean ====
section
/-! DEFINITION. Field-bus ports (chapter 10): transmit objects, receiving, windows, the fallback queue, fault confinement, stations, sleep and wake. -/

namespace Sys2Proof.Machine

def Module.port (m : Module) (p : Nat) : Port := Sparse.get (fun _ => Port.init) m.ports p
def modPort (p : Nat) (f : Port → Port) (m : Module) : Module := { m with ports := Sparse.mod (fun _ => Port.init) m.ports p f }
def Port.obj (x : Port) (o : Nat) : TxObj := Sparse.get (fun _ => TxObj.init) x.objs o
def Port.station (x : Port) (s : Nat) : Station := Sparse.get (fun _ => Station.init) x.stations s
def setStation (p s : Nat) (y : Station) (m : Module) : Module :=
  modPort p (fun x => { x with stations := Sparse.set (fun _ => Station.init) x.stations s y }) m

def portUp (m : Module) (p : Nat) : Bool := m.active (fnPort p)
def upPorts (m : Module) : List Nat := (List.range 8).filter (portUp m)

/-- The payload of a field-bus event (R338). -/
def portEvent (p code which detail : Nat) (m : Module) : Module :=
  let x := m.port p
  raise (fnPort p) code (leBytes 1 p ++ leBytes 1 which ++ leBytes 1 detail ++ leBytes 1 (min 255 x.tec) ++ leBytes 1 x.recv) m

/-- Publish a port's state (Table 10.9). -/
def portStats (p : Nat) (m : Module) : Module :=
  let x := m.port p
  let m := ((m.setStat (Ent.fbBusState p) x.bus).setStat (Ent.fbTec p) x.tec).setStat (Ent.fbRec p) (min 255 x.recv)
  let m := (m.setStat (Ent.fbBasicCycle p) (x.basic.getD 0xFF)).setStat (Ent.fbQueueUsed p) x.queue.length
  m.peak (Ent.fbQueuePeak p) x.queue.length

/-- Store an object and publish its status (R312). -/
def setObj (p o : Nat) (y : TxObj) (m : Module) : Module :=
  (modPort p (fun x => { x with objs := Sparse.set (fun _ => TxObj.init) x.objs o y }) m).setStat (Ent.fbObjStatus p o)
    (if y.cur.isSome || y.next.isSome then 1 else y.status)

/-- Publish a station (Table 10.12). -/
def stationStats (p s : Nat) (m : Module) : Module :=
  let y := (m.port p).station s
  ((m.setStat (Ent.fbstState p s) y.st).setStat (Ent.fbstMisses p s) y.misses).setStat (Ent.fbstGood p s) y.good

/-! ### Outcomes of frames (R311, R312) -/

/-- The station of a STATION object. -/
def objSt (m : Module) (p o : Nat) : Option Nat :=
  let v := m.cfg (Ent.fbObj p o)
  if objKind v = 2 then some (objStation v) else none

/-- A STATION frame that is not sent is a lost output of its station. -/
def lostOutput (p o : Nat) (m : Module) : Module :=
  match objSt m p o with
  | some s => m.bump (Ent.fbstLostOutputs p s)
  | none => m

/-- An unstarted frame of an object is EXPIRED: counted, and for a STATION frame a lost output with event 0A06h. -/
def noteExpired (p o : Nat) (m : Module) : Module :=
  let m := lostOutput p o (m.bump (Ent.fbExpired p))
  if (objSt m p o).isSome then portEvent p 0x0A06 o 0 m else m

/-- A frame becomes pending in an object (R311). -/
def pendFrame (p o : Nat) (f : PendFrame) (m : Module) : Module :=
  let y := (m.port p).obj o
  match y.cur with
  | none => setObj p o { y with cur := some f } m
  | some c =>
    if c.started then
      let m := if y.next.isSome then lostOutput p o m else m
      setObj p o { y with next := some f, status := if y.next.isSome then 3 else y.status } m
    else lostOutput p o (setObj p o { y with cur := some f, status := 3 } m)

/-- An object's unstarted frames go, with an outcome; the frame on the wire stays. -/
def dropPending (p o outcome : Nat) (note : Module → Module) (m : Module) : Module :=
  let y := (m.port p).obj o
  let m := match y.next with | some _ => note (setObj p o { y with next := none, status := outcome } m) | none => m
  let y := (m.port p).obj o
  match y.cur with
  | some c => if c.started then m else note (setObj p o { y with cur := none, status := outcome } m)
  | none => m

/-- Objects that hold a frame. -/
def heldObjs (x : Port) : List Nat := x.objs.filterMap fun e => if e.2.cur.isSome || e.2.next.isSome then some e.1 else none

/-- Every pending frame and the queue are DISCARDED (R331, R336). -/
def discardAll (p : Nat) (m : Module) : Module :=
  let m := forL (heldObjs (m.port p)) (fun o m => dropPending p o 7 (lostOutput p o) m) m
  modPort p (fun x => { x with queue := x.queue.filter (fun f => f.started), sends := [] }) m

/-- A deadline has passed at the sample instant of epoch `e` (R311). -/
def pastDeadline (e : Nat) (f : PendFrame) : Bool := !f.started && decide (f.tick + f.deadline ≤ e)

/-- Unstarted frames whose deadline has passed are EXPIRED. -/
def expireFrames (p e : Nat) (m : Module) : Module :=
  let m := forL (heldObjs (m.port p)) (fun o m =>
    let y := (m.port p).obj o
    let m := match y.next with
      | some f => if pastDeadline e f then noteExpired p o (setObj p o { y with next := none, status := 4 } m) else m
      | none => m
    let y := (m.port p).obj o
    match y.cur with
    | some f => if pastDeadline e f then noteExpired p o (setObj p o { y with cur := y.next, next := none, status := 4 } m) else m
    | none => m) m
  let gone := ((m.port p).queue.filter (pastDeadline e)).length
  (modPort p (fun x => { x with queue := x.queue.filter (fun f => !pastDeadline e f) }) m).bumpBy (Ent.fbExpired p) gone

/-! ### What may start (R317, R319, R320, R321) -/

/-- The start of the next window that is EXCLUSIVE or ARBITRATING with a non-empty cell, as a core cycle from epoch 0. -/
def nextBusy (m : Module) (p : Nat) (bs : List Byte) : Option Nat :=
  let e := m.tick.epoch.getD 0
  let k0 := e / mxB bs + (if (m.port p).basic.isSome then 0 else 1)
  let starts := (List.range (mxC bs + 1)).flatMap fun j => (List.range (mxW bs)).filterMap fun w =>
    let t := (k0 + j) * mxB bs * 4000 + mxStart bs w
    if decide (mxKind bs w ≤ 1) && mxCell bs ((k0 + j) % mxC bs) w != 0 && decide (m.absCycle ≤ t) then some t else none
  starts.foldl (fun acc t => match acc with | some u => some (min t u) | none => some t) none

/-- The open window, with its cell and end. -/
def openWindow (m : Module) (p : Nat) (bs : List Byte) : Option (Nat × Nat × Nat) :=
  match (m.port p).window, (m.port p).basic with
  | some w, some r =>
    let base := (m.tick.epoch.getD 0) / mxB bs * mxB bs * 4000
    some (mxKind bs w, mxCell bs r w, base + mxStart bs w + mxLen bs w)
  | _, _ => none

/-- The queue's frame that is offered: the head, or the one first in key order (R321). -/
def queueOffer (m : Module) (p : Nat) : Option PendFrame :=
  let q := (m.port p).queue
  if m.cfg (Ent.fbFallbackOrder p) = 0 then q.head?
  else q.foldl (fun acc f => match acc with | some g => if arbKey f.msg.idw < arbKey g.msg.idw then some f else some g | none => some f) none

/-- Something a port can put on the wire: its key, its frame, and the object, or none for the queue. -/
abbrev Offer := Nat × PendFrame × Option Nat

/-- The pending frame of an object, as an offer. -/
def objOffer (m : Module) (p o : Nat) : Option Offer :=
  match ((m.port p).obj o).cur with
  | some f => some (arbKey f.msg.idw, f, some o)
  | none => none

/-- The offer with the lowest key; the first among equals. -/
def lowest (l : List Offer) : Option Offer :=
  l.foldl (fun (acc : Option Offer) (x : Offer) => match acc with | some y => if x.1 < y.1 then some x else some y | none => some x) none

/-- The frame a port would start now, with the cycle before which it must end; none bounds nothing. -/
def candidate (m : Module) (p : Nat) : Option Offer × Option Nat :=
  let bs := m.cfgB (Ent.fbMatrix p)
  let free : Option Offer × Option Nat :=
    let q : List Offer := match queueOffer m p with | some f => [(arbKey f.msg.idw, f, none)] | none => []
    let host := (heldObjs (m.port p)).filter fun o => objKind (m.cfg (Ent.fbObj p o)) == 3 && !namesObj bs o
    (lowest (host.filterMap (objOffer m p) ++ q), if bs.isEmpty then none else nextBusy m p bs)
  match openWindow m p bs with
  | none => free
  | some (kind, cell, stop) =>
    match kind, cellKind cell with
    | 0, 1 => (objOffer m p (bits cell 6 0), some stop)
    | 0, 2 => (none, none)
    | 1, 3 =>
      let os := (heldObjs (m.port p)).filter fun o => objClass (m.cfg (Ent.fbObj p o)) == bits cell 3 0 && range 2 3 (objKind (m.cfg (Ent.fbObj p o)))
      match lowest (os.filterMap (objOffer m p)) with
      | some x => (some x, some stop)
      | none => (if bit cell 8 then (queueOffer m p).map fun f => (arbKey f.msg.idw, f, none) else none, some stop)
    | _, _ => free

/-- The port may start a frame: on the bus, holder, no CLOCK_FAULT (R456), not in mode 2, RUNNING, no sleep asked for, nothing on the wire. -/
def mayStart (m : Module) (p : Nat) : Bool :=
  let x := m.port p
  m.running (fnPort p) && range 2 3 x.bus && m.cfg (Ent.fbMode p) != 2 && m.holder && !m.cfault && !x.sleepReq && !x.busy && x.wire == .none

/-- Mark the first frame of the queue that equals another as started, or not. -/
def markQueue (msg : CanMsg) (on : Bool) (q : List PendFrame) : List PendFrame :=
  mapFirst (fun f => f.msg == msg && f.started == !on) (fun f => { f with started := on }) q

/-- At an opportunity the port starts the frame that is due, if its bound fits (R317, R319, R320). -/
def offer (p : Nat) (m : Module) : Module :=
  if !mayStart m p then m
  else match candidate m p with
    | (none, _) => m
    | (some x, stop) =>
      let bound := frameBound m.cfg p x.2.1.msg.idw x.2.1.msg.data.length
      let room := match stop with | some t => decide (m.absCycle ≤ t) && fits bound (t - m.absCycle) | none => true
      if !room then m
      else
        let m := modPort p (fun y => { y with sof := m.absCycle }) m
        match x.2.2 with
        | some o =>
          let y := (m.port p).obj o
          setObj p o { y with cur := some { x.2.1 with started := true } } (modPort p (fun z => { z with wire := .obj o }) m)
        | none => modPort p (fun z => { z with wire := .queued x.2.1.msg, queue := markQueue x.2.1.msg true z.queue }) m

/-- The frame on the wire. -/
def onWire (m : Module) (p : Nat) : Option PendFrame :=
  match (m.port p).wire with
  | .none => none
  | .obj o => ((m.port p).obj o).cur
  | .queued msg => (m.port p).queue.find? fun f => f.msg == msg && f.started

/-- The frame on the wire leaves it with an outcome (Table 10.3); the one behind it takes its place. -/
def endWire (p outcome : Nat) (m : Module) : Module :=
  match (m.port p).wire with
  | .none => m
  | .obj o =>
    let y := (m.port p).obj o
    setObj p o { y with cur := y.next, next := none, status := outcome } (modPort p (fun z => { z with wire := .none }) m)
  | .queued msg =>
    let drop := fun (q : List PendFrame) => match q.find? (fun f => f.msg == msg && f.started) with | some f => q.erase f | none => q
    modPort p (fun z => { z with wire := .none, queue := drop z.queue }) m

/-- The frame on the wire was not sent and waits again. -/
def releaseWire (p : Nat) (m : Module) : Module :=
  match (m.port p).wire with
  | .none => m
  | .obj o =>
    let y := (m.port p).obj o
    setObj p o { y with cur := y.cur.map fun f => { f with started := false } } (modPort p (fun z => { z with wire := .none }) m)
  | .queued msg => modPort p (fun z => { z with wire := .none, queue := markQueue msg false z.queue }) m

/-- CANCEL_LATE of the frame on the wire: counted, with event 0A0Ah (R324). -/
def cancelLate (p : Nat) (m : Module) : Module :=
  let o := match (m.port p).wire with | .obj o => o | _ => 0xFF
  portEvent p 0x0A0A o o ((endWire p 6 m).bump (Ent.fbCancelLate p))

/-- The frame on the wire lost arbitration or met an error: it is cancelled, ends CANCEL_LATE, or waits again (R317, R324). -/
def wireFailed (p : Nat) (m : Module) : Module :=
  match onWire m p with
  | none => m
  | some f => if f.cancelLate then cancelLate p m else if f.cancelArb then endWire p 5 m else releaseWire p m

/-! ### Sent and received -/

/-- ISO 11898-1: a good transmission lowers TEC by one; error passive ends when both counts allow it. -/
def faultState (p : Nat) (m : Module) : Module :=
  let x := m.port p
  if !m.holder then m
  else if x.bus == 2 && (decide (128 ≤ x.tec) || decide (128 ≤ x.recv)) then
    portEvent p 0x0A01 0xFF 0 (modPort p (fun x => { x with bus := 3 }) m)
  else if x.bus == 3 && decide (x.tec < 128) && decide (x.recv < 128) then modPort p (fun x => { x with bus := 2 }) m
  else m

/-- The port's own frame has completed; `age` is the time since its start of frame, in ns. -/
def frameSent (p age : Nat) (m : Module) : Module :=
  match onWire m p with
  | none => m
  | some f =>
    let stamp := t80Wire (T80.ofNs (m.nowNs - age))
    let m := match (m.port p).wire with
      | .obj o => (match objSt m p o with | some s => m.setStat (Ent.fbstLastTx p s) stamp | none => m)
      | _ => m
    let m := (emit (.can p f.msg) m).bump (Ent.fbTxFrames p)
    let m := if f.cancelLate then cancelLate p m else endWire p 2 m
    portStats p (offer p (faultState p (modPort p (fun x => { x with tec := x.tec - 1, busy := false }) m)))

def execCanFrameSent (p : Fin 8) (age : Nat) (s : State) : Host.Outcome State Fault Refusal := s.runE (frameSent p age)

/-- The station whose input frame this is (R313). -/
def stationOf (m : Module) (p idw : Nat) : Option Nat :=
  (List.range 32).find? fun s => hasInput m.cfg p s && sameId idw (m.cfg (Ent.fbstInId p s)) && idFd idw == idFd (m.cfg (Ent.fbstInId p s))

/-- The filter that takes a frame (R313). -/
def filterOf (m : Module) (p idw : Nat) : Option Nat :=
  (List.range 256).find? fun f =>
    let v := m.cfg (Ent.fbFilter p f)
    bit v 63 && bit v 58 == idExt idw && Nat.land (Nat.xor (idOf idw) (bits v 28 0)) (bits v 57 29) == 0

/-- A frame record of the receive buffer (R314). -/
def rxRecord (t : T80) (c : CanMsg) (esi : Bool) (f : Nat) : List Byte :=
  leBytes 10 (t80Wire t) ++ leBytes 4 c.idw ++ leBytes 1 c.data.length ++ leBytes 1 (b01 esi) ++ leBytes 2 f ++ padTo 64 c.data ++ List.replicate 14 0

/-- A frame goes to the receive buffer (R314). -/
def toBuffer (p : Nat) (r : List Byte) (m : Module) : Module :=
  let x := m.port p
  if x.rx.length < 512 then modPort p (fun x => { x with rx := x.rx ++ [r], rxDropping := false }) m
  else
    let m := (modPort p (fun x => { x with rxDropping := true }) m).bump (Ent.fbRxOverflow p)
    if x.rxDropping then m else portEvent p 0x0A09 0xFF 0 m

/-- A received frame is routed (R313, R333). -/
def routeFrame (p : Nat) (c : CanMsg) (remote esi : Bool) (t : T80) (m : Module) : Module :=
  match stationOf m p c.idw with
  | some s =>
    if !m.holder then m
    else if c.data.length < m.cfg (Ent.fbstInLen p s) then m.bump (Ent.fbstLengthErrors p s)
    else (setStation p s { (m.port p).station s with data := c.data, fresh := true, inWindow := true } m).setStat (Ent.fbstLastRx p s) (t80Wire t)
  | none =>
    if remote then m.bump (Ent.fbRxRemote p)
    else match filterOf m p c.idw with
      | some f => if bit (m.cfg (Ent.fbFilter p f)) 59 then m else toBuffer p (rxRecord t c esi f) m
      | none => m.bump (Ent.fbRxUnmatched p)

/-- ISO 11898-1: a good reception lowers REC by one; from above 127 it is set to a value of 119 to 127, which the standard leaves open. -/
def lowerRec (p : Nat) (m : Module) : Module :=
  let x := m.port p
  if x.bus == 7 || !m.holder then m
  else if 127 < x.recv then
    let (v, m) := takeFree m
    modPort p (fun x => { x with recv := 119 + v % 9 }) m
  else modPort p (fun x => { x with recv := x.recv - 1 }) m

/-- A frame of another node is received; `age` is the time since its start of frame, in ns (R308, R313). -/
def frameReceived (p : Nat) (c : CanMsg) (remote esi : Bool) (age : Nat) (m : Module) : Module :=
  let x := m.port p
  if !(range 2 3 x.bus || x.bus == 7) then m
  else
    let m := wireFailed p m
    let m := routeFrame p c remote esi (T80.ofNs (m.nowNs - age)) (m.bump (Ent.fbRxFrames p))
    portStats p (offer p (faultState p (modPort p (fun x => { x with busy := false }) (lowerRec p m))))

def execCanFrameReceived (p : Fin 8) (c : CanMsg) (remote esi : Bool) (age : Nat) (s : State) : Host.Outcome State Fault Refusal :=
  s.runE (frameReceived p c remote esi age)

/-! ### Errors and bus-off (R325, R326) -/

/-- Bus-off: the frame on the wire ends, pending frames stay, and recovery starts at once or on command. -/
def busOff (p : Nat) (m : Module) : Module :=
  let m := wireFailed p m
  let m := portEvent p 0x0A02 0xFF 0 (m.bump (Ent.fbBusoffs p))
  modPort p (fun x => { x with bus := if m.cfg (Ent.fbRecovery p) = 0 then 5 else 4, busy := false }) m

/-- A CAN error, by the fault confinement of ISO 11898-1; a port that monitors only counts it (R333). -/
def canError (p : Nat) (e : CanErr) (m : Module) : Module :=
  let x := m.port p
  if x.bus == 7 || (range 2 3 x.bus && !m.holder) then (match e with | .lostArbitration => m | _ => m.bump (Ent.fbErrorFrames p))
  else if !range 2 3 x.bus then m
  else
    let m := match e with
      | .lostArbitration => modPort p (fun x => { x with busy := true }) (wireFailed p m)
      | .transmit => modPort p (fun x => { x with tec := x.tec + 8, busy := false }) ((wireFailed p m).bump (Ent.fbErrorFrames p))
      | .ackPassive => modPort p (fun x => { x with busy := false }) ((wireFailed p m).bump (Ent.fbErrorFrames p))
      | .receive => modPort p (fun x => { x with recv := min 255 (x.recv + 1), busy := false }) (m.bump (Ent.fbErrorFrames p))
      | .receiveDominant => modPort p (fun x => { x with recv := min 255 (x.recv + 8), busy := false }) (m.bump (Ent.fbErrorFrames p))
    let m := faultState p m
    portStats p (if 256 ≤ (m.port p).tec then busOff p m else offer p m)

def execCanError (p : Fin 8) (e : CanErr) (s : State) : Host.Outcome State Fault Refusal := s.runE (canError p e)

/-- Sleep is asked for: pending frames and the queue are DISCARDED, and nothing starts (R331). -/
def sleepBegin (p : Nat) (m : Module) : Module := portStats p (discardAll p (modPort p (fun x => { x with sleepReq := true }) m))

/-- Recovery from bus-off ends: ERROR_ACTIVE, counts 0, 0A03h; frames past their deadline are retired (R326). -/
def busRecovered (p : Nat) (m : Module) : Module :=
  let x := m.port p
  if x.bus != 5 || !m.holder then m
  else
    let m := modPort p (fun x => { x with bus := 2, tec := 0, recv := 0, sleepAfter := false }) m
    let m := expireFrames p (m.tick.epoch.getD 0) (portEvent p 0x0A03 0xFF 0 m)
    if x.sleepAfter then sleepBegin p m else portStats p (offer p m)

def execBusOffRecovered (p : Fin 8) (s : State) : Host.Outcome State Fault Refusal := s.runE (busRecovered p)

/-- A write of `fb[p].recover` takes effect (R326). -/
def fbRecover (p : Nat) (m : Module) : Module :=
  if (m.port p).bus == 4 then portStats p (modPort p (fun x => { x with bus := 5 }) m) else m

/-! ### Stations (R318, R327, R330) -/

/-- `timeout` consecutive misses make a station LOST; its unstarted frames are DISCARDED (R327, R330). -/
def stationLost (p s : Nat) (m : Module) : Module :=
  let y := (m.port p).station s
  if y.st = 2 ∨ y.misses < m.cfg (Ent.fbstTimeout p s) then m
  else
    let m := (setStation p s { y with st := 2 } m).bump (Ent.fbstDrops p s)
    let m := match outObject m.cfg p s with | some o => dropPending p o 7 (lostOutput p o) m | none => m
    stationStats p s (portEvent p 0x0A04 s 0 m)

/-- `rejoin` consecutive checks without a miss make a station ONLINE (R327). -/
def stationOnline (p s : Nat) (m : Module) : Module :=
  let y := (m.port p).station s
  if y.st = 1 ∨ y.good < m.cfg (Ent.fbstRejoin p s) then m
  else stationStats p s (portEvent p 0x0A05 s 0 (setStation p s { y with st := 1 } m))

def execStationLost (p : Fin 8) (i : Fin 32) (s : State) : Host.Outcome State Fault Refusal :=
  s.runE (fun m => if portUp m p then stationLost p i m else m)
def execStationOnline (p : Fin 8) (i : Fin 32) (s : State) : Host.Outcome State Fault Refusal :=
  s.runE (fun m => if portUp m p then stationOnline p i m else m)

/-- One check of a station: a miss where no input frame has come (R318). -/
def stationCheck (p s : Nat) (m : Module) : Module :=
  let y := (m.port p).station s
  if y.inWindow then stationOnline p s (stationStats p s (setStation p s { y with misses := 0, good := min 255 (y.good + 1) } m))
  else stationLost p s (stationStats p s (setStation p s { y with misses := min 255 (y.misses + 1), good := 0 } m))

/-- The check after a window whose cell names the station; suspended while the port is asleep, and made by the holder alone (R318, R331, R430). -/
def windowCheck (p s : Nat) (m : Module) : Module :=
  if portUp m p && m.holder && (m.port p).bus != 6 && (m.port p).checkDue.contains s then
    stationCheck p s (modPort p (fun x => { x with checkDue := x.checkDue.filter (fun j => j != s) }) m)
  else m

def execStationWindowCheck (p : Fin 8) (i : Fin 32) (s : State) : Host.Outcome State Fault Refusal := s.runE (windowCheck p i)

/-! ### Windows (R310, R315, R317) -/

/-- The REF frame of a basic cycle (R310). -/
def refFrame (m : Module) (p r e : Nat) : PendFrame :=
  let bs := m.cfgB (Ent.fbMatrix p)
  let v := m.cfg (Ent.fbObj p 0)
  ⟨⟨objIdw v, leBytes 1 r ++ leBytes 1 (mxC bs) ++ leBytes 6 (e / mxB bs * mxB bs)⟩, e, objDeadline v, false, false, false⟩

/-- A window opens (R315, R317). -/
def windowStart (p w : Nat) (m : Module) : Module :=
  let bs := m.cfgB (Ent.fbMatrix p)
  match m.tick.epoch, (m.port p).basic with
  | some e, some r =>
    let at_ := e / mxB bs * mxB bs * 4000 + mxStart bs w
    if !(portUp m p && decide (w < mxW bs) && decide (at_ / 4000 = e) && decide (m.tick.cycle ≤ at_ % 4000)) then m
    else
      let m := modPort p (fun x => { x with window := some w }) (toCycle (at_ % 4000) m)
      let c := mxCell bs r w
      let m := if cellKind c == 2 && mxKind bs w == 0 then
          setStation p (bits c 4 0) { (m.port p).station (bits c 4 0) with inWindow := false } m else m
      let m := if w == 0 && objKind (m.cfg (Ent.fbObj p 0)) == 1 && (m.port p).bus != 6 then pendFrame p 0 (refFrame m p r e) m else m
      portStats p (offer p m)
  | _, _ => m

def execWindowStart (p : Fin 8) (w : Nat) (s : State) : Host.Outcome State Fault Refusal := s.runE (windowStart p w)

/-- The object that an EXCLUSIVE window names. -/
def windowObj (bs : List Byte) (r w : Nat) : Option Nat :=
  if mxKind bs w = 0 ∧ cellKind (mxCell bs r w) = 1 then some (bits (mxCell bs r w) 6 0) else none

/-- A window ends: an unsent frame of its object is a miss, and an unstarted REF frame is dropped (R310, R317, R318). -/
def windowEnd (p w : Nat) (m : Module) : Module :=
  let bs := m.cfgB (Ent.fbMatrix p)
  match (m.port p).window, (m.port p).basic with
  | some v, some r =>
    if v != w then m
    else
      let m := match windowObj bs r w with
        | some o =>
          let m := if (m.port p).wire == .obj o then wireFailed p m else m
          if ((m.port p).obj o).cur.isSome then
            let m := m.bump (Ent.fbWindowMisses p)
            if objKind (m.cfg (Ent.fbObj p o)) = 1 then dropPending p o 4 (fun m => m.bump (Ent.fbExpired p)) m else m
          else m
        | none => if mxKind bs w == 1 then wireFailed p m else m
      let c := mxCell bs r w
      let due := if m.holder && mxKind bs w == 0 && cellKind c == 2 then [bits c 4 0] else []
      let m := modPort p (fun x => { x with window := none, checkDue := x.checkDue ++ due }) m
      portStats p (offer p m)
  | _, _ => m

def execWindowEnd (p : Fin 8) (w : Nat) (s : State) : Host.Outcome State Fault Refusal := s.runE (windowEnd p w)

/-- At the sample instant of epoch `e`, the basic cycle that begins; run before the starts of that instant, so the matrix starts at the first basic cycle after START (R315). -/
def basicCycle (e p : Nat) (m : Module) : Module :=
  let bs := m.cfgB (Ent.fbMatrix p)
  if portUp m p && !bs.isEmpty && e % mxB bs == 0 && (m.port p).bus != 6 && (m.port p).bus != 0 then
    portStats p (modPort p (fun x => { x with basic := some (e / mxB bs % mxC bs) }) m)
  else m

/-! ### Cancel, sleep, wake -/

/-- A cancel reaches a frame on the wire (R324). -/
def cancelWire (m : Module) (p : Nat) (f : PendFrame) : PendFrame :=
  if f.cancelLate then f
  else if arbEnd m.cfg p f.msg.idw * 5 ≤ 2 * (m.absCycle - (m.port p).sof) + 15 then { f with cancelLate := true } else { f with cancelArb := true }

/-- A write of `fb[p].cancel` takes effect (R323, R324). -/
def fbCancel (p v : Nat) (m : Module) : Module :=
  let m :=
    if v < 128 then
      let m := dropPending p v 5 id m
      let y := (m.port p).obj v
      match y.cur with
      | some f => setObj p v { y with cur := some (cancelWire m p f) } m
      | none => m
    else if v = 0xFF then
      let up := fun (f : PendFrame) => cancelWire m p f
      modPort p (fun x => { x with queue := (x.queue.filter (fun f => f.started)).map up }) m
    else m
  portStats p (offer p m)

/-- The port wakes: it integrates again, and the matrix resumes at the next basic cycle (R332). -/
def portWake (p source : Nat) (m : Module) : Module :=
  let x := m.port p
  if x.bus == 6 then
    let m := (modPort p (fun x => { x with bus := 1, basic := none, window := none, sleepReq := false }) m).bump (Ent.fbWakes p)
    portStats p (portEvent p 0x0A08 0xFF source m)
  else if x.sleepReq then portStats p ((modPort p (fun x => { x with sleepReq := false }) m).bump (Ent.fbSleepsAborted p))
  else m

/-- A write of `fb[p].sleep` takes effect (R331, R332). -/
def fbSleep (p v : Nat) (m : Module) : Module :=
  let x := m.port p
  if v = 2 then portWake p 3 m
  else if v = 1 then
    (if range 4 5 x.bus then modPort p (fun x => { x with sleepAfter := true }) m
    else if range 1 3 x.bus || x.bus == 7 then sleepBegin p m else m)
  else m

/-- The transceiver has reached its low-power mode (R331). -/
def transceiverAsleep (p : Nat) (m : Module) : Module :=
  if (m.port p).sleepReq then
    let m := discardAll p (releaseWire p m)
    portStats p (portEvent p 0x0A07 0xFF 0 (modPort p (fun x => { x with bus := 6, sleepReq := false, basic := none, window := none, checkDue := [] }) m))
  else m

def execTransceiverAsleep (p : Fin 8) (s : State) : Host.Outcome State Fault Refusal := s.runE (transceiverAsleep p)

/-- The wake-up pattern is seen (R332). -/
def wakePattern (p : Nat) (m : Module) : Module := if m.cfg (Ent.fbWakeMode p) = 1 then portWake p 1 m else m
def execWakeUpPattern (p : Fin 8) (s : State) : Host.Outcome State Fault Refusal := s.runE (wakePattern p)

/-- A frame matches the wake entries (R332). -/
def wakeMatch (m : Module) (p : Nat) (c : CanMsg) : Bool :=
  let id := m.cfg (Ent.fbWakeId p)
  !idFd c.idw && idExt c.idw == idExt id && Nat.land (Nat.xor (idOf c.idw) (idOf id)) (bits (m.cfg (Ent.fbWakeIdMask p)) 28 0) == 0 &&
    c.data.length == m.cfg (Ent.fbWakeDlc p) &&
    Nat.land (Nat.xor (leAt c.data 0 8) (m.cfg (Ent.fbWakeData p))) (m.cfg (Ent.fbWakeDataMask p)) % 2 ^ (8 * c.data.length) == 0

def wakeFrame (p : Nat) (c : CanMsg) (m : Module) : Module :=
  if m.cfg (Ent.fbWakeMode p) = 2 ∧ wakeMatch m p c = true then portWake p 2 m else m
def execWakeFrame (p : Fin 8) (c : CanMsg) (s : State) : Host.Outcome State Fault Refusal := s.runE (wakeFrame p c)

/-- The port has seen 11 recessive bits: it takes part in the bus, or monitors it (R305, R333). -/
def busIntegrated (p : Nat) (m : Module) : Module :=
  if (m.port p).bus == 1 then
    let mon := m.cfg (Ent.fbMode p) == 2 || !m.holder
    portStats p (offer p (modPort p (fun x => { x with bus := if mon then 7 else 2 }) m))
  else m

def execBusIntegration (p : Fin 8) (s : State) : Host.Outcome State Fault Refusal := s.run (busIntegrated p)

/-! ### Fallback queue (R321, R322) -/

/-- The head of a FIFO queue that has waited `fallback_age` ticks is EXPIRED (R322). -/
def fallbackAge (p : Nat) (m : Module) : Module :=
  let age := m.cfg (Ent.fbFallbackAge p)
  match (m.port p).queue with
  | f :: q =>
    if portUp m p && m.cfg (Ent.fbFallbackOrder p) == 0 && age != 0 && !f.started && decide (f.tick + age ≤ m.tick.epoch.getD 0) then
      portStats p ((modPort p (fun x => { x with queue := q }) m).bump (Ent.fbExpired p))
    else m
  | [] => m

def execFallbackAgeExpiry (p : Fin 8) (s : State) : Host.Outcome State Fault Refusal := s.run (fun m => offer p (fallbackAge p m))

/-- A tick with a lower key behind the head is counted (R322). -/
def inversion (p : Nat) (m : Module) : Module :=
  match (m.port p).queue with
  | f :: q =>
    if m.cfg (Ent.fbFallbackOrder p) == 0 && !f.started && q.any (fun g => decide (arbKey g.msg.idw < arbKey f.msg.idw)) then
      m.bump (Ent.fbInversionTicks p) else m
  | [] => m

/-- The frame that a `fb[p].send` transfer carries: the message and its deadline; none where malformed (R321). -/
def sendFrame (m : Module) (p : Nat) (bs : List Byte) : Option (CanMsg × Nat) :=
  let idw := leAt bs 0 4
  let n := leAt bs 4 1
  let d := leAt bs 6 2
  if decide (8 ≤ bs.length) && bs.length == 8 + n && isDlcLen n && leAt bs 5 1 == 0 && d != 0 && idOk idw &&
      (idFd idw || decide (n ≤ 8)) && !(idFd idw && m.cfg (Ent.fbMode p) == 1) then some (⟨idw, bs.drop 8⟩, d) else none

/-- END of a `fb[p].send` transfer: the frame waits for the next sample instant (R321). -/
def fbSend (p : Nat) (bs : List Byte) (m : Module) : Nat × Module :=
  match sendFrame m p bs with
  | none => (stBadValue, m)
  | some f =>
    if 32 ≤ (m.port p).queue.length + (m.port p).sends.length then (stBusy, m)
    else (stOk, modPort p (fun x => { x with sends := x.sends ++ [f] }) m)

/-- Accepted frames join the queue at the sample instant of epoch `e`. -/
def queueSends (p e : Nat) (m : Module) : Module :=
  modPort p (fun x => { x with sends := [], queue := x.queue ++ x.sends.map (fun f => ⟨f.1, e, f.2, false, false, false⟩) }) m

/-- A READ of `fb[p].rx` with INIT takes every frame in the buffer (R314). -/
def takeRx (p : Nat) (m : Module) : List Byte × Module :=
  ((m.port p).rx.flatten, modPort p (fun x => { x with rx := [], rxDropping := false }) m)

/-! ### HOST and STATION frames (R310, R328) -/

/-- The payload of a HOST object: its data entries, cut to its length. -/
def hostPayload (m : Module) (p o : Nat) : List Byte :=
  ((List.range 8).flatMap fun k => leBytes 8 (m.cfg (Ent.fbObjData p o k))).take (objLen (m.cfg (Ent.fbObj p o)))

/-- Writes of data entries of a HOST object take effect at the sample instant of epoch `e`: its frame is pending. -/
def hostObject (p o e : Nat) (m : Module) : Module :=
  let v := m.cfg (Ent.fbObj p o)
  if portUp m p && objKind v == 3 then pendFrame p o ⟨⟨objIdw v, hostPayload m p o⟩, e, objDeadline v, false, false, false⟩ m else m

/-- Put a field into a payload. -/
def putField (v raw : Nat) (bs : List Byte) : List Byte :=
  bs.take (fmapOff v) ++ leBytes (fmapBytes v) raw ++ bs.drop (fmapOff v + fmapBytes v)

/-- The payload of a station's output frame (R328). -/
def outPayload (m : Module) (p s n : Nat) : List Byte :=
  (outMaps m.cfg p s).foldl (fun bs v => putField v (uint 24 (wInt (m.strobeWord (fmapWord v)) / 2 ^ fmapShift v)) bs) (List.replicate n 0)

/-- A station at a strobe of its group (R310, R330). -/
def stationStrobe (p s e : Nat) (m : Module) : Module :=
  match outObject m.cfg p s with
  | none => m
  | some o =>
    let v := m.cfg (Ent.fbObj p o)
    let bad := (outMaps m.cfg p s).any fun x => let w := m.strobeWord (fmapWord x); !wValid w && !wSubst w
    if objKind v != 2 || ((m.port p).station s).st == 2 then m
    else if bad then lostOutput p o (setObj p o { (m.port p).obj o with status := 7 } m)
    else pendFrame p o ⟨⟨objIdw v, outPayload m p s (objLen v)⟩, e, objDeadline v, false, false, false⟩ m

/-- The stations of a group at its strobe; the tick in which a frame becomes pending is the one the strobe falls in. -/
def portsStrobe (g : Nat) (m : Module) : Module :=
  let t := m.tick.epoch.getD 0
  forL (upPorts m) (fun p m => offer p (forL ((List.range 32).filter fun s => stGroup m.cfg p s == g) (fun s m => stationStrobe p s t m) m)) m

/-- The value of an input map entry: value, over, under (R328). -/
def mapValue (v : Nat) (data : List Byte) : Int × Bool × Bool :=
  let n := fmapBytes v
  let raw := leAt data (fmapOff v) n
  let x : Int := if fmapSigned v then sint (8 * n) raw else raw
  clampFlag (-524288, 524287) (x * 2 ^ fmapShift v)

/-- A station's input words at a sample instant of its group (R329). -/
def stationWords (p s e : Nat) (m : Module) : Module :=
  let y := (m.port p).station s
  let g := stGroup m.cfg p s
  forL (inMaps m.cfg p s) (fun v m =>
    let a := fmapWord v
    if y.fresh && !m.cfault then
      let r := mapValue v y.data
      gatherWord a (mkWord (sVALID + (if r.2.1 then sOVR else 0) + (if r.2.2 then sUNDR else 0)) g (parityOf g e) (BitVec.ofInt 20 r.1)) m
    else gatherWord a (if y.data.isEmpty then mkWord sSTALE g (parityOf g e) 0 else staleWord m a g e) m) m

/-- The stations of the sampling groups at a sample instant: the check of a station that no cell names, then its words (R318, R329). -/
def portGather (e p : Nat) (m : Module) : Module :=
  let bs := m.cfgB (Ent.fbMatrix p)
  forL ((List.range 32).filter fun s => samples (stGroup m.cfg p s) e) (fun s m =>
    let m := stationWords p s e m
    let check := hasInput m.cfg p s && !namesStation bs s && (m.port p).bus != 6
    let m := if check then stationCheck p s m else m
    let y := (m.port p).station s
    setStation p s { y with fresh := false, inWindow := if check then false else y.inWindow } m) m

/-- What a sample instant brings a port before its words: deadlines, the age of the head, inversions, and accepted frames (R311, R321, R322). -/
def portInstant (e p : Nat) (m : Module) : Module :=
  let x := m.port p
  let m := inversion p m
  let m := if range 4 5 x.bus then m else expireFrames p e m
  portStats p (offer p (queueSends p e (fallbackAge p m)))

/-! ### Token, START and STOP -/

/-- The member's ports after the token changed hands (R333): a new holder's leave monitoring, a former holder's monitor. -/
def portsToken (m : Module) : Module :=
  forL (upPorts m) (fun p m =>
    let x := m.port p
    if m.holder then (if x.bus == 7 && m.cfg (Ent.fbMode p) != 2 then portStats p (modPort p (fun x => { x with bus := 1 }) m) else m)
    else if range 2 3 x.bus then portStats p (modPort p (fun x => { x with bus := 7 }) (releaseWire p m)) else m) m

/-- START of a port takes effect: integrating, stations OFFLINE, counters from 0. -/
def portStart (p : Nat) (m : Module) : Module :=
  let m := modPort p (fun _ => { Port.init with bus := 1 }) m
  let m := forL [Ent.fbTxFrames p, Ent.fbRxFrames p, Ent.fbRxOverflow p, Ent.fbRxUnmatched p, Ent.fbRxRemote p, Ent.fbWindowMisses p, Ent.fbExpired p,
    Ent.fbCancelLate p, Ent.fbBusoffs p, Ent.fbQueuePeak p, Ent.fbInversionTicks p, Ent.fbWakes p, Ent.fbSleepsAborted p, Ent.fbErrorFrames p]
    (fun k m => m.setStat k 0) m
  let m := forN 128 (fun o m => m.setStat (Ent.fbObjStatus p o) 0) m
  portStats p (forN 32 (fun s m =>
    stationStats p s (((((m.setStat (Ent.fbstLostOutputs p s) 0).setStat (Ent.fbstDrops p s) 0).setStat (Ent.fbstLengthErrors p s) 0).setStat (Ent.fbstLastRx p s) 0).setStat (Ent.fbstLastTx p s) 0)) m)

/-- The stop of a port completes at the sample instant of epoch `e`: frames DISCARDED, input words once with STALE = 1, transceiver in standby (R336). -/
def portStop (p e : Nat) (m : Module) : Module :=
  let m := discardAll p m
  let m := forN 32 (fun s m => forL (inMaps m.cfg p s) (fun v m => putForced (fmapWord v) (staleWord m (fmapWord v) (stGroup m.cfg p s) e) m) m) m
  portStats p (modPort p (fun x => { x with bus := 0, basic := none, window := none, sleepReq := false, sleepAfter := false, checkDue := [] }) m)

/-- Record a failed check, or clear the record (R335). -/
def portCheckNote (p reason at_ : Nat) (m : Module) : Module := (m.setStat (Ent.fbCheckFailAt p) at_).setStat (Ent.fbCheckReason p) reason

/-- The check of START, apart from R18 (R335). -/
def portStartCheck (free : Nat → Bool) (p : Nat) (m : Module) : Nat × Module :=
  match portFinding m.shad (m.shadB (Ent.fbMatrix p)) free p with
  | some (r, a) => (stBadValue, portCheckNote p r a m)
  | none => (stOk, portCheckNote p 0 0xFFFF m)

end Sys2Proof.Machine
end

