-- ==== Sys2Proof/Machine/Trunk.lean ====
section
/-! DEFINITION. The sample trunk (R293 to R300, R161). -/

namespace Sys2Proof.Machine

def Module.trunk (m : Module) (l : Nat) : Trunk := Sparse.get (fun _ => Trunk.init) m.io.trunks l
def modTrunk (l : Nat) (f : Trunk → Trunk) (m : Module) : Module :=
  { m with io := { m.io with trunks := Sparse.mod (fun _ => Trunk.init) m.io.trunks l f } }

/-- `trunk[l].state`: 0 DOWN, 1 TRAINING, 2 UP. -/
def trunkUp (m : Module) (l : Nat) : Bool := m.stat (Ent.trunkState l) == 2

/-! ### The channel map (Table 9.16) -/

def mapUsed (v : Nat) : Bool := v != 0xFFFFFFFF
def mapOut (v : Nat) : Bool := bit v 31
def mapGroup (v : Nat) : Nat := bits v 23 21
def mapWord (v : Nat) : Nat := bits v 17 0
/-- A map entry that Table 9.16 allows. -/
def mapOk (v : Nat) : Bool :=
  !mapUsed v || (bits v 28 24 == 0 && bits v 20 18 == 0 && decide (bits v 30 29 ≤ 2) && (mapOut v || bits v 30 29 == 0))

/-- The live map of a link: channel and entry of each mapped channel. -/
def trunkMap (m : Module) (l : Nat) : List (Nat × Nat) :=
  ((List.range 128).map fun k => (k, m.cfg (Ent.trunkChan l k))).filter fun x => mapUsed x.2

/-- The descriptor of an input channel of a link (Table 5.2). -/
def inNumber (l k : Nat) : Nat := 1024 + 128 * l + k

/-- c(b), the landing cycle of a block (R296). -/
def landingCycle (ls dl b : Nat) : Nat := max 400 ((ls + dl + 2 * (34 + 26 * b) + 4) / 5 + 3)

def linkLanding (m : Module) (l b : Nat) : Nat := landingCycle (m.stat (Ent.trunkSatLatency l)) (m.stat (Ent.trunkDelay l)) b

/-! ### Training, loss -/

/-- Training takes the satellite's identity and delays, and the link goes UP (R293, R299). -/
def trunkTrained (l : Nat) (sat : List Byte) (latency outMin delay : Nat) (m : Module) : Module :=
  if trunkUp m l then m
  else
    let m := ((m.setStat (Ent.trunkDelay l) (delay % 2 ^ 32)).setStat (Ent.trunkSatLatency l) (latency % 2 ^ 32)).setStat (Ent.trunkSatOutMin l) (outMin % 2 ^ 32)
    let m := (m.setStatB (Ent.trunkSatId l) (sat.take 32)).setStat (Ent.trunkState l) 2
    ioEvent (fnTrunk l) 0x0909 0 0 0 (modTrunk l (fun x => { x with lost := 0, seen := true }) m)

def execTrunkTraining (l : Fin 2) (sat : List Byte) (latency outMin delay : Nat) (s : State) : Host.Outcome State Fault Refusal :=
  s.runE (trunkTrained l sat latency outMin delay)

/-- One lost frame is counted; at the limit the link goes DOWN and retrains (R299). -/
def trunkLost (l : Nat) (m : Module) : Module :=
  let n := (m.trunk l).lost + 1
  let m := (modTrunk l (fun x => { x with lost := n }) m).bump (Ent.trunkFramesLost l)
  if m.cfg (Ent.trunkLossLimit l) ≤ n then
    ioEvent (fnTrunk l) 0x0908 0 (min 255 n) 0 (((modTrunk l (fun x => { x with lost := 0 }) m).setStat (Ent.trunkState l) 0).bump (Ent.trunkDowns l))
  else m

/-- The running tick has no frame, and it is the one that reaches `loss_limit` (R299). -/
def trunkLinkDown (l : Nat) (m : Module) : Module :=
  if trunkUp m l && !(m.trunk l).seen && decide (m.cfg (Ent.trunkLossLimit l) ≤ (m.trunk l).lost + 1) then trunkLost l m else m

def execTrunkLinkDown (l : Fin 2) (s : State) : Host.Outcome State Fault Refusal := s.runE (trunkLinkDown l)

/-- The end of a link's tick at the sample instant of epoch `e`: a tick without a frame counts one lost frame; SYNC goes out (R294, R299). -/
def trunkTick (e l : Nat) (m : Module) : Module :=
  let x := m.trunk l
  let m := m.setStat (Ent.trunkLastLanding l) ((x.landed.map (linkLanding m l)).foldl max 0)
  let m := if trunkUp m l && decide (0 < e) then
      (if x.seen then modTrunk l (fun x => { x with lost := 0 }) m else trunkLost l m) else m
  emit (.trunk l (e % 128) m.holder 8 []) (modTrunk l (fun x => { x with landed := [], seen := false }) m)

/-! ### Upstream frames (R295, R296) -/

/-- The header passes: CRC of bytes 1 to 5, and the epoch byte. -/
def frameOk (f : List Byte) (e : Nat) : Bool :=
  crc16 ((f.drop 1).take 5) == leAt f 6 1 * 256 + leAt f 7 1 && leAt f 1 1 == e % 256

/-- Block `b` of a frame stands in it and its CRC passes. -/
def blockOk (f : List Byte) (b : Nat) : Bool :=
  decide (b < leAt f 2 1) && crc16 ((f.drop (8 + 26 * b)).take 24) == leAt f (32 + 26 * b) 1 * 256 + leAt f (33 + 26 * b) 1

/-- The word of a record (Table in R295) for group `g`. -/
def recordWord (r g e : Nat) : Word :=
  mkWord ((if bit r 23 then sVALID else 0) + (if bit r 22 then sOVR else 0) + (if bit r 21 then sUNDR else 0)) g (parityOf g e) (BitVec.ofNat 20 r)

/-- The IN tag of a channel is issued, and its instance ends (R161, R296). -/
def inTag (l k e : Nat) (m : Module) : Module := endInst (inNumber l k) e (issueTag (inNumber l k) e m)

/-- A mapped channel's record lands. -/
def recordLand (l k v r e : Nat) (m : Module) : Module :=
  let g := mapGroup v
  if mapOut v then
    if samples g e then
      let a := m.cfg (Ent.trunkRbBase l)
      let m := modTrunk l (fun x => { x with compl := (x.compl.filter (fun j => j != k)) ++ (if bit r 20 then [k] else []) }) m
      if isAddr a then putForced (a + k) (recordWord r g e) m else m
    else m
  else inTag l k e (if samples g e then putForced (mapWord v) (recordWord r g e) m else m)

/-- An upstream block arrives: a bad header discards it, a bad CRC counts it, and one that lands in time is written (R296). -/
def trunkBlock (l b : Nat) (f : List Byte) (m : Module) : Module :=
  match m.tick.epoch with
  | none => m
  | some e =>
    if !(trunkUp m l && frameOk f e) then m
    else
      let m := modTrunk l (fun x => { x with seen := true }) m
      if !m.active (fnTrunk l) then m
      else if !blockOk f b then m.bump (Ent.trunkCrcErrors l)
      else if linkLanding m l b ≤ 1200 && m.tick.cycle ≤ 1200 && !(m.trunk l).landed.contains b then
        let m := modTrunk l (fun x => { x with landed := x.landed ++ [b] }) (toCycle (linkLanding m l b) m)
        forL ((trunkMap m l).filter fun x => x.1 / 8 == b) (fun x m => recordLand l x.1 x.2 (leAt f (8 + 26 * b + 3 * (x.1 % 8)) 3) e m) m
      else m

/-- A channel whose word has not landed by cycle 1,200: the word keeps its value with STALE = 1, and its tag is issued (R161). -/
def inTimeout (l k : Nat) (m : Module) : Module :=
  match m.tick.epoch with
  | none => m
  | some e =>
    let v := m.cfg (Ent.trunkChan l k)
    if m.active (fnTrunk l) && mapUsed v && !mapOut v && m.disp.insts.any (fun i => i.desc == inNumber l k && i.epoch == e) then
      let m := toCycle 1200 m
      inTag l k e (if samples (mapGroup v) e then putForced (mapWord v) (staleWord m (mapWord v) (mapGroup v) e) m else m)
    else m

def execInTagTimeout (link : Fin 2) (chan : Fin 128) (s : State) : Host.Outcome State Fault Refusal := s.run (inTimeout link chan)

/-! ### Downstream frames (R297) -/

/-- The record of an output channel: channel, DRIVE, value. -/
def outRecord (m : Module) (k v : Nat) : Nat :=
  let w := m.strobeWord (mapWord v)
  k * 2 ^ 24 + b01 (wValid w || wSubst w) * 2 ^ 23 + (wValue w).toNat

/-- After a strobe of group `g`, the output frame of a link. -/
def trunkFrame (g e l : Nat) (m : Module) : Module :=
  let cs := (trunkMap m l).filter fun x => mapOut x.2 && mapGroup x.2 == g
  if m.active (fnTrunk l) && !cs.isEmpty then emit (.trunk l (e % 256) m.holder g (cs.map fun x => outRecord m x.1 x.2)) m else m

def trunkStrobe (g e : Nat) (m : Module) : Module := forN 2 (trunkFrame g e) m

/-- COMPL of the trunk channels that an output word drives (R280, R296). -/
def trunkCompl (m : Module) (a : Nat) : Bool :=
  (List.range 2).any fun l => m.active (fnTrunk l) && (trunkMap m l).any fun x => mapOut x.2 && mapWord x.2 == a && (m.trunk l).compl.contains x.1

/-! ### START and STOP of a link (R300) -/

/-- The shadow map of a link. -/
def trunkShadow (m : Module) (l : Nat) : List (Nat × Nat) :=
  ((List.range 128).map fun k => (k, m.shad (Ent.trunkChan l k))).filter fun x => mapUsed x.2

/-- n, the blocks that the highest mapped channel needs. -/
def trunkBlocks (m : Module) (l : Nat) : Nat := ((trunkShadow m l).map fun x => x.1 / 8 + 1).foldl max 0

/-- kmax, the most output records of one group. -/
def trunkKmax (m : Module) (l : Nat) : Nat :=
  ((List.range 8).map fun g => ((trunkShadow m l).filter fun x => mapOut x.2 && mapGroup x.2 == g).length).foldl max 0

/-- Input words and readback words of the shadow map. -/
def trunkClaims (m : Module) (l : Nat) : List Nat :=
  let b := m.shad (Ent.trunkRbBase l)
  (trunkShadow m l).filterMap fun x => if mapOut x.2 then (if isAddr b then some (b + x.1) else none) else some (mapWord x.2)

/-- Steps 1 to 3 of R300: the status, OK where the satellite is to be asked. -/
def trunkStartCheck (free : Nat → Bool) (m : Module) (l : Nat) : Nat :=
  let n := trunkBlocks m l
  let kmax := trunkKmax m l
  let need := 5 + m.stat (Ent.trunkDelay l) + (if kmax = 0 then 0 else 2 * (11 + 4 * kmax)) + m.stat (Ent.trunkSatOutMin l)
  if !trunkUp m l then stBusy
  else if n != 0 && decide (1200 < linkLanding m l (n - 1)) then stOutCapacity
  else if kmax != 0 && decide (m.shad (Ent.trunkOutDelay l) < need) then stBadValue
  else if (trunkShadow m l).any (fun x => !mapOk x.2) || (trunkClaims m l).any (fun a => !isAddr a || !free a) then stBadValue
  else stOk

/-- Step 4 of R300: the map and the configuration go to the satellite. -/
def trunkSend (l : Nat) (m : Module) : Module :=
  emit (.satConfig l ((List.range 128).map fun k => m.shad (Ent.trunkChan l k)) (m.shadB (Ent.trunkSatConfig l))) m

/-- START of a link takes effect: IN descriptors of its input channels, counters from 0 (R154, R302). -/
def trunkStart (l : Nat) (m : Module) : Module :=
  let m := forL [Ent.trunkFramesLost l, Ent.trunkCrcErrors l, Ent.trunkDowns l, Ent.trunkLastLanding l] (fun k m => m.setStat k 0) m
  let m := m.setStat (Ent.trunkBlocks l) (((trunkMap m l).map fun x => x.1 / 8 + 1).foldl max 0)
  let m := modTrunk l (fun x => { x with compl := [], landed := [] }) m
  countDescs (forL ((trunkMap m l).filter fun x => !mapOut x.2) (fun x m => setDesc (inNumber l x.1) (some (inDesc (128 * l + x.1 + 1024))) m) m)

/-- The stop of a link completes: its IN descriptors go, and its instances are cancelled (R169). -/
def trunkStop (l : Nat) (m : Module) : Module :=
  countDescs (forN 128 (fun k m => setDesc (inNumber l k) none m) (cancelLink l m))

end Sys2Proof.Machine
end

