-- ==== Sys2Proof/Machine/Owned.lean ====
section
/-! DEFINITION. Who owns each process-image word (R24, R34), the words gathered in a tick (R18), and the checks of START that rest on them. -/

namespace Sys2Proof.Machine

/-- Addresses among some entries. -/
def addrs (l : List Nat) : List Nat := l.filter isAddr

/-- Result words of a descriptor (R156). -/
def Desc.resultWords (d : Desc) : List Nat := (List.range d.rcnt).map fun i => d.res + i

/-- The words that a function claims while its entries stand as `get` and `getB` give them. -/
def claims (get : Get) (getB : Nat → List Byte) (f : Nat) : List Nat :=
  if range 0x4A0 0x4BF f then
    let a := f - 0x4A0
    addrs [get (Ent.axisCmdWord a), get (Ent.axisEncWord a), get (Ent.axisStatusWord a)]
  else if range 0x500 0x53F f then
    let c := f - 0x500
    if range 1 4 (get (Ent.chanMode c)) then addrs [get (Ent.chanWord c)] else if range 5 6 (get (Ent.chanMode c)) then addrs [get (Ent.chanReadback c)] else []
  else if f == 0x540 then addrs [get Ent.diWordA, get Ent.diWordB]
  else if range 0x548 0x549 f then
    let l := f - 0x548
    ((List.range 128).map fun k => (k, get (Ent.trunkChan l k))).filterMap fun x =>
      if !mapUsed x.2 then none else if mapOut x.2 then (if isAddr (get (Ent.trunkRbBase l)) then some (get (Ent.trunkRbBase l) + x.1) else none) else some (mapWord x.2)
  else if range 0x580 0x587 f then portWords get (f - 0x580)
  else if f == 0x410 then (List.range 256).filterMap fun v => (valveOf (get (Ent.slateValve v))).map fun x => x.1
  else if f == 0x409 then (poolList (getB Ent.dispGraph)).flatMap fun d => d.2.resultWords
  else []

/-- The words a function owns now. A slot keeps its live output and publication words while STOPPED (R111); a slot's result words and every other function's words are its own until its stop completes. -/
def ownedBy (m : Module) (f : Nat) : List Nat :=
  let starting := (m.fn f).st == .starting
  let get := m.getOf f
  let getB := if starting then m.shadB else m.cfgB
  if f < 1024 then
    let live := addrs [m.cfg (Ent.loopOutAddr f), m.cfg (Ent.loopSpWord f)]
    if m.stopped f then live
    else live ++ addrs [get (Ent.loopOutAddr f), get (Ent.loopSpWord f)] ++ (loopDesc m starting f).resultWords
  else if f == 0x480 then
    if m.active f then m.flint.img.flags.map FlintWord.addr
    else if starting then (parseFlint (m.shadB Ent.flintImage)).flags.map FlintWord.addr else []
  else if m.stopped f then []
  else claims get getB f

/-- Functions that can own words: slots whose live or starting block names some, and the others. -/
def owners : List Nat :=
  (List.range 1024) ++ [0x409, 0x410, 0x480] ++ (List.range 32).map fnAxis ++ (List.range 64).map fnChan ++ [0x540, 0x548, 0x549] ++ (List.range 8).map fnPort

/-- The overrun words that the loop engine writes (R107). -/
def overrunOwned (m : Module) : List Nat := (List.range 8).filterMap (overrunWord m)

/-- A function other than `self` owns a word. -/
def ownedElsewhere (m : Module) (self a : Nat) : Bool :=
  (overrunOwned m).contains a || owners.any fun f => f != self && (ownedBy m f).contains a

/-- A word is owned by an input source or an output writer (R34). -/
def owned (m : Module) (a : Nat) : Bool := ownedElsewhere m 0xFFFF a

/-- A word is free for a function that starts. -/
def freeFor (m : Module) (self a : Nat) : Bool := !ownedElsewhere m self a

/-! ### Gathered words (R18) -/

/-- Functions whose sources the gather port writes. -/
def gathers (f : Nat) : Bool := range 0x4A0 0x4BF f || range 0x500 0x540 f || range 0x580 0x587 f

/-- Words gathered in a tick in which every group samples. -/
def gathered (m : Module) : Nat :=
  (((((List.range 32).map fnAxis) ++ (List.range 64).map fnChan ++ [fnDi] ++ (List.range 8).map fnPort).filter fun f => !m.stopped f).map fun f =>
    (claims (m.getOf f) m.cfgB f).length).sum

/-- START of a function would not raise the gathered words above 5,888. -/
def gatherFits (m : Module) (f : Nat) : Bool :=
  !gathers f || decide (gathered m + (claims m.shad m.shadB f).length ≤ 5888)

/-! ### Graph check (R172) -/

/-- Fixed fields of a pool descriptor (Table 5.3): reason 1 or 2. -/
def poolShape (m : Module) (d : Desc) : Option Nat :=
  if d.kind = 0 ∨ d.kind = 4 ∨ 4 < d.kind then some 1
  else if d.rsv != 0 || decide (4 < d.nin) || decide (4 < d.rcnt) || (d.kind != 1 && (d.slot != 0 || d.entry != 0)) ||
      (d.kind == 1 && (d.entry == 0 || d.group != m.slotGroup d.slot)) || (d.kind == 2 && d.rcnt != d.nin) ||
      (d.kind == 3 && d.rcnt != 0) || (d.ins.drop d.nin).any (fun i => i != 0) then some 2
  else none

/-- Shape of a LOOP descriptor: reason 2. -/
def loopShape (m : Module) (n : Nat) (d : Desc) : Option Nat :=
  if decide (4 < d.nin) || decide (4 < d.rcnt) || (d.ins.drop d.nin).any (fun i => i != 0) ||
      bits (m.shad (Ent.dispLoopInputs n)) 63 59 != 0 || bits (m.shad (Ent.dispLoopResults n)) 31 21 != 0 then some 2 else none

/-- The graph under check: descriptor numbers with their descriptors. -/
abbrev GraphOf := List (Nat × Desc)

def GraphOf.find (g : GraphOf) (d : Nat) : Option Desc := (g.find? fun x => x.1 == d).map Prod.snd

/-- An input that is not a failure although its descriptor is not there: a LOOP input into the pool of a dispatcher that is not RUNNING. -/
def excused (x : Desc) (poolLive : Bool) (i : Nat) : Bool := x.kind == 0 && !poolLive && range 1280 16383 i

/-- Reason 3: an input names the descriptor itself, or one that is not there. -/
def inputsAbsent (g : GraphOf) (poolLive : Bool) (d : Nat) (x : Desc) : Bool :=
  x.names.any fun i => i == d || (!excused x poolLive i && (GraphOf.find g i).isNone)

/-- Reason 4: an input of another group that is not an IN. -/
def inputsForeign (g : GraphOf) (x : Desc) : Bool :=
  x.names.any fun i => match GraphOf.find g i with | some y => y.kind != 4 && y.group != x.group | none => false

/-- Descriptors that a set reaches through inputs, in a number of rounds. -/
def reachIns (g : GraphOf) : Nat → List Nat → List Nat
  | 0, s => s
  | n + 1, s =>
    let t := (s ++ s.flatMap fun d => match GraphOf.find g d with | some x => x.names | none => []).eraseDups
    if t.length = s.length then s else reachIns g n t

/-- Reason 5: a closed path of inputs through a descriptor. -/
def onCycle (g : GraphOf) (d : Nat) (x : Desc) : Bool := (reachIns g g.length x.names.eraseDups).contains d

/-- Consumers of a producer in the graph (reason 6). -/
def consumersIn (g : GraphOf) (p : Nat) : Nat := (g.filter fun y => y.2.names.contains p).length

/-- Reason 8: result words not free, shared, or beyond the process image. -/
def resultsBad (g : GraphOf) (free : Nat → Bool) (d : Nat) (x : Desc) : Bool :=
  x.resultWords.any fun a => !isAddr a || !free a || g.any fun y => y.1 != d && y.2.resultWords.contains a

/-- Reason 9: two HOOKs with one number in one group, or a number above 255. -/
def hookBad (g : GraphOf) (d : Nat) (x : Desc) : Bool :=
  x.kind == 3 && (decide (255 < x.arg) || g.any fun y => y.1 != d && y.2.kind == 3 && y.2.arg == x.arg && y.2.group == x.group)

/-- The lowest reason for which a descriptor of a graph fails. -/
def descReason (m : Module) (g : GraphOf) (poolLive : Bool) (free : Nat → Bool) (d : Nat) (x : Desc) : Option Nat :=
  match if d < 1280 then loopShape m d x else poolShape m x with
  | some r => some r
  | none =>
    if inputsAbsent g poolLive d x then some 3
    else if inputsForeign g x then some 4
    else if onCycle g d x then some 5
    else if 16 < consumersIn g d then some 6
    else if x.kind == 1 && (!m.running fnKernel || kimgCost m.kimg x.entry == 0) then some 7
    else if resultsBad g free d x || (x.kind == 0 && x.rcnt != 0 && m.shad (Ent.loopKernel x.slot) == 0) then some 8
    else if hookBad g d x then some 9
    else none

/-- LOOP and IN descriptors of functions in use, and those made at an accepted START. -/
def madeDescs (m : Module) : GraphOf :=
  (m.upSlots.map fun n => (n, loopDesc m ((m.fn n).st == .starting) n)) ++
    (List.range 2).flatMap fun l =>
      if m.stopped (fnTrunk l) then []
      else ((List.range 128).filter fun k => let v := m.getOf (fnTrunk l) (Ent.trunkChan l k); mapUsed v && !mapOut v).map fun k => (inNumber l k, inDesc (inNumber l k))

/-- The first failure of the dispatcher's START: descriptor and reason. A descriptor already live fails where the pool gives it an input of another group, a closed path or too many consumers (DEDUCED: R172 has the pool checked against it). -/
def poolFinding (m : Module) : Option (Nat × Nat) :=
  let pool := poolList (m.shadB Ent.dispGraph)
  let g := madeDescs m ++ pool
  g.findSome? fun x => if x.1 < 1280 then
      (if inputsForeign pool x.2 then some (x.1, 4) else if onCycle g x.1 x.2 then some (x.1, 5) else if 16 < consumersIn g x.1 then some (x.1, 6) else none)
    else (descReason m g true (freeFor m fnDisp) x.1 x.2).map fun r => (x.1, r)

/-- The reason for which a slot's LOOP descriptor fails at START of the slot; a consumer of another group that names it is a finding that involves it (R172). -/
def loopFinding (m : Module) (n : Nat) : Option Nat :=
  let poolLive := m.running fnDisp
  let pool := if poolLive then poolList (m.cfgB Ent.dispGraph) else []
  let x := loopDesc m true n
  let g := ((n, x) :: (madeDescs m).filter fun y => y.1 != n) ++ pool
  let foreign := g.any fun y => y.2.names.contains n && y.2.group != x.group
  match descReason m g poolLive (freeFor m n) n x with
  | some r => some (if foreign then min r 4 else r)
  | none => if foreign then some 4 else if x.names.any (fun i => decide (16 < consumersIn g i)) then some 6 else none

/-- Record a failed graph check, or none (2A00h:0A, :0B). -/
def noteGraph (x : Option (Nat × Nat)) (m : Module) : Module :=
  match x with
  | some (d, r) => (m.setStat Ent.dispCheckFailAt d).setStat Ent.dispCheckReason r
  | none => m

/-- The status of a graph reason. -/
def graphStatus (r : Nat) : Nat := if r = 6 then stOutCapacity else stBadValue

/-! ### Flint image check (R231) -/

/-- The static check of an image with the freedom part of reason 8 and reason 11: word and reason. -/
def flintFinding (m : Module) (bs : List Byte) : Option (Nat × Nat) :=
  match flintCheck bs with
  | some x => some x
  | none =>
    let img := parseFlint bs
    let mine := if m.active fnFlint then m.flint.img.flags.map FlintWord.addr else []
    let old := flintInUse m
    if img.flags.any (fun w => !mine.contains w.addr && !freeFor m fnFlint w.addr) then some (0xFFFFFFFF, 8)
    else if !movesFit (livePhase m) (fun g => groupMoves m g - flintMoves old g + flintMoves img g) then some (0xFFFFFFFF, 11)
    else none

/-- Record the check of an image (`flint.check_fail_at`, `flint.check_reason`), with the status it asks for. -/
def flintVerdict (bs : List Byte) (m : Module) : Nat × Module :=
  match flintFinding m bs with
  | some (at_, r) => (if r = 11 then stOutCapacity else stBadValue, (m.setStat Ent.flintCheckFailAt at_).setStat Ent.flintCheckReason r)
  | none => (stOk, (m.setStat Ent.flintCheckFailAt 0xFFFFFFFF).setStat Ent.flintCheckReason 0)

end Sys2Proof.Machine
end

