-- ==== Sys2Proof/Machine/Writer.lean ====
section
/-! DEFINITION. The tick's length (R35, R36) and the output writer (R21 to R27): marshalling and strobes. -/

namespace Sys2Proof.Machine

/-! ### Length of the tick -/

/-- Units of 2^-32 ns that a core cycle lasts on the time counter. -/
def cycleUnits (m : Module) : Nat := m.tick.periodPs * m.time.incr / 8000

/-- 20 µs in the counter's units. -/
def gridUnits : Nat := 20000 * 2 ^ 32

/-- The sample instant minus the nearest point of the 20 µs grid, in the counter's units. -/
def phaseUnits (m : Module) : Int :=
  let r := m.tick.instant % gridUnits
  if 2 * r ≤ gridUnits then r else (r : Int) - gridUnits

/-- Core cycles from this sample instant to the strobe of the next grid point, in LOCKED: it comes with the first cycle at or after it. -/
def lockedLength (m : Module) : Nat :=
  let c := max 1 (cycleUnits m)
  let n := ((gridUnits : Int) - phaseUnits m + (c - 1)) / c
  if n ≤ 3999 then 3999 else if 4001 ≤ n then 4001 else 4000

/-- The length of the running tick by its discipline state (R35, R36). -/
def tickLength (m : Module) : Nat :=
  match m.tick.disc with
  | .locked => lockedLength m
  | .aligning => if 0 < phaseUnits m then 3999 else 4001
  | _ => 4000

/-! ### When a group marshals and strobes (R15, R27) -/

/-- The cycle of the running tick at which a point of a group's period falls; none where it falls in another tick. -/
def periodCycle (m : Module) (g at_ : Nat) : Option Nat :=
  let t := Sparse.get (fun _ => 0) m.tick.groupAbs g + at_
  if m.tick.abs ≤ t ∧ t < m.tick.abs + max (tickLength m) (m.tick.cycle + 1) then some (t - m.tick.abs) else none

def marshalled (m : Module) (g se : Nat) : Bool := Sparse.get (fun _ => 0) m.tick.marsh g == se + 1
def strobed (m : Module) (g se : Nat) : Bool := Sparse.get (fun _ => 0) m.tick.strobed g == se + 1

/-- A slot's result is final for its output phase (R21). -/
def slotFinal (m : Module) (g : Nat) (r : SlotRun) : Bool :=
  match r.finish with
  | some c => (r.staged.isSome || r.ended) && decide (c + 81 ≤ m.cfg (Ent.groupPhase g))
  | none => false

/-- Slots of a group whose period of epoch `se` is under way. -/
def groupSlots (m : Module) (g se : Nat) : List Nat :=
  ((m.funcs.filter fun e => decide (e.1 < 1024) && (e.2.st == .running || e.2.st == .stopping)).map Prod.fst).filter fun n =>
    m.cfg (Ent.loopGroup n) % 8 == g && (m.slotRun n).epoch == some se

/-! ### Marshalling (R21, R22, R168, R193, R215) -/

/-- Results not final at the marshalling start are left out of the period (R106). -/
def markLate (g se : Nat) (m : Module) : Module :=
  let late := (groupSlots m g se).filter fun n =>
    if m.standby then m.decided se (fun d => match d with | .notFinal h l => h == g && l.contains n | _ => false)
    else !slotFinal m g (m.slotRun n)
  let m := forL late (fun n m => modSlotRun n (fun r => { r with late := true }) m) m
  if late.isEmpty then m else sendDecision se (.notFinal g late) m

/-- A standby holds its internal strobe while a result that the holder had is not final (R428). -/
def mustHold (m : Module) (g se : Nat) : Bool :=
  m.standby && (groupSlots m g se).any fun n => !(m.slotRun n).late && (m.slotRun n).staged.isNone && !(m.slotRun n).ended

/-- The late commit of a group falls one base tick after its strobe (R197). -/
def lateCycle (m : Module) (g e back : Nat) : Option Nat :=
  if g != 0 && anyLateDue m g e then periodCycle m g (m.cfg (Ent.groupPhase g) + 4000 - back) else none

/-- Marshalling of a group starts. -/
def marshallingStart (g : Nat) (m : Module) : Module :=
  match m.tick.epoch with
  | none => m
  | some e =>
    let se := sampleEpoch g e
    match (if marshalled m g se then none else periodCycle m g (m.cfg (Ent.groupPhase g) - 80)) with
    | some c =>
      let m := toCycle c m
      let m := { m with tick := { m.tick with marsh := Sparse.set (fun _ => 0) m.tick.marsh g (se + 1) } }
      slateMarshal true g e (lateClass g se (markLate g se (overrideWindow g m)))
    | none =>
      match lateCycle m g e 80 with
      | some c => slateMarshal false g e (overrideWindow g (toCycle c m))
      | none => m

def execMarshallingStart (g : Fin 8) (s : State) : Host.Outcome State Fault Refusal := s.runE (fun m => marshallingStart g (drainIdle m))

/-! ### The writer's moves (R24) -/

/-- The word with COMPL where the drive it feeds is short of its value (R280). -/
def withCompl (m : Module) (a : Nat) (w : Word) : Word := if chanCompl m a || trunkCompl m a then w ||| 0x02000000#32 else w

/-- The override entry of a word that the open window read. -/
def overrideOf (m : Module) (g a : Nat) : Option FlintWord := (m.overridesOf g).find? fun w => w.addr == a

/-- One move of the writer for group `g`: override, then force, then the staged word (R22, R33). -/
def moveWord (g : Nat) (p : Bool) (a : Nat) (w : Word) (m : Module) : Module :=
  let m := { m with tick := { m.tick with old := m.tick.old.filter fun x => x.1 != a } }
  match overrideOf m g a with
  | some o => putWord a (withCompl m a (mkWord (sVALID + sINTLK) g p o.val)) m
  | none => putForced a (withCompl m a w) m

/-- Output words of a group's slots, and their stop writes, in ascending slot number (R24, R111). -/
def slotWrites (m : Module) (g se : Nat) : List (Nat × Word) :=
  let p := parityOf g se
  let due := (m.loop.stopDue.filter fun x => x.2 == g).map Prod.fst
  let live := groupSlots m g se
  ((List.range 1024).filter fun n => due.contains n || live.contains n).filterMap fun n =>
    let a := m.cfg (Ent.loopOutAddr n)
    let r := m.slotRun n
    if !isAddr a then none
    else if due.contains n then
      some (a, if m.cfg (Ent.loopStopOutput n) = 0 then mkWord sSTALE g p (wValue (m.word a)) else mkWord sSUBST g p (BitVec.ofInt 20 (m.cfgQ (Ent.loopSafeValue n))))
    else if r.late then none else r.staged.map fun w => (a, w)

/-- Setpoint publication words, in ascending slot number. -/
def spWrites (m : Module) (g se : Nat) : List (Nat × Word) :=
  (groupSlots m g se).filterMap fun n =>
    let a := m.cfg (Ent.loopSpWord n)
    if !isAddr a || (m.slotRun n).late then none else (m.slotRun n).spStaged.map fun w => (a, w)

/-- The overrun word of a group (R107). -/
def overrunWrites (m : Module) (g se : Nat) : List (Nat × Word) :=
  match overrunWord m g with
  | some a => [(a, mkWord sVALID g (parityOf g se) (if m.stat (Ent.groupOverrunActive g) != 0 then 1 else 0))]
  | none => []

/-- Valve words, and those written once with SUBST at the stop of Slate (R188). -/
def valveWrites (m : Module) (all : Bool) (g se : Nat) : List (Nat × Word) :=
  let p := parityOf g se
  (valveMoves m all g).map (fun v => (v.1, mkWord sVALID g p v.2)) ++
    (if all then (m.slate.stopWrite.filter fun x => x.1 == g).map fun x => (x.2.1, mkWord sSUBST g p x.2.2) else [])

/-- Flag words (R216, R229). -/
def flagWrites (m : Module) (g se : Nat) : List (Nat × Word) :=
  (flagMoves m g).map fun f => (f.1, mkWord (if f.2.2 then sSTALE else sVALID) g (parityOf g se) f.2.1)

/-- Active overrides of the group, written whether or not their owner staged a value (R213). -/
def overrideWrites (m : Module) (g se : Nat) : List (Nat × Word) :=
  ((m.overridesOf g).filter fun w => w.group == g).map fun w => (w.addr, mkWord (sVALID + sINTLK) g (parityOf g se) w.val)

/-- All moves of a group's strobe, in the order of R24. -/
def groupWrites (m : Module) (g se : Nat) : List (Nat × Word) :=
  slotWrites m g se ++ spWrites m g se ++ valveWrites m true g se ++ flagWrites m g se ++ overrunWrites m g se ++ overrideWrites m g se

/-! ### Slots at their strobe (R96, R106, R342) -/

/-- The end of a slot's period at the strobe: status cells and events, or an overrun; then the acquisition tap. -/
def slotStrobe (g se n : Nat) (m : Module) : Module :=
  let r := m.slotRun n
  let a := m.cfg (Ent.loopOutAddr n)
  let out := if isAddr a then m.word a else r.staged.getD 0
  let m :=
    if r.late then (if m.running n then overrunCount n m else m)
    else slotStatus n n false (setMem n 0x1F2 1 0 m)
  tapLoop n g se out m

/-- `group[g].last_finish`: the last result of the period that became final. -/
def groupFinish (g se : Nat) (m : Module) : Module :=
  let fs := (groupSlots m g se).filterMap fun n => if (m.slotRun n).late then none else (m.slotRun n).finish
  if fs.isEmpty then m else m.setStat (Ent.groupLastFinish g) (fs.foldl max 0)

/-- The destinations of a group after its strobe (Table 1.3). -/
def destinations (g se : Nat) (m : Module) : Module :=
  portsStrobe g (trunkStrobe g se (doStrobe g (chansStrobe g se m)))

/-- What stands for one strobe only is done with. -/
def clearOnce (g : Nat) (m : Module) : Module :=
  { m with
    loop := { m.loop with stopDue := m.loop.stopDue.filter fun x => x.2 != g }
    slate := { m.slate with stopWrite := m.slate.stopWrite.filter fun x => x.1 != g }
    flint := { m.flint with onceStale := m.flint.onceStale.filter fun x => x.1 != g } }

/-- The writer's moves of a strobe. -/
def moveAll (g se : Nat) (ws : List (Nat × Word)) (m : Module) : Module := forL ws (fun w m => moveWord g (parityOf g se) w.1 w.2 m) m

/-- The output strobe of a group's period. -/
def strobeNow (g se : Nat) (m : Module) : Module :=
  let m := { m with tick := { m.tick with strobed := Sparse.set (fun _ => 0) m.tick.strobed g (se + 1) } }
  let m := moveAll g se (groupWrites m g se) m
  let slots := groupSlots m g se
  let m := forL slots (slotStrobe g se) (groupFinish g se m)
  clearOnce g (destinations g se (valveHold g (slateStrobe true g se m)))

/-- A late commit of Slate, one base tick after the strobe (R197). -/
def strobeLate (g se : Nat) (m : Module) : Module :=
  valveHold g (slateStrobe false g se (moveAll g se (valveWrites m false g se) m))

/-- What a strobe command does now: the group's strobe, a late commit, or nothing. -/
def strobeDue (m : Module) (g : Nat) : Option (Nat × Nat × Bool) :=
  match m.tick.epoch with
  | none => none
  | some e =>
    let se := sampleEpoch g e
    match (if marshalled m g se && !strobed m g se then periodCycle m g (m.cfg (Ent.groupPhase g)) else none) with
    | some c => some (c, se, true)
    | none => (lateCycle m g e 0).map fun c => (c, se, false)

/-- The strobe of a group. -/
def outputStrobe (g : Nat) (m : Module) : Module :=
  match strobeDue m g with
  | some (c, se, true) =>
    let m := toCycle c m
    if mustHold m g se then { m with red := { m.red with strobeHeld := true } }
    else strobeNow g se { m with red := { m.red with strobeHeld := false } }
  | some (c, se, false) => strobeLate g se (toCycle c m)
  | none => m

end Sys2Proof.Machine
end

