-- ==== Sys2Proof/Machine/Pair.lean ====
section
/-! DEFINITION. The redundancy unit's shared operations (chapter 14): states and events, the mirror and the comparison values, the end of lockstep, release and wiring, RESYNC's frames. -/

namespace Sys2Proof.Machine

/-! ### Events and states -/

/-- The payload of a redundancy event (R451). -/
def redBody (m : Module) (reason b32 t last retired : Nat) : List Byte :=
  leBytes 1 m.redState ++ leBytes 1 reason ++ leBytes 1 b32 ++ leBytes 8 t ++ leBytes 8 last ++ leBytes 4 retired

/-- A redundancy event with the present reason. -/
def redEvent (code b32 : Nat) (m : Module) : Module := raise fnRed code (redBody m m.red.reason b32 0 0 0) m

/-- The state and reason become these; a change of state records 0E01h (R420). -/
def setRed (st reason : Nat) (m : Module) : Module :=
  let m' := { m with red := { m.red with st := st, reason := reason } }
  if m.redState = m'.redState then m' else redEvent 0x0E01 0 m'

/-! ### Sessions close (R66) -/

/-- A session closes: its subscriptions end, its transfers are abandoned, it leaves the stream; 100Ah gives the cause. -/
def closeSession (cause id : Nat) (m : Module) : Module :=
  if m.odp.sessions.any (fun x => x.id == id) then
    let m := mgmtEvent 0x0E02 0x100A 0 0 cause id 0 m
    let o := { m.odp with sessions := m.odp.sessions.filter (fun x => x.id != id), subs := m.odp.subs.filter (fun x => x.session != id),
                          domWrites := m.odp.domWrites.filter (fun x => x.session != id), domReads := m.odp.domReads.filter (fun x => x.session != id),
                          exports := m.odp.exports.filter (fun x => x.session != id) }
    streamDetach id { m with odp := o }
  else m

/-! ### Responses (R66, R69, R427, R429) -/

/-- Session ids from here on name sessions of the partner, whose requests came in FORWARD frames. -/
def partnerSession : Nat := 2 ^ 32

/-- The request that a FORWARD answer names. -/
def answerReq (r : Resp) : Req := ⟨⟨r.session - partnerSession, 0, true, r.id⟩, r.op - 0x80, 0, r.index, r.sub, 0, []⟩

/-- Send something to a session; its next sequence number is taken, and at the limit it closes (R66). -/
def sendTo (id : Nat) (o : Out) (m : Module) : Module :=
  match m.odp.sessions.find? (fun x => x.id == id) with
  | none => m
  | some x =>
    let up := fun (y : Session) => { y with tx := y.tx + 1 }
    let m := emit o { m with odp := { m.odp with sessions := mapFirst (fun y => y.id == id) up m.odp.sessions } }
    if 2 ^ 48 ≤ x.tx + 1 then closeSession 3 id m else m

/-- Keep a response for repeats of its request (R69). -/
def keepResp (r : Resp) (m : Module) : Module :=
  let fill := fun (k : Kept) => { k with resp := some r }
  let up := fun (y : Session) => { y with kept := mapFirst (fun k => k.req.fr.id == r.id && k.resp.isNone) fill y.kept }
  { m with odp := { m.odp with sessions := mapFirst (fun y => y.id == r.session) up m.odp.sessions } }

/-- A response goes out: to its session, or to the partner that passed the request on. -/
def deliver (r : Resp) (m : Module) : Module :=
  if partnerSession ≤ r.session then
    sendItpel m.epochWire (.forward (answerReq r) .service (some { r with session := r.session - partnerSession })) m
  else sendTo r.session (.resp r) (keepResp r m)

/-- Responses that wait for the standby go out at once (R427). -/
def freeWithheld (m : Module) : Module :=
  forL m.odp.withheld (fun x m => deliver x.2 m) { m with odp := { m.odp with withheld := [] } }

/-- What lockstep keeps is dropped. -/
def clearLockstep (m : Module) : Module :=
  { m with red := { m.red with
    mirrors := [], decisions := [], digests := [], recBytes := [], slotDone := [], recs := [], waiting := false, strobeHeld := false,
    joined := [], phase := 0, verifyCount := 0 } }

/-- Lockstep ends (R433, R446), the member reporting state `st`: the standby stops computing and records 0E04h; three failed VERIFYs in a row give STANDBY_FAULT. -/
def endLockstepIn (st reason : Nat) (m : Module) : Module :=
  if !m.lockstep then m
  else
    let verify := m.red.st == 2
    let fails := if verify then m.red.verifyFails + 1 else 0
    let why := if 3 ≤ fails then 8 else reason
    let standby := !m.red.hold
    let m := freeWithheld { m with red := { m.red with verifyFails := fails, retryDue := false } }
    let m := setRed st why (clearLockstep m)
    let m := if standby then redEvent 0x0E04 0 { m with red := { m.red with computing := false, changes := [] } } else m
    if verify then redEvent 0x0E09 0 m else m

/-- Lockstep ends, and the member reports DEGRADED (R433). -/
def endLockstep (reason : Nat) (m : Module) : Module := endLockstepIn 5 reason m

/-- RESYNC is abandoned (Table 14.12): the holder goes on, the joining member computes nothing. -/
def endResync (st reason : Nat) (m : Module) : Module :=
  if m.red.st != 1 then m
  else
    let m := freeWithheld (setRed st reason (clearLockstep { m with red := { m.red with retryDue := false } }))
    if m.red.hold then m else { m with red := { m.red with computing := false, changes := [] } }

/-! ### Token -/

/-- Paired stages follow the token (R286): a member that loses it disables them, one that takes it enables them at the values it holds; field-bus ports follow too (R333). -/
def stagesToken (m : Module) : Module :=
  portsToken (forL ((upChans m).filter fun c => isOutput m c && bit (m.cfg (Ent.chanOptions c)) 2) (fun c m =>
    modChan c (fun x => { x with stage := m.holder && !bankBad m c && m.power.outputs }) m) m)

/-- The member drives RELEASE and computes nothing (R436, R438). `cause`: byte 31 of 0E03h. -/
def releaseToken (cause : Nat) (m : Module) : Module :=
  if !m.red.hold then m
  else
    let m := clearLockstep (freeWithheld { m with red := { m.red with hold := false, computing := false, releaseDue := none } })
    let m := stagesToken m
    let m := if m.red.partner.isSome then setRed 5 11 m else m
    raise fnRed 0x0E03 (redBody m cause 0 0 0 0) m

/-- A holder may release for a cause other than the command (R438). -/
def mayRelease (m : Module) : Bool :=
  m.red.hold && (m.red.partnerState == 3 || (m.red.partnerState == 2 && m.cfgOn Ent.redVerifyTakeover))

/-- A cause of R438 arises: the release waits for cycle 1 of the next tick. -/
def wantRelease (cause : Nat) (m : Module) : Module :=
  if mayRelease m && m.red.releaseDue.isNone then { m with red := { m.red with releaseDue := some cause } } else m

/-- TOKEN_WIRING is set (R439). -/
def setWiring (m : Module) : Module :=
  if m.red.wiring then m
  else
    let m' := redEvent 0x0E06 1 { m with red := { m.red with wiring := true } }
    if m.redState = m'.redState then m'
    else redEvent 0x0E01 0 { m' with red := { m'.red with reason := 7 } }

/-! ### The mirror (R425) -/

/-- The holder mirrors: in lockstep, and in RESYNC once the joins run (R444). -/
def mirrors (m : Module) : Bool := m.red.hold && (m.lockstep || (m.red.st == 1 && m.red.phase == 3))

/-- A section of the mirror of the running epoch. -/
def sendMirror (x : Section) (m : Module) : Module := if mirrors m then sendItpel m.epochWire (.mirror [x]) m else m

/-- The input section: what the gather port wrote, in order. -/
def mirrorInput (m : Module) : Module :=
  if mirrors m then sendMirror (.input (m.tick.old.map fun x => (x.1, m.word x.1))) m else m

/-- The mirror of an epoch as a member holds it. -/
def mirrorOf (m : Module) (e : Nat) : Option Mirror := m.red.mirrors.find? fun x => x.epoch == e

/-- Add a section to the mirror of an epoch. -/
def addSection (e : Nat) (x : Section) (m : Module) : Module :=
  let put := fun (y : Mirror) => match x with
    | .input ws => { y with input := y.input ++ ws }
    | .trunk b c ws => { y with trunk := y.trunk ++ [(b, c, ws)] }
    | .outputs ws => { y with outputs := y.outputs ++ ws }
    | .done => { y with complete := true }
  let l := if (mirrorOf m e).isSome then m.red.mirrors else m.red.mirrors ++ [⟨e, [], [], [], false⟩]
  { m with red := { m.red with mirrors := mapFirst (fun y => y.epoch == e) put l } }

/-! ### Comparisons (R432, Table 14.7) -/

/-- A comparison value is made: the holder keeps it, the standby sends it. -/
def makeDigest (kind which epoch : Nat) (bytes : List Byte) (m : Module) : Module :=
  if !m.lockstep then m
  else
    let d : Digest := ⟨kind, which, epoch, crc32c bytes⟩
    if m.red.hold then { m with red := { m.red with digests := m.red.digests ++ [d] } } else sendItpel epoch (.digest d) m

/-- The strobe digest of some moves: each address then word. -/
def strobeDigest (g se : Nat) (ws : List (Nat × Word)) (m : Module) : Module :=
  if m.lockstep then makeDigest 0 g se (ws.flatMap fun w => leBytes 4 w.1 ++ leBytes 4 (m.word w.1).toNat) m else m

/-- The release digest: permits Q0 to Q2047, then the flag values. -/
def releaseDigest (m : Module) : Module :=
  if m.lockstep then
    let permits := (List.range 256).map fun i => BitVec.ofNat 8 ((List.range 8).foldl (fun v j => v + b01 (m.permit (8 * i + j)) * 2 ^ j) 0)
    let flags := (List.range m.flint.img.flags.length).flatMap fun i => leBytes 4 (qWire (m.flagVal i))
    makeDigest 1 0 m.epochWire (permits ++ flags) m
  else m

/-- Every running group that samples at an epoch has strobed for it. -/
def allStrobed (m : Module) (e : Nat) : Bool := (List.range 8).all fun g => !samples g e || !m.active (fnGroup g) || strobed m g e

/-- The record digest of an epoch, after its last strobe. -/
def recordDigest (e : Nat) (m : Module) : Module :=
  if m.lockstep && allStrobed m e then
    let b := Sparse.get (fun _ => []) m.red.recBytes e
    makeDigest 2 0 e b { m with red := { m.red with recBytes := Sparse.set (fun _ => []) m.red.recBytes e [] } }
  else m

/-- The 512 bytes of a slot. -/
def slotBytes512 (m : Module) (n : Nat) : List Byte := (List.range 512).map fun i => m.memB n i

/-- The slot digest, when a LOOP instance of a slot issues: for the last epoch `d` with d mod 1,024 the slot. -/
def slotDigest (n e : Nat) (m : Module) : Module :=
  let d := e - (e + 1024 - n % 1024) % 1024
  if m.lockstep && decide (n ≤ e) && decide (Sparse.get (fun _ => 0) m.red.slotDone n < d + 1) then
    makeDigest 3 n d (slotBytes512 m n) { m with red := { m.red with slotDone := Sparse.set (fun _ => 0) m.red.slotDone n (d + 1) } }
  else m

/-! ### Changes (R427) -/

/-- An entry of a member alone, which is not mirrored (R427). -/
def memberLocal (key : Nat) : Bool :=
  let idx := key / 256
  range 0x100 0x3FF idx || range 0x1000 0x1FFF idx || idx == 0x400 + 0x601 || idx == 0x400 + 0x602

/-- The holder passes an accepted change on, with its effective epoch; the frame's SEQ answers for it. -/
def sendChange (epoch : Nat) (r : Req) (m : Module) : Module :=
  if m.red.hold && (m.lockstep || (m.red.st == 1 && m.red.phase == 3)) then
    let n := m.red.changeNo + 1
    sendItpel epoch (.change ⟨n, epoch, r⟩) { m with red := { m.red with changeNo := n } }
  else m

/-! ### RESYNC (R444, R445) -/

/-- The member's own identity, as a pair compares it (R418, R423). -/
def ownPartner (m : Module) : Partner :=
  ⟨ascii "OPN-1024-A1", m.sec.runtimeVersion, Config.romVersion % 2 ^ 32, Config.serial, m.cfgOn Ent.redEnable, m.stat Ent.modSlot⟩

/-- A function of both members. -/
def sharedFn (f : Nat) : Bool := f != fnTime && f != fnRed

/-- The rate group a function joins with; none for a base-tick instant (R445). -/
def joinGroup (m : Module) (f : Nat) : Option Nat :=
  if f < 1024 then some (m.cfg (Ent.loopGroup f) % 8)
  else if range 0x400 0x407 f then some (f - 0x400)
  else if range 0x440 0x47F f then some (recipeGroup m (f - 0x440))
  else if range 0x4A0 0x4BF f then some (m.cfg (Ent.axisGroup (f - 0x4A0)) % 8)
  else if range 0x500 0x53F f then some (chanGrp m (f - 0x500))
  else if f == fnDi then some (m.cfg Ent.diGroup % 8)
  else if f == fnDo then some (m.cfg Ent.doGroup % 8)
  else if range 0x5D0 0x5DF f then some (m.cfg (Ent.winGroup (f - 0x5D0)) % 8)
  else none

/-- The status entries whose counters a function's dynamic state takes with it, by index (R445). -/
def countIndex (f idx : Nat) : Bool :=
  if range 0x4A0 0x4BF f then idx == 0x3130 + (f - 0x4A0)
  else if range 0x500 0x53F f then idx == 0x3440 + (f - 0x500)
  else if range 0x580 0x587 f then idx == 0x3808 + (f - 0x580) || idx == 0x3818 + (f - 0x580) || range (0x3A00 + 32 * (f - 0x580)) (0x3A1F + 32 * (f - 0x580)) idx
  else if f == fnFlint then range 0x3010 0x3017 idx
  else (f == fnDi && idx == 0x3500) || (f == fnDo && idx == 0x3510)

/-- The values of those entries, and their taking over by the other member. -/
def countsOf (m : Module) (f : Nat) : Sparse Nat := m.dict.stat.filter fun x => countIndex f (x.1 / 256)
def takeCounts (f : Nat) (c : Sparse Nat) (m : Module) : Module :=
  { m with dict := { m.dict with stat := swapCells dfltCell (fun k => countIndex f (k / 256)) c m.dict.stat } }

/-- The dynamic state of a function (R445). -/
def joinState (m : Module) (f : Nat) : JoinState :=
  if f < 1024 then .slot f (slotBytes512 m f)
  else if f == fnSlate then .slate m.slate.valves
  else if range 0x440 0x47F f then .recipe (f - 0x440) (m.rrun (f - 0x440))
  else if f == fnFlint then .flint m.flint.data m.flint.permits m.flint.flags m.flint.tasks (countsOf m f)
  else if range 0x4A0 0x4BF f then .axis (f - 0x4A0) (m.axis (f - 0x4A0)) (countsOf m f)
  else if range 0x4C0 0x4C7 f then .mgroup (f - 0x4C0) (m.mgroup (f - 0x4C0))
  else if range 0x500 0x53F f then .chan (f - 0x500) (m.chan (f - 0x500)) (countsOf m f)
  else if range 0x580 0x587 f then .port (f - 0x580) (m.port (f - 0x580)) (countsOf m f)
  else if range 0x5D0 0x5DF f then .window (f - 0x5D0)
  else if f == fnDo then .outputs m.io.doLatch m.io.doOff m.io.doMism m.io.doCause (countsOf m f)
  else if f == fnDi then .inputs m.io.diState m.io.diRaw m.io.diCount m.io.diSince (countsOf m f)
  else .other f

/-- Shared functions that run and have not joined, in order of number. -/
def unjoined (m : Module) : List Nat :=
  (m.funcs.filter fun x => sharedFn x.1 && x.2.st == .running && !m.red.joined.contains x.1).map Prod.fst

/-- VERIFY starts at the last join (R446). -/
def startVerify (m : Module) : Module :=
  setRed 2 m.red.reason { m with red := { m.red with phase := 0, verifyCount := 0, digests := [], recBytes := [], slotDone := [] } }

/-- A function joins: its JOIN frame, as it stands before any computation of the epoch. -/
def joinFn (e f : Nat) (m : Module) : Module :=
  sendItpel e (.join f (joinState m f)) { m with red := { m.red with joined := m.red.joined ++ [f] } }

/-- The next functions join in order while their groups sample at this instant; Flint joins at cycle 399 (R445). -/
def joinRun (e : Nat) : List Nat → Module → Module
  | [], m => m
  | f :: l, m =>
    let now := match joinGroup m f with | some g => samples g e | none => f != fnFlint
    if now then joinRun e l (joinFn e f m) else m

/-- Joins at a base-tick sample instant, and VERIFY after the last. -/
def joinInstant (e : Nat) (m : Module) : Module :=
  if m.red.hold && m.red.st == 1 && m.red.phase == 3 then
    let m := joinRun e (unjoined m) m
    if (unjoined m).isEmpty then startVerify (m.setStat Ent.redResyncProgress 100) else m
  else m

/-- Flint joins at cycle 399 of a tick in which every task cycle has ended (R445). -/
def joinFlint (m : Module) : Module :=
  match m.tick.epoch with
  | none => m
  | some e =>
    if m.red.hold && m.red.st == 1 && m.red.phase == 3 && (unjoined m).head? == some fnFlint && m.fcurrent.isNone then
      let m := joinFn e fnFlint m
      if (unjoined m).isEmpty then startVerify (m.setStat Ent.redResyncProgress 100) else m
    else m

/-- The live and shadow copies of the shared functions' RWS entries (Table 14.11). -/
def sharedRws (key : Nat) : Bool :=
  match ownerOf key, rowAt (key / 256) (key % 256) with
  | some f, some r => sharedFn f && r.acc == .rws
  | _, _ => false

def bulkConfig (m : Module) : Bulk :=
  .config (m.dict.shadow.filter fun x => sharedRws x.1) (m.dict.live.filter fun x => sharedRws x.1)
    (m.dict.shadowB.filter fun x => sharedRws x.1) (m.dict.liveB.filter fun x => sharedRws x.1) (m.bootRunning.filter sharedFn)

def bulkHistory (m : Module) : Bulk := .history ((List.range m.agate.used).map fun k => (k, m.slotOf k))

/-- RESYNC begins (R420, R444): the holder sends configuration and history, and the joins follow at sample instants. The progress counts Table 14.11's largest sizes. -/
def startResync (m : Module) : Module :=
  let m := clearLockstep m
  let m := redEvent 0x0E08 0 (setRed 1 m.red.reason m)
  let m := { m with red := { m.red with phase := 1 } }.setStat Ent.redResyncProgress 0
  if m.red.hold then
    let m := sendItpel m.epochWire (.bulk (bulkHistory m)) (sendItpel m.epochWire (.bulk (bulkConfig m)) m)
    { m with red := { m.red with phase := 3 } }.setStat Ent.redResyncProgress 98
  else m

/-- The pair stands (R2, R418): the link is UP, both are enabled, and the identities agree. -/
def pairFormed (m : Module) : Bool :=
  match m.red.partner with
  | some p =>
    let o := ownPartner m
    m.red.link == 2 && o.enable && p.enable && o.slot != p.slot && o.part == p.part && o.runtime == p.runtime && o.rom == p.rom
  | none => false

/-- The identities differ (R418). -/
def identityDiffers (m : Module) : Bool :=
  match m.red.partner with
  | some p => let o := ownPartner m; m.red.link == 2 && o.slot != p.slot && !(o.part == p.part && o.runtime == p.runtime && o.rom == p.rom)
  | none => false

/-- A paired state without lockstep in which RESYNC may begin (Table 14.2). -/
def resyncFrom (m : Module) : Bool := m.red.st == 0 || m.red.st == 4 || m.red.st == 5

/-- RESYNC begins by itself where Table 14.2 lets it: auto, with the retry time run and no STANDBY_FAULT standing, or because the partner has begun. -/
def autoResync (m : Module) : Module :=
  if pairFormed m && resyncFrom m && !m.red.wiring &&
      (m.red.partnerState == 1 || (m.cfgOn Ent.redAutoResync && m.red.retryDue && decide (m.red.verifyFails < 3))) then startResync m
  else m

end Sys2Proof.Machine
end

