-- ==== Sys2Proof/Machine/Power.lean ====
section
/-! DEFINITION. Clocks, gating, power states and ride-through (chapter 15), thermal trips, insertion and removal (chapter 17), and the reset that a boot begins with. -/

namespace Sys2Proof.Machine

/-! ### Events -/

/-- E in µJ for a bank voltage in mV (R464). -/
def energyUj (mv : Nat) : Nat := (Config.bankUf % 65536) * (mv * mv - 900000000) / 2000000

/-- E now, from the last measurement of the bank. -/
def Module.energy (m : Module) : Nat := energyUj (m.stat Ent.pwrBankMv)

/-- A platform event of source 0F00h (R472); the input voltage is a measured value. -/
def powerEvent (code detail step since : Nat) (m : Module) : Module :=
  let (v, m) := takeFree m
  raise 0xF00 code (leBytes 1 detail ++ leBytes 1 step ++ leBytes 4 m.energy ++ leBytes 4 v ++ leBytes 4 since) m

/-- A module event of source 0F00h (R510). -/
def moduleEvent (code detail charge : Nat) (m : Module) : Module :=
  raise 0xF00 code (leBytes 1 detail ++ leBytes 4 (m.stat Ent.modPlateTemp) ++ leBytes 4 (m.stat Ent.modSocTemp) ++ leBytes 1 (m.stat Ent.modSlot) ++ leBytes 2 charge) m

/-- Set a bit of `boot.faults`. -/
def bootFault (i : Nat) (m : Module) : Module := m.setStat Ent.bootFaults (Nat.lor (m.stat Ent.bootFaults) (2 ^ i))

/-! ### Gating (R459, R460) and power states (R461, R462) -/

/-- The blocks of Table 15.3. -/
def gateBlocks : List Nat := List.range 14

/-- The debug level becomes `lev`; below D2 every halt ends and no pin is driven, and a debug token ends with D2 (R483, R484). -/
def setLevel (lev : Nat) (m : Module) : Module :=
  if lev < 2 then
    let lanes := m.lanes.map fun x => (x.1, { x.2 with halted := false })
    { m with lanes := lanes.filter (fun x => x.2 != Lane.init),
             sec := { m.sec with level := lev, cores := [], coreMem := [], debugTok := none, pinsDriven := false } }
  else { m with sec := { m.sec with level := lev } }

/-- A change of the debug level, with 1004h: qualifier and session (R490). -/
def changeLevel (lev qual session : Nat) (m : Module) : Module :=
  if m.sec.level = lev then m else mgmtEvent 0x0E00 0x1004 0 qual lev session 0 (setLevel lev m)

/-- D2 and D3 fall to D1 at PFAIL, and halts end (R486). -/
def lowerDebug (m : Module) : Module := if 2 ≤ m.sec.level then changeLevel 1 0 0 m else m

/-- Entry to DEEP ends the debug level and every token (R485, R486). -/
def deepDebug (m : Module) : Module :=
  changeLevel 0 0 0 { m with sec := { m.sec with debugTok := none, serviceTok := none, rmaTok := none } }

/-- A block's enable for a power state: RUN_EN, SLEEP_EN or DEEP_EN; RIDE-THROUGH keeps RUN_EN in FULL. -/
def permitted (m : Module) (state b : Nat) : Bool :=
  match state with
  | 0 => m.cfgOn (Ent.gateRunEn b)
  | 1 => m.cfgOn (Ent.gateSleepEn b)
  | 2 => m.cfgOn (Ent.gateDeepEn b)
  | _ => true

/-- Gate requests for the blocks that are not permitted, clocks for those that are. -/
def applyGates (m : Module) : Module :=
  let st := m.stat Ent.pwrState
  forL gateBlocks (fun b m =>
    let reqs := m.power.gateReq.filter (· != b)
    if permitted m st b then { m with power := { m.power with gateReq := reqs } }.setStat (Ent.gateGated b) 0
    else if m.stat (Ent.gateGated b) = 0 then { m with power := { m.power with gateReq := reqs ++ [b] } }
    else m) m

/-- A change of power state (R462): `wake` is the wake source bit, FFh for none. -/
def setPower (st wake : Nat) (m : Module) : Module :=
  if m.stat Ent.pwrState = st then m else powerEvent 0x0F07 st wake 0 (applyGates (m.setStat Ent.pwrState st))

/-- A permitted block gates its own clock after 256 idle cycles (R459). -/
def selfGate (b : Nat) (m : Module) : Module :=
  if permitted m (m.stat Ent.pwrState) b then m.setStat (Ent.gateGated b) 1 else m

def execSelfGate (b : Fin 14) (s : State) : Host.Outcome State Fault Refusal := s.run (selfGate b)

/-- An access wakes a self-gated block (R460). -/
def wakeBlock (b : Nat) (m : Module) : Module :=
  if m.stat (Ent.gateGated b) != 0 && permitted m (m.stat Ent.pwrState) b then (m.setStat (Ent.gateGated b) 0).bump (Ent.gateWakes b) else m

/-- A block acknowledges a gate request; `deferral` is in cycles of the block (R460). -/
def gateAck (b deferral : Nat) (m : Module) : Module :=
  if m.power.gateReq.contains b then
    ({ m with power := { m.power with gateReq := m.power.gateReq.filter (· != b) } }.setStat (Ent.gateGated b) 1).peak (Ent.gateMaxDefer b) (min deferral 65535)
  else m

def execGateAck (b : Fin 14) (deferral : Nat) (s : State) : Host.Outcome State Fault Refusal := s.run (gateAck b deferral)

/-- DEEP is reached (R462). -/
def execDeepEntered (s : State) : Host.Outcome State Fault Refusal :=
  s.runE (fun m => if m.power.deepEntry then setPower 2 0xFF (deepDebug { m with power := { m.power with deepEntry := false } }) else m)

/-- A wake source of `pwr.wake_mask` is met (R462). -/
def wakeSource (k : Nat) (m : Module) : Module :=
  if !bit (m.cfg Ent.pwrWakeMask) k then m
  else if m.power.deepEntry then { m with power := { m.power with deepEntry := false } }
  else if m.stat Ent.pwrState = 2 then setPower 1 k (seedTime (m.setStat Ent.pwrLastWake k))
  else m

def execWakeSource (k : Fin 5) (s : State) : Host.Outcome State Fault Refusal := s.runE (wakeSource k)

/-! ### Starting the clocks (R454 to R457) -/

def setStage (st : ClkStage) (m : Module) : Module := { m with power := { m.power with stage := st } }

/-- The period of the core clock in ps. -/
def setPeriod (ps : Nat) (m : Module) : Module := { m with tick := { m.tick with periodPs := ps } }

/-- POWER_ON: the supply is good; the RC oscillator and the TCXO are enabled, and 1104h says why the module comes up (R454, R510). -/
def powerOn (m : Module) : Module :=
  if m.power.stage = .off ∧ m.power.insertion = .released ∧ m.power.pwrOk = true then
    let c := m.power.nextCause
    let m := (setStage .rcCount m).setStat Ent.bootCause c
    if range 1 3 c then moduleEvent 0x1104 c (m.stat Ent.modChargeMs) m else m
  else m

def execPowerOn (s : State) : Host.Outcome State Fault Refusal := s.runE powerOn

/-- The RC has counted 4,096 cycles: the first attempt of the TCXO begins. -/
def execRcCountComplete (s : State) : Host.Outcome State Fault Refusal :=
  s.run (fun m => if m.power.stage = .rcCount then (setStage .tcxoCount m).setStat Ent.clkTcxoAttempts 1 else m)

/-- The TCXO's count has succeeded: the PLLs are enabled. -/
def execTcxoCountComplete (s : State) : Host.Outcome State Fault Refusal :=
  s.run (fun m => if m.power.stage = .tcxoCount then setStage .plls m else m)

/-- An attempt fails (R454, R455); after the fourth the module boots on the RC at 16 MHz. -/
def tcxoFail (m : Module) : Module :=
  if m.power.stage = .tcxoCount then
    let n := m.stat Ent.clkTcxoAttempts
    let m := powerEvent 0x0F06 n (m.stat Ent.clkStep) 0 m
    if n < 4 then m.setStat Ent.clkTcxoAttempts (n + 1)
    else powerEvent 0x0F05 1 (m.stat Ent.clkStep) 0 (bootFault 0 (setPeriod 62500 (((setStage .run m).setStat Ent.clkFault 1).setStat Ent.clkSource 0)))
  else m

def execTcxoAttemptFail (s : State) : Host.Outcome State Fault Refusal := s.runE tcxoFail

/-- Islands that start directly on a PLL (Table 15.2). -/
def pllIslands : Nat → List Island
  | 0 => [.loop, .motion, .fieldBus]
  | 1 => [.time]
  | 2 => [.analog]
  | _ => [.dram]

/-- The monitor is armed when the last switch completes (R454). -/
def armMonitor (m : Module) : Module :=
  if m.power.stage = .plls ∧ m.stat Ent.clkPllLock = 15 ∧ m.power.onPll.contains .mgmt = true then
    ((setStage .run m).setStat Ent.clkMonitorArmed 1).setStat Ent.clkSource 1
  else m

/-- A PLL locks (R453). -/
def pllLock (p : Nat) (m : Module) : Module :=
  if m.power.stage = .plls ∧ bit (m.stat Ent.clkPllLock) p = false then
    let m := m.setStat Ent.clkPllLock (m.stat Ent.clkPllLock + 2 ^ p)
    let sw := if p = 0 then m.power.switching ++ [.mgmt] else m.power.switching
    armMonitor { m with power := { m.power with onPll := m.power.onPll ++ pllIslands p, switching := sw } }
  else m

def execPllLock (p : Fin 4) (s : State) : Host.Outcome State Fault Refusal := s.run (pllLock p)

/-- The coasting period of step 0 behind a period of some step: floors lie below twice one another (R470). -/
def floorPeriod (p : Nat) : Nat := if p < 11656 then p else if p < 23312 then p / 2 else p / 4

/-- Core period of a ride-through step in ps; under CLOCK_FAULT the floor (Table 15.6, R470). -/
def stepPeriod (base step : Nat) : Nat := base * 2 ^ step

/-- The coasting core period in ps: 156 MHz ±10 % leaves it open within bounds (Table 15.2). -/
def coastPeriod (v : Nat) : Nat := 5828 + v % 1295

/-- An island's switch completes (R457): counted; where the loop island switches, the tick is longer by 3 old and 5 new periods. -/
def switchComplete (i : Island) (m : Module) : Module :=
  if m.power.switching.contains i then
    let m := { m with power := { m.power with switching := m.power.switching.filter (· != i) } }.bump Ent.clkSwitches
    match i with
    | .mgmt => if m.power.stage = .plls then armMonitor { m with power := { m.power with onPll := m.power.onPll ++ [.mgmt] } } else m
    | .loop =>
      let old := m.tick.periodPs
      let new := stepPeriod (if m.cfault then floorPeriod old else 5000) (m.stat Ent.clkStep)
      let t := { m.time with ctr := m.time.ctr + (3 * old + 5 * new) * m.time.incr / 8000 }
      (setPeriod new { m with time := t }).setStat Ent.clkLoopHz (1000000000000 / max 1 new)
    | _ => m
  else m

def execDomainSwitchComplete (i : Island) (s : State) : Host.Outcome State Fault Refusal := s.run (switchComplete i)

/-! ### The clock monitor (R456) -/

/-- The tick enters STRETCHED. -/
def stretch (m : Module) : Module := { m with tick := { m.tick with disc := .stretched } }

/-- The monitor trips on the TCXO or on a PLL's loss of lock: the PLLs coast. -/
def monitorTrip (pll : Bool) (m : Module) : Module :=
  if m.stat Ent.clkMonitorArmed = 0 ∨ m.cfault = true then m
  else
    let (v, m) := takeFree m
    let ps := coastPeriod v * 2 ^ m.stat Ent.clkStep
    let m := ((((m.setStat Ent.clkFault 1).setStat Ent.clkSource 2).setStat Ent.clkPllLock 0).setStat Ent.clkLoopHz (1000000000000 / ps))
    let m := stretch (setPeriod ps m)
    let m := if m.time.st = .locked ∨ m.time.st = .acquiring ∨ m.time.st = .master then timeEvent 0x0D02 0 m.time.offset (holdover m) else m
    let m := forL (upPorts m) (fun p m => releaseWire p m) m
    wantRelease 3 (powerEvent 0x0F05 (if pll then 2 else 1) (m.stat Ent.clkStep) 0 m)

def execClockMonitorTrip (pll : Bool) (s : State) : Host.Outcome State Fault Refusal := s.runE (monitorTrip pll)

/-- An RC failure (R456): the Lodestone watchdog runs from the TCXO. -/
def execRcFault (s : State) : Host.Outcome State Fault Refusal :=
  s.runE (fun m => if m.stat Ent.clkRcFault = 0 then powerEvent 0x0F05 3 (m.stat Ent.clkStep) 0 (m.setStat Ent.clkRcFault 1) else m)

/-- An uncorrectable ECC error in loop memory or the process image is a cause of release (R438). -/
def execUncorrectableEccError (s : State) : Host.Outcome State Fault Refusal := s.run (wantRelease 4)

/-! ### Ride-through (R465 to R470) -/

/-- Input power of a step, in tenths of a watt (Table 15.6). -/
def stepPower : Nat → Nat
  | 0 => 120 | 1 => 70 | _ => 45

/-- Power of a step × t_rem ≤ E − 0.02 J (R469): W × bytes / 12.8 is in µJ. -/
def stepFits (work e s : Nat) : Bool := decide (stepPower s * work + 20000 * 128 ≤ e * 128)

/-- The step the governor chooses, never faster than the one it holds (R469). -/
def chooseStep (work e held : Nat) : Nat :=
  if held = 0 ∧ stepFits work e 0 = true then 0 else if held ≤ 1 ∧ stepFits work e 1 = true then 1 else 2

/-- The governor's choice is taken: a step change is a switch of the loop and management islands, and 0F03h. -/
def governor (m : Module) : Module :=
  let held := m.stat Ent.clkStep
  let s := chooseStep m.power.workBytes m.energy held
  if s = held then m
  else
    let sw := (m.power.switching.filter fun i => i != .loop && i != .mgmt) ++ [.loop, .mgmt]
    powerEvent 0x0F03 0 s m.power.sincePfail (({ m with power := { m.power with switching := sw } }.setStat Ent.clkStep s).peak Ent.pwrLastMinStep s)

/-- The last step of Table 14.13: every item of the journal from the states as they stand (R468). -/
def journalAll (m : Module) : Module :=
  let m := forL ((List.range 64).filter fun r => m.active (fnRecipe r)) journalRun m
  let m := forL (m.motion.axes.map Prod.fst) (fun a m =>
    let x := m.axis a
    journal (fun j => match j with | .axis b _ _ _ => b == a | _ => false) (.axis a x.prof.p x.prof.t x.homed) m) m
  retainTime m

/-- Outputs switch off at PERSIST entry (R468): stages, discrete outputs, step drivers, transceivers. -/
def outputsOff (m : Module) : Module :=
  let m := { m with power := { m.power with outputs := false } }
  let m := forL (upChans m) (fun c m => modChan c (fun x => { x with stage := false }) m) m
  let m := { m with io := { m.io with doLatch := 0 }, acq := { m.acq with trigOut := 0 } }.setStat Ent.doCommanded 0
  forL (upPorts m) (fun p m => releaseWire p m) m

/-- PERSIST begins (R468). The journal's length is open within its bound of 57,344 bytes (R466). -/
def enterPersist (m : Module) : Module :=
  if m.power.ride = .persist ∨ m.power.ride = .held then m
  else
    let m := if m.power.ride = .full then m.setStat Ent.pwrLastFullUs m.power.sincePfail else m
    let m := outputsOff { m with red := { m.red with hold := false, computing := false, releaseDue := none } }
    let m := if m.lockstep || m.red.st == 1 then clearLockstep (setRed 5 m.red.reason (freeWithheld m)) else m
    let m := forL (gateBlocks.filter fun b => b != 0 && b != 1 && b != 13) (fun b m => m.setStat (Ent.gateGated b) 1) m
    let (v, m) := takeFree m
    let j := v % 57345
    let p := { m.power with ride := .persist, persistUs := 0, journalBytes := j, workBytes := j + 64 * m.agate.queue.length + 512, gateReq := [], deepEntry := false }
    let m := stretch ({ m with power := p }.setStat Ent.pwrState 5)
    governor (powerEvent 0x0F02 0 (m.stat Ent.clkStep) m.power.sincePfail m)

/-- A SAVE in progress is abandoned (R61). -/
def abandonSave (m : Module) : Module := { m with odp := { m.odp with save := none } }.setStat Ent.cfgSaveState 0

/-- PFAIL with the bank voltage measured at it, in mV (R467). -/
def pfail (mv : Nat) (m : Module) : Module :=
  if m.power.ride != .none then m
  else
    let prev := m.stat Ent.pwrState
    let p := { m.power with ride := .full, prevState := prev, sincePfail := 0, inputGood := false }
    let m := ((({ m with power := p }.setStat Ent.pwrBankMv mv).setStat Ent.pwrBankUj (energyUj mv)).bump Ent.pwrRidethroughs).setStat Ent.pwrLastMinStep 0
    let m := powerEvent 0x0F01 0 (m.stat Ent.clkStep) 0 (wantRelease 2 (lowerDebug (abandonSave m)))
    if prev = 2 ∨ m.stat Ent.bootReady = 0 then enterPersist m else m.setStat Ent.pwrState 5

def execPfail (bankMv : Nat) (s : State) : Host.Outcome State Fault Refusal := s.runE (pfail bankMv)

/-- PFAIL that skips FULL: a removal or a thermal trip (R493, R506, R507). -/
def skipFull (m : Module) : Module :=
  let m := if m.power.ride = .none then { m with power := { m.power with prevState := m.stat Ent.pwrState, sincePfail := 0, inputGood := true } } else m
  enterPersist (lowerDebug (abandonSave m))

/-- `pwr.full_ms` has passed since PFAIL. -/
def execFullTimeout (s : State) : Host.Outcome State Fault Refusal :=
  s.runE (fun m => if m.power.ride = .full then enterPersist { m with power := { m.power with sincePfail := max m.power.sincePfail (m.cfg Ent.pwrFullMs * 1000) } } else m)

/-- A 10 µs measurement (R464, R469): FULL ends at the reserve; in PERSIST 128 bytes of the journal have been written since the last one, and the governor chooses. -/
def bankMeasure (mv : Nat) (m : Module) : Module :=
  let m := (m.setStat Ent.pwrBankMv mv).setStat Ent.pwrBankUj (energyUj mv)
  match m.power.ride with
  | .full =>
    let m := { m with power := { m.power with sincePfail := m.power.sincePfail + 10 } }
    if m.energy ≤ 132500 then enterPersist m else m
  | .persist =>
    let d := min 128 m.power.journalBytes
    let p : Power := { m.power with sincePfail := m.power.sincePfail + 10, persistUs := m.power.persistUs + 10, journalBytes := m.power.journalBytes - d, workBytes := m.power.workBytes - d }
    let m := { m with power := p }
    governor (if p.journalBytes == 0 && decide (0 < d) then journalAll m else m)
  | _ => m

def execBankMeasurement (mv : Nat) (s : State) : Host.Outcome State Fault Refusal := s.runE (bankMeasure mv)

/-- RECORD_WRITE (R378, R383, R387, R390, R468): in PERSIST the journal lies behind, and 64 bytes of work fewer remain. -/
def recordStep (m : Module) : Module :=
  if m.power.ride = .persist then
    let m := if m.power.journalBytes = 0 then m else journalAll { m with power := { m.power with journalBytes := 0, workBytes := m.power.workBytes - m.power.journalBytes } }
    let n := m.agate.queue.length
    let m := recordWrite m
    { m with power := { m.power with workBytes := m.power.workBytes - 64 * (n - m.agate.queue.length) } }
  else recordWrite m

def execRecordWrite (s : State) : Host.Outcome State Fault Refusal := s.runE recordStep

/-! ### Boot (R468, R504, R511 to R513) -/

/-- The module after a reset: what is not kept in MRAM, flash or the Gneiss domain is as R513 has it. -/
def resetModule (cause : Nat) (m : Module) : Module :=
  let r := Module.reset
  let c := m.nv.clean
  let nv := { m.nv with powerUps := m.nv.powerUps + 1 }
  let x := { r with
    nv := nv, cal := m.cal, out := m.out, free := m.free,
    red := { r.red with lines := m.red.lines, pwrOk := m.red.pwrOk },
    power := { r.power with insertion := m.power.insertion, nextCause := cause } }
  let x := (x.setStat Ent.modSlot (m.stat Ent.modSlot)).setStat Ent.modChargeMs (m.stat Ent.modChargeMs)
  match c with
  | some d => ((x.setStat Ent.pwrLastPersistUs d.lastPersistUs).setStat Ent.pwrLastMinStep d.minStep).setStat Ent.pwrLastEndUj d.endUj
  | none => x

/-- Persistence is done: the clean-down record is written and the module holds itself in reset (R468). -/
def persistComplete (m : Module) : Module :=
  if m.power.ride = .persist ∧ m.agate.queue.isEmpty = true then
    let m := saveDescr (journalAll m)
    let d : CleanDown := ⟨m.now, m.power.nextCause, m.power.persistUs, m.energy, m.stat Ent.pwrLastMinStep⟩
    let m := { m with nv := { m.nv with clean := some d }, power := { m.power with ride := .held, workBytes := 0, journalBytes := 0 } }
    let m := forL gateBlocks (fun b m => m.setStat (Ent.gateGated b) 1) m
    if m.power.inputGood && !m.power.thermalHold && m.power.insertion == .released then resetModule 3 m else m
  else m

def execPersistComplete (s : State) : Host.Outcome State Fault Refusal := s.runE persistComplete

/-- The input stands restored (R465, R467, R468, R470). -/
def inputRestored (m : Module) : Module :=
  match m.power.ride with
  | .full =>
    let since := m.power.sincePfail
    let m := { m with power := { m.power with ride := .none, inputGood := true } }.setStat Ent.pwrLastFullUs since
    powerEvent 0x0F04 0 (m.stat Ent.clkStep) since (m.setStat Ent.pwrState m.power.prevState)
  | .persist => { m with power := { m.power with inputGood := true } }
  | .held => if !m.power.thermalHold && m.power.insertion == .released then resetModule 3 m else { m with power := { m.power with inputGood := true } }
  | .none => m

def execInputRestored (s : State) : Host.Outcome State Fault Refusal := s.runE inputRestored

/-- The module loses its supply: BACKUP or OFF (Table 15.4). -/
def unpowered (m : Module) : Module :=
  let r := Module.reset
  { r with
    nv := m.nv, cal := m.cal, out := m.out, free := m.free,
    power := { r.power with insertion := if m.power.insertion = .released then .seated else m.power.insertion, pwrOk := false, diode := false, gneissMain := false, inputGood := false }
    red := { r.red with driving := false } }

/-- The bank runs out during PERSIST or while the module is held in reset (R468, R469). -/
def execBankExhausted (s : State) : Host.Outcome State Fault Refusal :=
  s.run (fun m => if m.power.ride = .persist ∨ m.power.ride = .held then unpowered m else m)

/-! ### Thermal (R493) -/

/-- The two temperatures, in m°C, as read. -/
def setTemps (plate soc : Int) (m : Module) : Module :=
  let m := (m.setStat Ent.modPlateTemp (uint 32 plate)).setStat Ent.modSocTemp (uint 32 soc)
  if sint 32 (m.stat Ent.modPlateTempMax) < plate then m.setStat Ent.modPlateTempMax (uint 32 plate) else m

/-- The face crosses the warning, or falls 2 °C below it. -/
def thermalWarning (plate soc : Int) (m : Module) : Module :=
  let m := setTemps plate soc m
  let lim := m.cfgI32 Ent.modThermalWarn
  if m.stat Ent.modThermal = 0 then (if lim ≤ plate then moduleEvent 0x1101 1 0 (m.setStat Ent.modThermal 1) else m)
  else if plate ≤ lim - 2000 then moduleEvent 0x1101 0 0 (m.setStat Ent.modThermal 0) else m

def execThermalWarning (plate soc : Int) (s : State) : Host.Outcome State Fault Refusal := s.runE (thermalWarning plate soc)

/-- A trip: PERSIST at once, then reset until the face has cooled (R493, R507). -/
def thermalTrip (junction : Bool) (plate soc : Int) (m : Module) : Module :=
  if m.power.ride = .held ∨ m.power.thermalHold = true then m
  else
    let m := moduleEvent 0x1102 (if junction then 2 else 1) 0 (setTemps plate soc m)
    skipFull { m with power := { m.power with thermalHold := true } }

def execThermalTrip (junction : Bool) (plate soc : Int) (s : State) : Host.Outcome State Fault Refusal := s.runE (thermalTrip junction plate soc)

/-- The face has read below 65 °C for 10 s (R493). -/
def execThermalCooldown (plate soc : Int) (s : State) : Host.Outcome State Fault Refusal :=
  s.runE (fun m => if m.power.ride = .held ∧ m.power.thermalHold = true ∧ m.power.insertion = .released ∧ plate < 65000 then resetModule 2 (setTemps plate soc m) else m)

/-! ### Insertion and removal (R504 to R507) -/

def setInsertion (i : Insertion) (m : Module) : Module := { m with power := { m.power with insertion := i } }

/-- Table 17.8, step 2. -/
def execChargeStart (s : State) : Host.Outcome State Fault Refusal :=
  s.run (fun m =>
    let ready := m.power.insertion == .out || m.power.insertion == .seated || (m.power.insertion == .removed && m.power.ride == .held)
    if ready then setInsertion .charging { m with power := { m.power with charger := true } } else m)

/-- Step 3. -/
def execInsertionAbandoned (s : State) : Host.Outcome State Fault Refusal :=
  s.run (fun m =>
    let early := m.power.insertion == .charging || m.power.insertion == .charged || m.power.insertion == .rails
    if early then
      setInsertion .out { m with power := { m.power with charger := false, diode := false }, nv := { m.nv with aborted := m.nv.aborted + 1 } }
    else m)

/-- Step 4: `ms` is the charge time. -/
def execBankCharged (ms : Nat) (s : State) : Host.Outcome State Fault Refusal :=
  s.run (fun m => if m.power.insertion = .charging then
    (setInsertion .charged { m with power := { m.power with charger := false, diode := true } }).setStat Ent.modChargeMs (min ms 65535) else m)

/-- Step 5: SLOT[3:0] is latched, RELEASE driven, the Gneiss domain taken onto the module supply. -/
def execRailsGood (slot : Fin 16) (s : State) : Host.Outcome State Fault Refusal :=
  s.run (fun m => if m.power.insertion = .charged then
    (setInsertion .rails { m with power := { m.power with gneissMain := true }, red := { m.red with driving := true, hold := false } }).setStat Ent.modSlot slot else m)

/-- Step 6: PWR_OK, and reset released. -/
def execResetRelease (s : State) : Host.Outcome State Fault Refusal :=
  s.run (fun m => if m.power.insertion = .rails then resetModule 1 (setInsertion .released m) else m)

/-- A removal (R506): 1103h ahead of the persistence work, PERSIST at once, PWR_OK deasserted. -/
def removal (contact : Nat) (m : Module) : Module :=
  if m.power.insertion = .released then
    let m := m.setStat Ent.modPresent (Nat.land (m.stat Ent.modPresent) (3 - 2 ^ contact))
    let m := moduleEvent 0x1103 0 0 { m with nv := { m.nv with removals := m.nv.removals + 1 } }
    let m := skipFull (setInsertion .removed m)
    { m with power := { m.power with pwrOk := false, diode := false, inputGood := false } }
  else m

def execRemoval (contact : Fin 2) (s : State) : Host.Outcome State Fault Refusal := s.runE (removal contact)

/-- A contact reads asserted again within 10 µs (R506). -/
def execPresentNGlitch (_ : Fin 2) (s : State) : Host.Outcome State Fault Refusal := s.run (fun m => m.bump Ent.modPresentGlitches)

end Sys2Proof.Machine
end

