-- ==== Sys2Proof/Machine/Functions.lean ====
section
/-! DEFINITION. The function state table (R50 to R58): the checks of START, START and STOP, and the moments at which they take effect. -/

namespace Sys2Proof.Machine

/-! ### The table -/

/-- The state as `func[f].state` gives it (Table 2.6). -/
def FState.code : FState → Nat
  | .stopped => 0 | .starting => 1 | .running => 2 | .stopping => 3

/-- The parent of a function (Table 2.5, R81). -/
def parentOf (m : Module) (f : Nat) : Option Nat :=
  if f < 0x400 then some (fnGroup (m.slotGroup f))
  else if range 0x400 0x407 f || range 0x409 0x410 f || f == 0x480 || range 0x4A0 0x4C7 f || range 0x500 0x587 f then some fnEngine
  else if range 0x440 0x47F f then some fnSlate
  else if range 0x488 0x48F f then some fnFlint
  else if range 0x5D0 0x5DF f then some fnStream
  else none

/-- A function has a child that is STARTING, RUNNING or STOPPING. -/
def hasChild (m : Module) (f : Nat) : Bool := m.funcs.any fun x => x.2.st != .stopped && parentOf m x.1 == some f

/-- The rate group of a function, by the block that is in use or will be (R55); none for a function without one. -/
def fnRate (m : Module) (f : Nat) : Option Nat :=
  let get : Get := m.getOf f
  if f < 0x400 then some (get (Ent.loopGroup f) % 8)
  else if range 0x400 0x407 f then some (f - 0x400)
  else if range 0x440 0x47F f then some (rcGroup (recipeImg m (f - 0x440)) % 8)
  else if range 0x4A0 0x4BF f then some (get (Ent.axisGroup (f - 0x4A0)) % 8)
  else if range 0x500 0x53F f then some (get (Ent.chanGroup (f - 0x500)) % 8)
  else if f == fnDi then some (get Ent.diGroup % 8)
  else if f == fnDo then some (get Ent.doGroup % 8)
  else if range 0x5D0 0x5DF f then some (get (Ent.winGroup (f - 0x5D0)) % 8)
  else none

/-! ### The check of a kernel image (R145) -/

/-- A placement that R130 refuses: an unplaceable word in a delay slot or a repeat, a repeat too near an RPTB, or one past the end. -/
def kimgMisplaced (count i kept near : Nat) (op : LaneOp) : Bool :=
  (decide (0 < kept) && op.unplaceable) ||
    (match op with
     | .rpt _ _ _ => decide (0 < near) || decide (count ≤ i + 1)
     | .rptb k _ _ _ => decide (0 < near) || decide (count ≤ i + k.val + 1)
     | _ => false)

/-- The words from word `i` on: the first that fails, and the reason. `kept` words still stand in a delay slot or a repeat, `near` in the 8 after an RPTB. -/
def kimgScan (count : Nat) : List Nat → Nat → Nat → Nat → Option (Nat × Nat)
  | [], _, _, _ => none
  | w :: ws, i, kept, near =>
    match laneDecode w with
    | none => some (i, 3)
    | some op =>
      let outside := match op with | .b _ t => decide (0x8000 + count ≤ t.toNat) | _ => false
      let holds := match op with | .b _ _ => 2 | .rpt _ _ _ => 1 | .rptb k _ _ _ => k.val + 1 | _ => 0
      let close := match op with | .rptb _ _ _ _ => 8 | _ => near - 1
      if op.romOnly then some (i, 4)
      else if outside then some (i, 5)
      else if kimgMisplaced count i kept near op then some (i, 6)
      else kimgScan count ws (i + 1) (max (kept - 1) holds) close

/-- The header, then the ROM version, the entry table, and the words: word index and reason (2900h:04, :05). -/
def kimgFinding (bs : List Byte) : Option (Nat × Nat) :=
  let w := kimgCount bs
  let k := kimgEntries bs
  let none32 := 0xFFFFFFFF
  if leAt bs 0 4 != 0x42534C4B || leAt bs 4 4 != 1 || !range 1 16384 w || !range 1 255 k || leAt bs 16 8 != 0 || leAt bs 24 8 != 0 ||
      decide ((imagePart bs).length ≠ 32 + 8 * k + 4 * w) then some (none32, 1)
  else if leAt bs 12 4 != 0 && leAt bs 12 4 != Config.romVersion % 2 ^ 32 then some (none32, 7)
  else if (List.range k).any (fun i => decide (w ≤ kimgOffset bs (i + 1)) || kimgCost bs (i + 1) == 0 || leAt bs (32 + 8 * i + 4) 4 != 0) then some (none32, 2)
  else kimgScan w ((List.range w).map (kimgWord bs)) 0 0 0

/-- Record the check of a kernel image, with the status it asks for. -/
def kimgVerdict (m : Module) : Nat × Module :=
  match kimgFinding (m.shadB Ent.kimgImage) with
  | some (at_, r) => (stBadValue, (m.setStat Ent.kimgCheckFailAt at_).setStat Ent.kimgCheckReason r)
  | none => (stOk, (m.setStat Ent.kimgCheckFailAt 0xFFFFFFFF).setStat Ent.kimgCheckReason 0)

/-- The kernel image that slots may name: the live one, or the one that an accepted START has copied into the program RAMs (R145). -/
def kimgInRam (m : Module) : List Byte :=
  if (m.fn fnKernel).st == .starting then m.shadB Ent.kimgImage else if m.running fnKernel then m.cfgB Ent.kimgImage else []

/-! ### The checks of START (R53) -/

/-- Output moves that a slot's START adds (R23, R91). -/
def slotExtra (m : Module) (n g : Nat) : Nat :=
  if m.shad (Ent.loopGroup n) % 8 = g then (addrs [m.shad (Ent.loopOutAddr n), m.shad (Ent.loopSpWord n)]).length else 0

/-- Output moves that the discrete outputs' START adds (R291). -/
def doExtra (m : Module) (g : Nat) : Nat :=
  if m.shad Ent.doGroup % 8 = g ∧ isAddr (m.shad Ent.doWordBase) = true then (if m.shad Ent.doWordMode = 0 then 2 else 32) else 0

/-- Words that the stream and the windows in use name (R344), `extra` being the entries of a START. -/
def namedWords (m : Module) (extra : List (Nat × Nat)) : Nat :=
  let listOf := fun f k => if m.stopped f then [] else chanEntries (if (m.fn f).st == .starting then m.shadB k else m.cfgB k)
  let all := listOf fnStream Ent.acqStreamList ++ (List.range 16).flatMap (fun w => listOf (fnWin w) (Ent.winList w)) ++ extra
  (all.filter fun c => bits c.1 31 30 == 0).map (fun c => bits c.1 17 0) |>.eraseDups |>.length

/-- The capacity checks of a window's START (R344, R355, R356). -/
def winFits (m : Module) (w : Nat) : Bool :=
  let sizes := ((List.range 16).filter fun v => v != w && !m.stopped (fnWin v)).map fun v => m.getOf (fnWin v) (Ent.winSizeMb v)
  let cs := chanEntries (m.shadB (Ent.winList w))
  let n := cs.length
  let sample := 16 + 4 * n + (20 * n + 7) / 8
  let slot := m.shad (Ent.winSizeMb w) * 1048576 / max 1 (m.shad (Ent.winSlots w))
  let room := if m.shad (Ent.winPacking w) = 0 then slot else 4 * slot
  decide (sizes.sum + m.shad (Ent.winSizeMb w) ≤ 2048) && decide ((m.shad (Ent.winPre w) + m.shad (Ent.winPost w)) * sample ≤ room) &&
    decide (namedWords m cs ≤ 7680)

/-- The capacity checks of the stream's START (R344, R352). -/
def streamFits (m : Module) : Bool :=
  let cs := chanEntries (m.shadB Ent.acqStreamList)
  decide (rawRate m cs ≤ if m.shad Ent.acqStreamLink = 2 then 100000000 else 1000000000) && decide (namedWords m cs ≤ 7680)

/-- Step 4: the capacities, R18 and R23 among them. -/
def capacityFits (m : Module) (f : Nat) : Bool :=
  gatherFits m f &&
    (if f < 0x400 then extraFits m (slotExtra m f)
     else if range 0x400 0x407 f then movesFit (fun g => if g = f - 0x400 then m.shad (Ent.groupPhase g) else livePhase m g) (groupMoves m)
     else if f == fnSlate then extraFits m (fun g => ((valveShadow m).filter fun v => v.2.2.1 == g).length)
     else if f == fnDo then extraFits m (doExtra m)
     else if range 0x580 0x587 f then extraFits m (portMoves m.shad (f - 0x580))
     else if f == fnStream then streamFits m
     else if range 0x5D0 0x5DF f then winFits m (f - 0x5D0)
     else true)

/-- Words that a function's START claims are free (R34). -/
def claimsFree (m : Module) (f : Nat) : Bool := (claims m.shad m.shadB f).all fun a => isAddr a && freeFor m f a

/-- A START that fails for one value. -/
def badIf (c : Bool) (m : Module) : Nat × Module := (if c then stBadValue else stOk, m)

/-- The checks of a slot's START (R84, R98, R172). -/
def slotCheck (n : Nat) (m : Module) : Nat × Module :=
  let k := m.shad (Ent.loopKernel n)
  let inner := m.shad (Ent.loopCasInner n)
  if k != 0 && (decide (kimgEntries (kimgInRam m) < k) || kimgCost (kimgInRam m) k == 0) then (stBadValue, m)
  else if bit (m.shad (Ent.loopOptions n)) 3 && (decide (1024 ≤ inner) || inner == n) then (stBadValue, m)
  else match loopFinding m n with
    | some r => (graphStatus r, noteGraph (some (n, r)) m)
    | none => (stOk, m)

/-- The loop engine's START (R455, R458, Table 18.2). -/
def engineCheck (m : Module) : Nat :=
  if m.power.dramFault || (m.cfault && m.stat Ent.clkSource == 0) then stBusy
  else if m.cfg Ent.clkMgmtDiv == 8 || m.cfg Ent.clkMotionDiv == 32 then stBadValue else stOk

/-- Step 5: the check of the function's own chapter, with what it records. -/
def ownCheck (f : Nat) (m : Module) : Nat × Module :=
  if f < 0x400 then slotCheck f m
  else if f == fnEngine then (engineCheck m, m)
  else if f == fnDisp then
    (match poolFinding m with
     | some (d, r) => (graphStatus r, noteGraph (some (d, r)) m)
     | none => (stOk, m))
  else if f == fnKernel then kimgVerdict m
  else if f == fnSlate then badIf ((valveShadow m).any fun v => !freeFor m fnSlate v.2.1) m
  else if range 0x440 0x47F f then recipeStartCheck (f - 0x440) m
  else if f == fnFlint then flintVerdict (m.shadB Ent.flintImage) m
  else if range 0x488 0x48F f then badIf (((flintInUse m).tasks.getD (f - 0x488) ⟨0, 0, 0, 0, 0⟩).period == 0) m
  else if range 0x4A0 0x4BF f then badIf (axisBad m (f - 0x4A0) || !claimsFree m f) m
  else if range 0x4C0 0x4C7 f then badIf (mgroupBad m (f - 0x4C0)) m
  else if range 0x500 0x53F f then badIf (chanBad m (f - 0x500) || !claimsFree m f) m
  else if f == fnDi then badIf (!claimsFree m f) m
  else if range 0x548 0x549 f then (trunkStartCheck (freeFor m f) m (f - 0x548), m)
  else if range 0x580 0x587 f then portStartCheck (freeFor m f) (f - 0x580) m
  else (stOk, m)

/-- A DOM transfer into a function's shadow block is open. -/
def transferOpen (m : Module) (f : Nat) : Bool :=
  m.odp.domWrites.any fun x => ownerOf x.key == some f && (match rowAt (x.key / 256) (x.key % 256) with | some r => r.acc == .rws | none => false)

/-- A port whose START the gather or the writer has no room for records reason 6 (R335). -/
def noteCapacity (f : Nat) (m : Module) : Module := if range 0x580 0x587 f then portCheckNote (f - 0x580) 6 0xFFFF m else m

/-- The steps of R53 in order: the status, and what the checks record. The CRC check disarms the expected CRC (R54). -/
def startChecks (f : Nat) (m : Module) : Nat × Module :=
  if (match parentOf m f with | some p => !m.up p | none => false) then (stParentStopped, m)
  else if transferOpen m f then (stBusy, m)
  else
    let crc := crc32c (blockImage m true f)
    let wrong := (m.fn f).armed && (m.fn f).expectedCrc != crc
    let m := m.modFn f (fun x => { x with startCrc := crc, armed := false })
    if wrong then (stCfgCrc, m)
    else if !capacityFits m f then (stOutCapacity, noteCapacity f m)
    else ownCheck f m

/-! ### Changes of state -/

/-- A function's state changes now (R51, R523). -/
def setFState (f : Nat) (st : FState) (m : Module) : Module := m.modFn f fun x => { x with st := st, lastChange := m.tick.epoch }

/-- Slots that are STARTING or RUNNING (2800h:01). -/
def countSlots (m : Module) : Module :=
  m.setStat Ent.engineSlotsRunning (m.funcs.filter fun e => decide (e.1 < 1024) && (e.2.st == .starting || e.2.st == .running)).length

/-- Set some RO entries to 0. -/
def zeroStats (ks : List Nat) (m : Module) : Module := forL ks (fun k m => m.setStat k 0) m

/-- The loop engine's START takes effect: epoch 0 (R37, R523). -/
def engineStart (m : Module) : Module :=
  let m := zeroStats [Ent.engineOverruns, Ent.engineSwaps, Ent.tickLongTicks, Ent.tickShortTicks, Ent.laneBudgetFaults, Ent.laneFetchFaults,
    Ent.dispCancelRace, Ent.dispCancelPrefetch, Ent.dispRetired, Ent.dispTagsDiscarded] m
  let t := { m.tick with epoch := some 0, lastEpoch := 0, epoch0 := m.now, marsh := [], strobed := [], abs := 0, groupAbs := [] }
  { m with tick := t, disp := { m.disp with insts := [], tags := [], hooks := [], released := none }, time := { m.time with aligned := true, runStep := 0 } }

/-- The loop engine's stop completes: the epoch runs no more, the override table goes, and the module moves to SLEEP (R37, R217, R462). -/
def engineStop (m : Module) : Module :=
  let m := { m with tick := { m.tick with epoch := none }, flint := { m.flint with holdOvr := false },
                    disp := { m.disp with insts := [], tags := [], hooks := [], released := none } }
  setPower 1 0xFF m

/-- A rate group's START takes effect: what is counted since START begins anew. -/
def groupStart (g : Nat) (m : Module) : Module :=
  let m := zeroStats [Ent.groupMinSlack g, Ent.groupOverrunEvents g] m
  { m with loop := { m.loop with slack := Sparse.set (fun _ => none) m.loop.slack g none } }

/-- The dispatcher's START takes effect: the pool is live (R154, R171, R174). -/
def dispStart (m : Module) : Module :=
  let pool := poolList (m.cfgB Ent.dispGraph)
  let m := zeroStats ([Ent.dispMigrations, Ent.dispPops, Ent.dispReadyPeak, Ent.dispLateRuns] ++
    (List.range 8).flatMap fun g => [Ent.dispGroupRetired g, Ent.dispGroupLate g, Ent.dispGroupLastReady g]) m
  let m := forL pool (fun x m => setDesc x.1 (some x.2) m) m
  countDescs ((m.setStat Ent.dispPoolUsed pool.length).setStat Ent.dispPoolFree (15104 - pool.length))

/-- The dispatcher's stop completes: no pool descriptor is present. -/
def dispStop (m : Module) : Module :=
  let m := forL ((m.descs.filter fun x => decide (1280 ≤ x.1)).map Prod.fst) (fun d m => setDesc d none m) (cancelPool m)
  countDescs ((m.setStat Ent.dispPoolUsed 0).setStat Ent.dispPoolFree 15104)

/-- The entries that show the live kernel image (Table 4.13). -/
def kimgStats (bs : List Byte) (m : Module) : Module :=
  let m := (m.setStat Ent.kimgInstructions (kimgCount bs)).setStat Ent.kimgEntries (kimgEntries bs)
  forN 255 (fun i m => m.setStat (Ent.kimgEntryCost (i + 1)) (if i < kimgEntries bs then kimgCost bs (i + 1) else 0)) m

/-- START takes the values last written to a slot's mode request, setpoint and manual output; none of those writes is due any more (R84). -/
def dropSlotWrites (n : Nat) (m : Module) : Module :=
  { m with odp := { m.odp with pend := m.odp.pend.filter fun w => !(w.key == Ent.loopModeReq n || w.key == Ent.loopSp n || w.key == Ent.loopManOut n) } }

/-- A slot's START takes effect (R84, R154). -/
def slotBegins (n : Nat) (m : Module) : Module := dropSlotWrites n <| countDescs (setDesc n (some (loopDesc m false n)) (slotStart n m))

/-- A slot's stop completes: its descriptor goes, and its output word is to be written once (R111, R154). -/
def slotEnds (n : Nat) (m : Module) : Module :=
  let m := countDescs (setDesc n none (cancelSlot n m))
  if isAddr (m.cfg (Ent.loopOutAddr n)) then
    { m with loop := { m.loop with stopDue := m.loop.stopDue ++ [(n, m.cfg (Ent.loopGroup n) % 8)] } }
  else m

/-- What a START does at the instant at which it takes effect, the shadow block being live. -/
def startEffect (f : Nat) (m : Module) : Module :=
  if f < 0x400 then slotBegins f m
  else if range 0x400 0x407 f then groupStart (f - 0x400) m
  else if f == fnEngine then engineStart m
  else if f == fnDisp then dispStart m
  else if f == fnKernel then kimgStats (m.cfgB Ent.kimgImage) (m.setStat Ent.laneStoresSuppressed 0)
  else if f == fnSlate then slateStart m
  else if range 0x440 0x47F f then recipeStart (f - 0x440) m
  else if f == fnFlint then flintStart m
  else if range 0x488 0x48F f then taskStart (f - 0x488) m
  else if range 0x4A0 0x4BF f then axisStart (f - 0x4A0) m
  else if range 0x4C0 0x4C7 f then mgroupReset (f - 0x4C0) m
  else if range 0x500 0x53F f then chanStart (f - 0x500) m
  else if f == fnDi then diStart m
  else if f == fnDo then doStart m
  else if range 0x548 0x549 f then trunkStart (f - 0x548) m
  else if range 0x580 0x587 f then portStart (f - 0x580) m
  else if f == fnStream then streamStart m
  else if range 0x5D0 0x5DF f then winStart (f - 0x5D0) (m.tick.epoch.getD 0) m
  else if f == fnTime then timeStart m
  else m

/-- What the completion of a stop does. -/
def stopEffect (f : Nat) (m : Module) : Module :=
  if f < 0x400 then slotEnds f m
  else if f == fnEngine then engineStop m
  else if f == fnDisp then dispStop m
  else if f == fnKernel then kimgStats [] m
  else if f == fnSlate then slateStop m
  else if range 0x440 0x47F f then recipeStop (f - 0x440) m
  else if f == fnFlint then flintStop m
  else if range 0x4A0 0x4BF f then axisStop (f - 0x4A0) m
  else if range 0x4C0 0x4C7 f then mgroupReset (f - 0x4C0) m
  else if range 0x500 0x53F f then chanStop (f - 0x500) m
  else if f == fnDo then doStop m
  else if range 0x548 0x549 f then trunkStop (f - 0x548) m
  else if range 0x580 0x587 f then portStop (f - 0x580) (m.tick.epoch.getD 0) m
  else if range 0x5D0 0x5DF f then winStop (f - 0x5D0) m
  else if f == fnTime then timeStop m
  else m

/-- A START takes effect: the whole shadow block becomes live at once, and the function is RUNNING (R55). The epoch that a loop engine's START opens is its own. -/
def completeStart (f : Nat) (m : Module) : Module :=
  let m := makeLive f m
  let m := if f == fnEngine then setFState f .running (startEffect f m) else startEffect f (setFState f .running m)
  countSlots m

/-- A START that has passed its checks: STARTING. Where no base tick runs, a function without a rate group is RUNNING at once (R55, R523). The state before RUNNING leaves `last_change` to the effect. -/
def beginStart (f : Nat) (m : Module) : Module :=
  let m := countSlots (m.modFn f fun x => { x with st := .starting })
  if f == fnEngine then setPower 0 0xFF m
  else if !m.ticking && (fnRate m f).isNone then completeStart f m
  else m

/-- A START that has passed its checks, from a request of a session or of none (session 0). A trunk link asks its satellite first (R300): IN_PROGRESS then stands for the answer still to come. -/
def acceptStart (f session : Nat) (r : Req) (m : Module) : Nat × Module :=
  if range 0x548 0x549 f then
    let l := f - 0x548
    if (m.trunk l).waiting.isSome then (stBusy, m)
    else (stInProgress, trunkSend l (modTrunk l (fun x => { x with waiting := some (session, r) }) m))
  else (stOk, beginStart f m)

/-- The request that a START without one stands for: of a boot state, or latched (id 1). -/
def ownReq (f id : Nat) : Req := ⟨⟨0, 0, true, id⟩, 5, 0, 0, 0, f, []⟩

/-- A START that is refused leaves its code (Table 2.6). -/
def noteRefusal (f st : Nat) (m : Module) : Module := m.modFn f fun x => { x with lastError := st }

/-- The checks of a START and its beginning. -/
def checkedStart (f session : Nat) (r : Req) (m : Module) : Nat × Module :=
  let (st, m) := startChecks f m
  let (st, m) := if st = stOk then acceptStart f session r m else (st, m)
  if st = stOk ∨ st = stInProgress then (st, m) else (st, noteRefusal f st m)

/-- A latched START is checked and begins, or its code stands in `last_error` (R57). -/
def restart (f : Nat) (m : Module) : Module :=
  if (m.fn f).restart then (checkedStart f 0 (ownReq f 1) (m.modFn f (fun x => { x with restart := false }))).2 else m

/-- A stop completes (R56). The loop engine's leaves no epoch for `last_change`. -/
def completeStop (f : Nat) (m : Module) : Module :=
  let m := if f == fnEngine then setFState f .stopped (stopEffect f m) else stopEffect f (setFState f .stopped m)
  restart f (countSlots m)

/-- What a STOP does when it is accepted: the cancellations of R169, the aborts of R131, a pending change of Flint abandoned (R237). -/
def stopBegin (f : Nat) (m : Module) : Module :=
  if f < 0x400 then cancelSlot f m
  else if f == fnEngine || f == fnKernel then cancelLanes m
  else if f == fnDisp then cancelPool m
  else if f == fnFlint then flintAbandon 2 m
  else if range 0x548 0x549 f then cancelLink (f - 0x548) m
  else m

/-- The refusals of a STOP by the function's own chapter (R145, R172, R202, R257). -/
def stopRefused (m : Module) (f : Nat) : Bool :=
  if f == fnKernel then
    m.upSlots.any (fun n => m.getOf n (Ent.loopKernel n) != 0) ||
      (!m.stopped fnDisp && (poolList (if (m.fn fnDisp).st == .starting then m.shadB Ent.dispGraph else m.cfgB Ent.dispGraph)).any fun d => d.2.kind == 1)
  else if range 0x440 0x47F f then (m.rrun (f - 0x440)).st.live
  else if range 0x4C0 0x4C7 f then range 1 2 (m.mgroup (f - 0x4C0)).st
  else false

/-! ### START and STOP (Table 2.7) -/

/-- Count one in a U32 of a function's record (R518). -/
def satInc (v : Nat) : Nat := min (v + 1) 0xFFFFFFFF

/-- START of a function: the status, and the module after it. -/
def startFn (f session : Nat) (r : Req) (m : Module) : Nat × Module :=
  match (m.fn f).st with
  | .stopped => checkedStart f session r m
  | .stopping =>
    if (m.fn f).restart then (stOkNochange, m.modFn f fun x => { x with ignored := satInc x.ignored })
    else (stOk, m.modFn f fun x => { x with restart := true })
  | _ => (stOkNochange, m.modFn f fun x => { x with ignored := satInc x.ignored })

/-- STOP of a function. -/
def stopFn (f : Nat) (m : Module) : Nat × Module :=
  match (m.fn f).st with
  | .stopped => (stOkNochange, m)
  | .stopping =>
    if (m.fn f).restart then (stOk, m.modFn f fun x => { x with restart := false }) else (stOkNochange, m)
  | st =>
    if hasChild m f then (stChildrenRunning, noteRefusal f stChildrenRunning m)
    else if stopRefused m f then (stBusy, noteRefusal f stBusy m)
    else if st = .starting then
      let m := m.modFn f fun x => { x with st := .stopped, cancelled := satInc x.cancelled, lastChange := m.tick.epoch }
      (stOk, countSlots (if f == fnEngine then setPower 1 0xFF m else m))
    else
      let m := countSlots (stopBegin f (m.modFn f fun x => { x with st := .stopping }))
      (stOk, if !m.ticking && (fnRate m f).isNone then completeStop f m else m)

/-! ### The sample instants of functions (R55, R56, R209, R267) -/

/-- A START of a function takes effect at the sample instant of epoch `e`: its group samples, or it has none; a task's at its release tick. -/
def startsAt (m : Module) (e : Option Nat) (f : Nat) : Bool :=
  (m.fn f).st == .starting && f != fnEngine &&
    (match fnRate m f, e with
     | some g, some e => samples g e
     | some _, none => false
     | none, some e => if range 0x488 0x48F f then releaseTick m (f - 0x488) e else true
     | none, none => true)

/-- A stop completes at this instant. A task's completes at cycle 399 of a release tick, an axis's when it is at rest. -/
def stopsAt (m : Module) (e : Option Nat) (f : Nat) : Bool :=
  (m.fn f).st == .stopping && !range 0x488 0x48F f && !range 0x4A0 0x4BF f &&
    (match fnRate m f, e with
     | some g, some e => samples g e
     | some _, none => false
     | none, _ => true)

/-- Parents before children: the engine's and the parentless functions', then its children, then theirs. -/
def fnLevel (f : Nat) : Nat :=
  if f < 0x400 then 2
  else if range 0x440 0x47F f || range 0x488 0x48F f then 2
  else if range 0x5D0 0x5DF f || f == fnEngine then 0
  else 1

/-- Functions that meet a condition, parents first, in ascending number within each level. -/
def fnsBy (m : Module) (p : Nat → Bool) : List Nat :=
  let l := (m.funcs.map Prod.fst).filter p
  [0, 1, 2].flatMap fun k => l.filter fun f => fnLevel f == k

/-- The functions' STARTs and stops at a sample instant: stops first, so that a restart is STARTING from here. -/
def functionInstant (e : Option Nat) (m : Module) : Module :=
  let starts := fnsBy m (startsAt m e)
  let m := forL (fnsBy m (stopsAt m e)).reverse completeStop m
  let m := forL starts (fun f m => if (m.fn f).st = .starting then completeStart f m else m) m
  -- A task whose Flint has just started is released with it.
  forL ((List.range 8).map fnTask) (fun f m => if startsAt m e f then completeStart f m else m) m

/-- Stops of axes that are at rest after the motion of the instant (R267). -/
def axisStops (m : Module) : Module :=
  forL ((List.range 32).filter fun a => (m.fn (fnAxis a)).st == .stopping && axisAtRest m a) (fun a m => completeStop (fnAxis a) m) m

/-! ### FLINT_RELEASE (R211) -/

/-- FLINT_RELEASE: cycle 399 of a tick. -/
def flintReleaseCycle (m : Module) : Module :=
  if m.tick.epoch.isSome ∧ m.tick.cycle < 400 then
    releaseDigest (flintRelease completeStop (joinFlint (toCycle 399 m)))
  else m

def execFlintRelease (s : State) : Host.Outcome State Fault Refusal := s.runE (fun m => flintReleaseCycle (drainIdle m))

end Sys2Proof.Machine
end

