-- ==== Sys2Proof/Machine/Security.lean ====
section
/-! DEFINITION. Keys, chains and signatures, tokens and challenges, attestation, lifecycle and the test access port (chapter 16). -/

namespace Sys2Proof.Machine

/-! ### Lifecycle, from the fuses (R481) -/

/-- The lifecycle state: the target of the last row used; BLANK with none. -/
def Fuses.lifecycle (z : Fuses) : Nat := z.rows.headD 0

/-- Erasing at a transition (Table 16.6): into or out of RMA the owner anchors, the configuration banks and the retained-state area go; into SCRAPPED all of the MRAM. -/
def eraseNv (dest from_ : Nat) (nv : Nv) : Nv :=
  if dest = 4 then { Nv.reset with flash0 := nv.flash0, flash1 := nv.flash1 }
  else if dest = 3 ∨ from_ = 3 then
    { nv with bank0 := none, bank1 := none, ptr := none, descrA := none, descrB := none, clean := none,
              journal := [], retained := none, anchors := [], saveOpen := false }
  else nv

/-- Erase what the last row's transition names, and set its erase-complete mark (R482). -/
def eraseDone (z : Fuses) (m : Module) : Fuses × Module :=
  if z.eraseDue then
    ({ z with eraseDue := false, keys := z.keys && z.lifecycle != 4 }, { m with nv := eraseNv z.lifecycle (z.rows.tail.headD 0) m.nv })
  else (z, m)

/-! ### Chains (R474) -/

/-- The certificates of a chain, leaf first, where it is well formed and holds at most 3. -/
def chainOf (bs : List Byte) : Option (List (List Byte)) :=
  match Config.chainCerts bs with
  | some l => if range 1 3 l.length then some l else none
  | none => none

/-- The owner anchor of a use at which a chain ends. -/
def ownerAnchor (m : Module) (use : Nat) (chain : List Byte) : Option Nat :=
  (m.nv.anchors.find? fun a => a.2.1 == use && !a.2.2.isEmpty && Config.issuedBy chain a.2.2).map Prod.fst

/-- A chain inside its validity periods; unchecked while the time is UNSET. -/
def chainTimely (m : Module) (chain : List Byte) : Bool :=
  m.time.st == .unset || !Config.chainExpired chain ((m.now.sec : Int) - m.cfgI32 Ent.timeUtcOffset)

/-- Each check that is not made is counted. -/
def noteValidity (m : Module) : Module := if m.time.st = .unset then m.bump Ent.secValidityUnchecked else m

/-- A chain accepted under an owner anchor is counted. -/
def noteHit (a : Option Nat) (m : Module) : Module :=
  match a with
  | some k => m.bump (Ent.secAnchorHits k)
  | none => m

/-- The leaf's organizationalUnitName is this text. -/
def leafOu (certs : List (List Byte)) (ou : String) : Bool := Config.certOu (certs.headD []) == ascii ou

/-! ### Signed images (R477, R478) -/

/-- The signature block at the end of a DOM (Table 16.3). -/
def sigBlock (bs : List Byte) : List Byte := bs.drop (imagePart bs).length

/-- A block stands at the end, inside the DOM, with its marker, version and length. -/
def sigForm (bs : List Byte) : Bool :=
  let b := leAt bs (bs.length - 4) 4
  let s := sigBlock bs
  decide (4 ≤ bs.length) && decide (b ≤ bs.length) && b == 172 + leAt s 6 2 && range 1 3072 (leAt s 6 2) &&
    leAt s 0 4 == 0x5349474E && leAt s 5 1 == 1

/-- Chain length and chain of a block. -/
def sigChain (bs : List Byte) : List Byte := ((sigBlock bs).drop 72).take (leAt (sigBlock bs) 6 2)

/-- Digest of the image bytes, as the block holds it. -/
def sigDigest (bs : List Byte) : List Byte := ((sigBlock bs).drop 24).take 48

/-- Security version of a block; 0 without a readable one. -/
def sigVersion (bs : List Byte) : Nat := if sigForm bs then leAt (sigBlock bs) 18 4 else 0

/-- SHA-384. -/
def sha384 (bs : List Byte) : List Byte := padTo 48 (Config.sha384 bs)

/-- The chain's head carries the fused firmware root, for a runtime image; any other image ends at an IMAGE anchor. -/
def sigAnchored (m : Module) (kind : Nat) (chain : List Byte) : Bool :=
  if kind = 1 then sha384 (Config.headKey chain) == padTo 48 Config.rootHash else (ownerAnchor m 2 chain).isSome

/-- Digest and signature of a DOM. -/
def sigGood (bs leaf : List Byte) : Bool :=
  let l := leAt (sigBlock bs) 6 2
  sigDigest bs == sha384 (imagePart bs) &&
    Config.verify leaf (imagePart bs ++ (sigBlock bs).take (72 + l)) (((sigBlock bs).drop (72 + l)).take 96)

/-- The check of a signed DOM: 0, or the reason of R478; with what it counts. -/
def sigCheck (z : Fuses) (kind : Nat) (bs : List Byte) (m : Module) : Nat × Module :=
  let chain := sigChain bs
  if !sigForm bs then (1, m)
  else if leAt (sigBlock bs) 4 1 != kind then (2, m)
  else match chainOf chain with
    | none => (3, m)
    | some certs =>
      if !sigAnchored m kind chain then (4, m)
      else if !chainTimely m chain then (5, m)
      else
        let m := noteValidity m
        if !leafOu certs "ODP IMAGE" then (6, m)
        else
          let m := if kind = 1 then m else noteHit (ownerAnchor m 2 chain) m
          if !sigGood bs (certs.headD []) then (7, m)
          else if kind == 1 && decide (sigVersion bs < z.sv) then (8, m) else (0, m)

/-- The kind that a signed DOM's entry asks for (Table 16.2). -/
def signedKind (key : Nat) : Option Nat :=
  if key = Ent.secRuntimeUpdate then some 1
  else if key = Ent.kimgImage then some 2
  else if key = Ent.flintImage ∨ key = Ent.flintLoad then some 3
  else if range 0x2C40 0x2C7F (key / 256) && key % 256 == 1 then some 4
  else none

/-- The signature check at END: the status, the refusal recorded (R478). -/
def sigAtEnd (z : Fuses) (key session : Nat) (bs : List Byte) (m : Module) : Nat × Module :=
  match signedKind key with
  | none => (stOk, m)
  | some kind =>
    let (r, m) := sigCheck z kind bs m
    if r = 0 then (stOk, m)
    else
      let m := (m.setStat Ent.secSigReason r).setStat Ent.secSigEntry (key * 256)
      (stSigFail, mgmtEvent 0x0E01 0x1008 (key / 256) (key % 256) r session 0 m)

/-! ### The boot ROM (R475) -/

/-- A runtime slot of the boot flash. -/
def Module.flash (m : Module) (k : Nat) : List Byte := if k = 0 then m.nv.flash0 else m.nv.flash1

/-- Verify a slot; a failed one records 1002h. -/
def verifySlot (z : Fuses) (k : Nat) (m : Module) : Bool × Module :=
  let (r, m) := sigCheck z 1 (m.flash k) m
  if r = 0 then (true, m) else (false, mgmtEvent 0x0E00 0x1002 0 k r 0 (sigVersion (m.flash k)) m)

/-- The slot to start among the passing ones: the higher security version, then `sec.slot_pref`. -/
def chooseSlot (m : Module) (ok0 ok1 : Bool) : Option Nat :=
  let v0 := sigVersion m.nv.flash0
  let v1 := sigVersion m.nv.flash1
  match ok0, ok1 with
  | false, false => none
  | true, false => some 0
  | false, true => some 1
  | true, true => some (if v0 < v1 then 1 else if v1 < v0 then 0 else m.nv.slotPref)

/-- Start the runtime of a slot: measurement, attestation key, 1001h. -/
def startSlot (k : Nat) (m : Module) : Module :=
  let bs := m.flash k
  let v := Config.runtimeVersion bs % 2 ^ 32
  mgmtEvent 0x0E00 0x1001 0 k 0 0 v
    { m with sec := { m.sec with slot := k, runtimeSv := sigVersion bs, runtimeVersion := v, measurement := sha384 bs } }

/-- RUNTIME_START: after the clock stage. In SCRAPPED the boot ROM holds; an erase left open is made again first; with no passing slot it enters recovery. In BLANK the module stands at D3 (R483). -/
def runtimeStart (z : Fuses) (m : Module) : Fuses × Module :=
  if m.power.stage = .run ∧ m.stat Ent.bootPhase = 0 ∧ m.power.recovery = false ∧ z.lifecycle ≠ 4 then
    let (z, m) := eraseDone z m
    let m := if z.lifecycle = 0 then setLevel 3 m else m
    let (ok0, m) := verifySlot z 0 m
    let (ok1, m) := verifySlot z 1 m
    match chooseSlot m ok0 ok1 with
    | some k => (z, (startSlot k m).setStat Ent.bootPhase 2)
    | none => (z, { m with power := { m.power with recovery := true } }.setStat Ent.bootPhase 1)
  else (z, m)

def execRuntimeStart (s : State) : Host.Outcome State Fault Refusal :=
  let r := runtimeStart s.fuses s.mod
  .next { s with fuses := r.1, mod := settle r.2 }

/-! ### Sessions that end with their token (R485) -/

/-- Every SERVICE session closes at the end of its token (R485). -/
def closeService (m : Module) : Module :=
  forL ((m.odp.sessions.filter fun x => x.role == .service).map Session.id) (closeSession 4) m

/-! ### Challenges and tokens (R485) -/

/-- The number of the next nonce drawn; no two draws of a unit share one. -/
def nonceNo (m : Module) : Nat := m.nv.powerUps * 2 ^ 64 + m.sec.drawn

/-- A fresh 32-byte nonce. -/
def drawNonce (m : Module) : List Byte × Module :=
  (padTo 32 (Config.nonce (nonceNo m)), { m with sec := { m.sec with drawn := m.sec.drawn + 1 } })

/-- The serial number, 16 bytes padded with 00h. -/
def serial16 : List Byte := padTo 16 Config.serial

/-- A READ of `dbg.challenge` with INIT: a fresh nonce and the 64 bytes of Table 16.8. -/
def newChallenge (z : Fuses) (m : Module) : List Byte × Module :=
  let (n, m) := drawNonce m
  let m := { m with nv := { m.nv with challenges := m.nv.challenges + 1 }, sec := { m.sec with nonce := some (n, false, m.now) } }
  (leBytes 4 0x43484C47 ++ leBytes 1 z.lifecycle ++ leBytes 1 m.sec.level ++ leBytes 2 0 ++ serial16 ++ n ++ leBytes 8 m.nv.challenges, m)

/-- Marker, version and the fixed fields of a token (Table 16.9). -/
def tokenForm (bs : List Byte) : Bool :=
  leAt bs 0 4 == 0x41555448 && leAt bs 4 1 == 1 && leAt bs 6 1 == (if leAt bs 5 1 = 1 then 2 else 0) && leAt bs 7 1 == 0 &&
    range 60 86400 (leAt bs 56 4) && range 1 3072 (leAt bs 60 2) && leAt bs 62 2 == 0 && bs.length == 160 + leAt bs 60 2

/-- A token's chain, and its nonce. -/
def tokenChain (bs : List Byte) : List Byte := (bs.drop 64).take (leAt bs 60 2)
def tokenNonce (bs : List Byte) : List Byte := (bs.drop 24).take 32

/-- The current nonce, unused and within 300 s of its challenge. -/
def nonceFresh (m : Module) (n : List Byte) : Bool :=
  match m.sec.nonce with
  | some (c, used, t) => c == n && !used && decide (m.now.toNs ≤ t.toNs + 300000000000)
  | none => false

/-- A kind that the lifecycle admits: any in PROVISIONED and FIELD; 1 and 2 in RMA. -/
def tokenKindOk (z : Fuses) (kind : Nat) : Bool :=
  match z.lifecycle with
  | 1 | 2 => range 1 3 kind
  | 3 => range 1 2 kind
  | _ => false

/-- A kind-1 token ends at an owner DEBUG anchor, in RMA at the vendor service anchor; the others always at that. -/
def tokenAnchored (z : Fuses) (m : Module) (kind : Nat) (chain : List Byte) : Bool :=
  if kind = 1 ∧ z.lifecycle ≠ 3 then (ownerAnchor m 3 chain).isSome else Config.issuedBy chain Config.serviceAnchor

/-- The token's checks in order (R485), and what they count; the first token against a nonce uses it. -/
def tokenCheck (z : Fuses) (bs : List Byte) (m : Module) : Bool × Module :=
  let kind := leAt bs 5 1
  let chain := tokenChain bs
  if !tokenForm bs || (bs.drop 8).take 16 != serial16 || !nonceFresh m (tokenNonce bs) then (false, m)
  else
    let m := { m with sec := { m.sec with nonce := m.sec.nonce.map fun x => (x.1, true, x.2.2) } }
    match chainOf chain with
    | none => (false, m)
    | some certs =>
      if !tokenKindOk z kind || !tokenAnchored z m kind chain || !chainTimely m chain then (false, m)
      else
        let m := noteValidity m
        if !leafOu certs "ODP DEBUG" then (false, m)
        else
          let m := if kind = 1 ∧ z.lifecycle ≠ 3 then noteHit (ownerAnchor m 3 chain) m else m
          (Config.verify (certs.headD []) (bs.take (64 + chain.length)) (bs.drop (64 + chain.length)), m)

/-- The end of a validity that begins now. -/
def untilAfter (m : Module) (s : Nat) : T80 := ⟨(m.now.sec + s) % 2 ^ 48, m.now.ns⟩

/-- An accepted token takes effect at once. -/
def tokenEffect (kind session : Nat) (t : T80) (m : Module) : Module :=
  let tok : Token := ⟨kind, t⟩
  match kind with
  | 1 => mgmtEvent 0x0E00 0x1004 0 1 2 session 0 { setLevel 2 m with sec := { (setLevel 2 m).sec with debugTok := some tok } }
  | 2 => mgmtEvent 0x0E00 0x1005 0 2 0 session 0 { m with sec := { m.sec with serviceTok := some tok } }
  | _ => mgmtEvent 0x0E00 0x1005 0 3 0 session 0 { m with sec := { m.sec with rmaTok := some tok } }

/-- A token written to `dbg.token`, at END. A D2 token meets BUSY in RESYNC, VERIFY and SYNCHRONISED (R484). -/
def writeToken (z : Fuses) (session : Nat) (bs : List Byte) (m : Module) : Nat × Module :=
  let kind := leAt bs 5 1
  let (ok, m) := tokenCheck z bs m
  let st := if !ok then stSigFail else if kind == 1 && range 1 3 m.red.st then stBusy else stOk
  if st = stOk then (stOk, tokenEffect kind session (untilAfter m (leAt bs 56 4)) m)
  else (st, mgmtEvent 0x0E00 0x1005 0 kind st session 0 m)

/-- A token's validity runs out (R485). -/
def tokenExpiry (kind : Nat) (m : Module) : Module :=
  match kind with
  | 1 => if m.sec.debugTok.isSome then changeLevel 0 0 0 m else m
  | 2 => if m.sec.serviceTok.isSome then closeService { m with sec := { m.sec with serviceTok := none } } else m
  | 3 => { m with sec := { m.sec with rmaTok := none } }
  | _ => m

def execTokenExpiry (kind : Fin 4) (s : State) : Host.Outcome State Fault Refusal := s.runE (tokenExpiry kind)

/-! ### Attestation (R480) -/

/-- Functions whose image is signed, with the entry that holds it. -/
def signedFns : List (Nat × Nat) :=
  [(fnKernel, Ent.kimgImage)] ++ ((List.range 64).map fun r => (fnRecipe r, Ent.recipeImage r)) ++ [(fnFlint, Ent.flintImage)]

/-- Bytes 120 to 167: the live signed images, in ascending function number. -/
def imagesDigest (m : Module) : List Byte :=
  sha384 ((signedFns.filter fun x => m.active x.1).flatMap fun x => leBytes 2 x.1 ++ sigDigest (m.cfgB x.2))

/-- The attestation report (Table 16.4). -/
def reportBytes (z : Fuses) (nonce : List Byte) (m : Module) : List Byte :=
  let b := leBytes 4 0x41545354 ++ leBytes 2 1 ++ leBytes 1 z.lifecycle ++ leBytes 1 m.sec.level ++ serial16 ++ padTo 32 nonce ++
    padTo 48 m.sec.measurement ++ leBytes 4 m.sec.runtimeVersion ++ leBytes 4 m.sec.runtimeSv ++ leBytes 4 z.sv ++
    leBytes 4 Config.romVersion ++ imagesDigest m ++ leBytes 4 (m.stat Ent.cfgActiveSequence) ++ leBytes 10 (t80Wire m.now) ++
    leBytes 8 m.tick.lastEpoch ++ leBytes 1 m.time.st.code ++ leBytes 1 m.redState ++ leBytes 8 0
  b ++ padTo 96 (Config.attSign m.sec.measurement b)

/-- A write of `att.nonce` makes a new report; any length but 32 bytes is refused. -/
def writeNonce (z : Fuses) (bs : List Byte) (m : Module) : Nat × Module :=
  if bs.length = 32 then (stOk, { m with sec := { m.sec with report := reportBytes z bs m } }.bump Ent.attReports)
  else (stBadValue, m)

/-! ### Anchors (R488) -/

/-- The certificate and use of an owner anchor. -/
def Module.anchor (m : Module) (k : Nat) : Nat × List Byte :=
  match m.nv.anchors.find? (fun a => a.1 == k) with
  | some a => a.2
  | none => (0, [])

/-- Set an owner anchor, with 100Ch; an unused one without a certificate is none. -/
def setAnchor (k use : Nat) (cert : List Byte) (session : Nat) (m : Module) : Module :=
  let l := (m.nv.anchors.filter fun a => a.1 != k) ++ (if use = 0 ∧ cert = [] then [] else [(k, use, cert)])
  mgmtEvent 0x0E00 0x100C k use 0 session 0 { m with nv := { m.nv with anchors := l } }

/-- A SESSION anchor other than `k` stands. -/
def otherSession (m : Module) (k : Nat) : Bool := m.nv.anchors.any fun a => a.1 != k && a.2.1 == 1 && !a.2.2.isEmpty

/-- A write of an anchor's use that would leave FIELD without a SESSION anchor. -/
def anchorUseRefused (z : Fuses) (m : Module) (k use : Nat) : Bool :=
  z.lifecycle == 2 && (m.anchor k).1 == 1 && use != 1 && !otherSession m k

/-! ### Lifecycle requests (R482) -/

/-- The least role rank for a transition (Table 16.6). -/
def lifecycleRole (z : Fuses) (dest : Nat) : Nat :=
  if dest = 3 ∨ z.lifecycle = 3 then 3 else 2

/-- A transition of Table 16.6 whose condition stands. -/
def lifecycleMet (z : Fuses) (m : Module) (dest : Nat) : Bool :=
  let confirmed := m.shadB Ent.secLifecycleConfirm == Config.serial.take 16
  let anchored := fun (u : Nat) => m.nv.anchors.any fun a => a.2.1 == u && !a.2.2.isEmpty
  match z.lifecycle, dest with
  | 1, 2 => anchored 1 && anchored 2
  | 1, 3 | 2, 3 => m.sec.rmaTok.isSome
  | 3, 1 => true
  | 1, 4 | 2, 4 | 3, 4 => confirmed
  | _, _ => false

/-- The refusals of a request. -/
def lifecycleCheck (z : Fuses) (m : Module) (dest : Nat) : Nat :=
  if !m.stopped fnEngine then stNotStopped
  else if m.red.st != 0 || m.odp.save.isSome || !m.odp.exports.isEmpty || !m.odp.domWrites.isEmpty || !m.odp.domReads.isEmpty then stBusy
  else if decide (32 ≤ z.rows.length) || !lifecycleMet z m dest then stBadValue
  else stOk

/-- An accepted request: the fuse row first; the erasure and the reset follow. -/
def lifecycleAccept (dest session : Nat) (z : Fuses) (m : Module) : Fuses × Module :=
  ({ z with rows := dest :: z.rows, eraseDue := true },
   mgmtEvent 0x0E00 0x1003 0 z.lifecycle dest session 0 { m with sec := { m.sec with lifecycleDue := true } })

/-- LIFECYCLE_RESET: what the row names is erased, and the module resets. -/
def lifecycleReset (z : Fuses) (m : Module) : Fuses × Module :=
  if m.sec.lifecycleDue then
    let (z, m) := eraseDone z m
    (z, resetModule 5 m)
  else (z, m)

def execLifecycleReset (s : State) : Host.Outcome State Fault Refusal :=
  let r := lifecycleReset s.fuses s.mod
  .next { s with fuses := r.1, mod := r.2 }

/-! ### The test access port (R483, R484) -/

/-- The port is powered: not in DEEP and not without a supply. -/
def jtagOn (m : Module) : Bool := m.power.pwrOk && m.stat Ent.pwrState != 2

/-- The port acts as BYPASS: one bit of 0. -/
def jtagBypassed (m : Module) : Module := { m with sec := { m.sec with ir := .bypass, dr := 0, pinsDriven := false } }

/-- An instruction that shifts out a captured value that nothing fixes. -/
def jtagCapture (ir : JtagInstr) (pins : Bool) (m : Module) : Module :=
  let (v, m) := takeFree m
  { m with sec := { m.sec with ir := ir, dr := v, pinsDriven := pins } }

/-- An instruction of the powered port. -/
def jtag (f : Module → Module) (m : Module) : Module := if jtagOn m then f m else m

def execJtagBypass (s : State) : Host.Outcome State Fault Refusal := s.run (jtag jtagBypassed)

/-- IDCODE. -/
def jtagIdcode (m : Module) : Module := { m with sec := { m.sec with ir := .idcode, dr := Config.idcode % 2 ^ 32, pinsDriven := false } }

def execJtagIdcode (s : State) : Host.Outcome State Fault Refusal := s.run (jtag jtagIdcode)

/-- SAMPLE/PRELOAD captures the pins and loads the boundary register; in SCRAPPED the port has BYPASS and IDCODE only. -/
def jtagSample (preload : Nat) (z : Fuses) (m : Module) : Module :=
  if z.lifecycle = 4 then jtagBypassed m
  else jtagCapture .sample false { m with sec := { m.sec with boundary := preload } }

def execJtagSamplePreload (preload : Nat) (s : State) : Host.Outcome State Fault Refusal := s.runF (fun z => jtag (jtagSample preload z))

/-- A boundary instruction acts at D3 alone; below it acts as BYPASS and is counted. -/
def jtagBoundary (f : Module → Module) (m : Module) : Module :=
  if m.sec.level = 3 then f m else (jtagBypassed m).bump Ent.dbgScanBlocked

/-- EXTEST drives the pins from the boundary register. -/
def jtagExtest (v : Nat) (m : Module) : Module := jtagBoundary (fun m => jtagCapture .extest true { m with sec := { m.sec with boundary := v } }) m

def execJtagExtest (v : Nat) (s : State) : Host.Outcome State Fault Refusal := s.run (jtag (jtagExtest v))

/-- INTEST applies the boundary register to the core logic. -/
def jtagIntest (v : Nat) (m : Module) : Module := jtagBoundary (fun m => jtagCapture .intest false { m with sec := { m.sec with boundary := v } }) m

def execJtagIntest (v : Nat) (s : State) : Host.Outcome State Fault Refusal := s.run (jtag (jtagIntest v))

/-- CLAMP holds the pins at the boundary register, with the bypass register selected. -/
def jtagClamp (m : Module) : Module := jtagBoundary (fun m => { m with sec := { m.sec with ir := .clamp, dr := 0, pinsDriven := true } }) m

def execJtagClamp (s : State) : Host.Outcome State Fault Refusal := s.run (jtag jtagClamp)

/-- HIGHZ releases the pins, with the bypass register selected. -/
def jtagHighz (m : Module) : Module := jtagBoundary (fun m => { m with sec := { m.sec with ir := .highz, dr := 0, pinsDriven := false } }) m

def execJtagHighz (s : State) : Host.Outcome State Fault Refusal := s.run (jtag jtagHighz)

/-- A vendor instruction that needs a debug level; below it the port acts as BYPASS. -/
def jtagVendor (lev : Nat) (f : Module → Module) (m : Module) : Module :=
  if lev ≤ m.sec.level then f { m with sec := { m.sec with ir := .vendor, pinsDriven := false } } else jtagBypassed m

/-- Trace buffers and status registers read out at D1, without side effects; their content is not laid out, so what is shifted out is free. -/
def jtagTrace (m : Module) : Module := jtagVendor 1 (jtagCapture .vendor false) m

def execJtagTraceRead (_u : DbgUnit) (s : State) : Host.Outcome State Fault Refusal := s.run (jtag jtagTrace)

/-- A core or lane is halted. -/
def unitHalted (m : Module) : DbgUnit → Bool
  | .core k => m.sec.cores.contains k
  | .lane l => (m.lane l).halted

/-- Forget a core's registers and memories: once it runs, nothing says what they hold. -/
def forgetCore (k : Nat) (m : Module) : Module := { m with sec := { m.sec with coreMem := m.sec.coreMem.filter fun x => x.1 / 2 ^ 40 != k } }

/-- A core or lane halts. -/
def unitHalt (u : DbgUnit) (m : Module) : Module :=
  match u with
  | .core k => if 4 ≤ k ∨ m.sec.cores.contains k = true then m else { m with sec := { m.sec with cores := m.sec.cores ++ [k] } }
  | .lane l => modLane l (fun x => { x with halted := true }) m

/-- A halt is accepted only with the loop engine STOPPED, in SOLO or DEGRADED; else it is refused and counted (R484). -/
def jtagHalt (u : DbgUnit) (m : Module) : Module :=
  jtagVendor 2 (fun m => if m.stopped fnEngine ∧ (m.red.st = 0 ∨ m.red.st = 5) then unitHalt u m else m.bump Ent.dbgRefused) m

def execJtagHalt (u : DbgUnit) (s : State) : Host.Outcome State Fault Refusal := s.run (jtag (jtagHalt u))

/-- A core or lane runs on. -/
def unitResume (u : DbgUnit) (m : Module) : Module :=
  match u with
  | .core k => forgetCore k { m with sec := { m.sec with cores := m.sec.cores.filter (· != k) } }
  | .lane l => modLane l (fun x => { x with halted := false }) m

def jtagResume (u : DbgUnit) (m : Module) : Module := jtagVendor 2 (unitResume u) m

def execJtagResume (u : DbgUnit) (s : State) : Host.Outcome State Fault Refusal := s.run (jtag (jtagResume u))

/-- One step of a halted lane: the instruction of its program RAM that it stands at issues; where none stands there, what it has in flight moves on by a cycle. -/
def laneStep (l : Nat) (m : Module) : Module :=
  let word := match (m.lane l).op, pcIn m (m.lane l).pc with
    | some _, .image w => laneDecode w
    | _, _ => none
  match word with
  | some op => modLane l (fun x => { x with halted := true }) (laneIssue l op (modLane l (fun x => { x with halted := false }) m))
  | none => laneCycle l m

def unitStep (u : DbgUnit) (m : Module) : Module :=
  match u with
  | .core k => forgetCore k m
  | .lane l => laneStep l m

def jtagStep (u : DbgUnit) (m : Module) : Module := jtagVendor 2 (fun m => if unitHalted m u then unitStep u m else m) m

def execJtagStep (u : DbgUnit) (s : State) : Host.Outcome State Fault Refusal := s.runE (jtag (jtagStep u))

/-- Key of a register or memory word of a core. -/
def coreKey (k addr : Nat) : Nat := k * 2 ^ 40 + addr % 2 ^ 40

/-- Read a register or memory of a halted unit. What a core holds that the port has not written is free. -/
def dbgRead (u : DbgUnit) (x : DbgTarget) (m : Module) : Nat × Module :=
  match u, x with
  | .lane l, .x b i => ((((m.lane l).bank b).xr i).toNat, m)
  | .lane l, .t b i => ((((m.lane l).bank b).tr i).toNat, m)
  | .lane l, .a b i => (uint 48 (((m.lane l).bank b).ar i), m)
  | .lane l, .p b i => ((((m.lane l).bank b).pr i).toNat, m)
  | .lane l, .pc => ((m.lane l).pc, m)
  | .lane _, .mem a => ((Sparse.get dfltByte m.loop.mem (a % 524288)).toNat, m)
  | .core k, .coreWord a =>
    match m.sec.coreMem.find? (fun y => y.1 == coreKey k a) with
    | some y => (y.2, m)
    | none => takeFree m
  | _, _ => takeFree m

/-- Write a register or memory of a halted unit. -/
def dbgWrite (u : DbgUnit) (x : DbgTarget) (v : Nat) (m : Module) : Module :=
  match u, x with
  | .lane l, .x b i => modLane l (fun y => y.modBank b (fun r => r.setX i (sint 20 v))) m
  | .lane l, .t b i => modLane l (fun y => y.modBank b (fun r => r.setT i (BitVec.ofNat 12 v))) m
  | .lane l, .a b i => modLane l (fun y => y.modBank b (fun r => r.setA i (sint 48 v))) m
  | .lane l, .p b i => modLane l (fun y => y.modBank b (fun r => r.setP i (BitVec.ofNat 16 v))) m
  | .lane l, .pc => modLane l (fun y => { y with pc := v % 65536 }) m
  | .lane _, .mem a => { m with loop := { m.loop with mem := Sparse.set dfltByte m.loop.mem (a % 524288) (BitVec.ofNat 8 v) } }
  | .core k, .coreWord a => { m with sec := { m.sec with coreMem := Sparse.insert (coreKey k a) v (Sparse.erase m.sec.coreMem (coreKey k a)) } }
  | _, _ => m

/-- A register access at D2 to a halted unit; to one that is not halted it has no effect. -/
def jtagAccess (u : DbgUnit) (x : DbgTarget) (w : Option Nat) (m : Module) : Module :=
  jtagVendor 2 (fun m =>
    if unitHalted m u then
      match w with
      | some v => dbgWrite u x v m
      | none => let (v, m) := dbgRead u x m; { m with sec := { m.sec with dr := v } }
    else m) m

def execJtagRegisterAccess (u : DbgUnit) (x : DbgTarget) (write : Option Nat) (s : State) : Host.Outcome State Fault Refusal :=
  s.run (jtag (jtagAccess u x write))

end Sys2Proof.Machine
end

