-- ==== Sys2Proof/Machine/Values.lean ====
section
/-! DEFINITION. What a READ of each dictionary entry returns (R43, R45, R46, R49, R51, and the chapters' entry tables). -/

namespace Sys2Proof.Machine

/-! ### Entries that show state kept elsewhere -/

/-- Bits 32w to 32w + 31 of a set of bits. -/
def word32 (f : Nat → Bool) (w : Nat) : Nat := (List.range 32).foldl (fun v j => v + b01 (f (32 * w + j)) * 2 ^ j) 0

/-- The epoch of a change as U64: all ones for none (R523). -/
def epochOr (e : Option Nat) : Nat := e.getD 0xFFFFFFFFFFFFFFFF

/-- A function's state entries (Table 2.6). -/
def funcVal (m : Module) (f sub : Nat) : Nat :=
  let x := m.fn f
  match sub with
  | 1 => x.st.code
  | 2 => f
  | 3 => x.expectedCrc
  | 4 => b01 x.armed
  | 5 => x.startCrc
  | 6 => crc32c (blockImage m false f)
  | 7 => b01 x.restart
  | 8 => x.ignored
  | 9 => x.lastError
  | 10 => epochOr x.lastChange
  | 11 => (parentOf m f).getD 0xFFFF
  | 12 => (blockImage m true f).length
  | _ => x.cancelled

/-- A slot's status entries (Table 3.11), from its cells. -/
def slotVal (m : Module) (n sub : Nat) : Nat :=
  let q := fun (off : Nat) => uint 32 (m.cellQ n off)
  match sub with
  | 1 => m.memN n 0x006 1
  | 2 => m.memN n 0x1F0 2
  | 3 => m.memN n 0x007 1
  | 4 => m.activeSet n
  | 5 => q 0x18E
  | 6 => q 0x191
  | 7 => q 0x194
  | 8 => q 0x197
  | 9 => q 0x19D
  | 10 => q 0x19A
  | 11 => uint 64 (m.cell48 n 0x180)
  | 12 => m.memN n 0x1F2 1
  | 13 => m.memN n 0x1F5 4
  | 14 => m.memN n 0x1F9 4
  | _ => m.stat (keyOf (0x2400 + n) sub)

/-- The entries of the pair (Table 14.16). -/
def redVal (m : Module) (sub : Nat) : Nat :=
  let r := m.red
  match sub with
  | 1 => if r.hold then 1 else if m.standby then 2 else 0
  | 2 => m.redState
  | 3 => match r.partner with
    | some p => if pairFormed m then b01 (decide (p.slot < m.stat Ent.modSlot)) else 0xFF
    | none => 0xFF
  | 5 => r.link
  | 6 => r.lines
  | 7 => b01 r.pwrOk
  | 8 => r.reason
  | 9 => b01 (m.redState == 3)
  | 10 => b01 r.wiring
  | 11 => r.verifyCount
  | _ => m.stat (keyOf 0x1C10 sub)

/-- `win[w].state` (Table 11.4). -/
def WinState.code : WinState → Nat
  | .idle => 0 | .armed => 1 | .triggered => 2 | .done => 3 | .rearm => 4 | .waitSlot => 5

/-- The entries of a window that its state holds (Table 11.9). -/
def winVal (m : Module) (w sub : Nat) : Nat :=
  let x := m.win w
  match sub with
  | 1 => x.st.code
  | 2 => x.captures
  | 3 => x.missed
  | 4 => x.missedSince
  | 5 => x.deadTicks
  | 6 => x.deadSince
  | 8 => x.ring.length
  | 9 => (x.slots.filter fun e => e.2.isSome).foldl (fun v e => v + 2 ^ e.1) 0
  | _ => m.stat (keyOf (0x3C60 + w) sub)

/-- The entries of the event recorder (Table 12.5). -/
def agateVal (m : Module) (sub : Nat) : Nat :=
  let a := m.agate
  match sub with
  | 3 => a.used
  | 5 => a.descr.base
  | 6 => m.lastSeq
  | 7 => a.descr.lost
  | 8 => t80Wire a.descr.firstLost
  | 9 => t80Wire a.descr.lastLost
  | 10 => a.queue.length
  | 13 => a.windows.length
  | 17 => t80Wire a.descr.clearTime
  | _ => m.stat (keyOf 0x3E00 sub)

/-- The session in a place (Table 16.13). -/
def sessAt (m : Module) (i : Nat) : Option Session := m.odp.sessions.find? fun x => x.place == i

def sessVal (m : Module) (i sub : Nat) : Nat :=
  match sessAt m i, sub with
  | some x, 1 => x.id
  | some x, 2 => x.role.rank
  | some x, 3 => x.link
  | some x, 5 => t80Wire x.opened
  | none, 2 => 0xFF
  | none, 3 => 0xFF
  | _, _ => 0

/-- The end of the later of two tokens. -/
def laterToken (a b : Option Token) : T80 :=
  match a, b with
  | some x, some y => if x.until_.toNs < y.until_.toNs then y.until_ else x.until_
  | some x, none => x.until_
  | none, some y => y.until_
  | none, none => T80.zero

/-- The security entries that state and fuses hold (Tables 16.11, 16.12). -/
def secVal (z : Fuses) (m : Module) (idx sub : Nat) : Nat :=
  match idx, sub with
  | 0x1800, 1 => z.lifecycle
  | 0x1800, 4 => m.sec.slot
  | 0x1800, 5 => m.sec.runtimeSv
  | 0x1800, 6 => z.sv
  | 0x1800, 12 => z.rows.length
  | 0x1840, 1 => m.sec.level
  | 0x1840, 5 => t80Wire (laterToken m.sec.debugTok none)
  | 0x1840, 6 => t80Wire (laterToken m.sec.serviceTok m.sec.rmaTok)
  | 0x1840, 9 => Config.idcode % 2 ^ 32
  | _, _ => m.stat (keyOf idx sub)

/-- The entries of the time unit (Table 13.4). -/
def timeVal (m : Module) (sub : Nat) : Nat :=
  match sub with
  | 1 => t80Wire m.now
  | 2 => m.time.st.code
  | 3 => m.time.source
  | 4 => m.time.incr
  | 0x15 => b01 m.time.aligned
  | _ => m.stat (keyOf 0x1400 sub)

/-- Flint's retained and working bits and values (Tables 7.9 to 7.11). -/
def flintVal (m : Module) (idx sub : Nat) : Nat :=
  let d := m.flint.data
  let k := sub - 1
  if idx < 0x3070 then word32 (fun i => Sparse.get (fun _ => false) d.markers i) ((idx - 0x3060) * 64 + k)
  else if idx = 0x3070 then word32 (fun q => m.permit q) k
  else if idx < 0x3078 then word32 (fun i => Sparse.get (fun _ => false) d.edges i) ((idx - 0x3071) * 64 + k)
  else if idx < 0x3080 then
    let t := Sparse.get (fun _ => FTimer.init) d.timers ((idx - 0x3078) * 64 + k)
    t.elapsed % 2 ^ 31 + b01 t.q * 2 ^ 31
  else (Sparse.get (fun _ => FCounter.init) d.counters ((idx - 0x3080) * 64 + k)).cv

/-- A measured value that nothing here fixes: a free one of the entry's size. -/
def measured (key : Nat) : Bool :=
  key == Ent.clkTcxoDev || key == Ent.pwrInputMv || key == Ent.pwrInputMw || key == Ent.calBackupMv || key == Ent.laneBankStalls ||
    key == Ent.lanePortStalls || range 0x3480 0x3487 (key / 256) && range 1 2 (key % 256)

/-- The calendar runs on its own crystal: its present edge is a measured value, a whole number of 32.768 kHz cycles. -/
def calEdge (v : Nat) : T80 := ⟨v / 32768 % 2 ^ 48, v % 32768 * 1000000000 / 32768⟩

/-- The value of an RO or CONST number entry. -/
def roVal (z : Fuses) (m : Module) (key : Nat) : Nat :=
  let idx := key / 256
  let sub := key % 256
  if sub = 0 then (highest idx).getD 0
  else if idx < 0x100 then (match rowAt idx sub with | some _ => dfltCell key | none => 0)
  else if idx = 0x100 then
    (match sub with
     | 2 => Config.hwIssue % 256
     | 4 => m.sec.runtimeVersion
     | 5 => Config.romVersion % 2 ^ 32
     | _ => Config.bootRomVersion % 2 ^ 32)
  else if key = Ent.odpSessions then m.odp.sessions.length
  else if key = Ent.odpSubscriptions then m.odp.subs.length
  else if range 0x400 0xBFF idx then funcVal m (idx - 0x400) sub
  else if key = Ent.pwrBankUf then Config.bankUf % 65536
  else if idx = 0x1140 then
    (match sub with
     | 4 => m.nv.powerUps
     | 5 => m.nv.removals
     | 6 => m.nv.aborted
     | 13 => m.nv.hours
     | _ => m.stat key)
  else if idx = 0x1400 then timeVal m sub
  else if key = Ent.calValid then b01 (!m.cal.lost)
  else if idx = 0x1800 ∨ idx = 0x1840 then secVal z m idx sub
  else if range 0x1850 0x1857 idx then sessVal m (idx - 0x1850) sub
  else if idx = 0x1C10 then redVal m sub
  else if range 0x2400 0x27FF idx then slotVal m (idx - 0x2400) sub
  else if key = Ent.tickEpoch then m.tick.lastEpoch
  else if key = Ent.tickDiscipline then m.tick.disc.code
  else if key = Ent.tickEpoch0Time then t80Wire m.tick.epoch0
  else if range 0x2810 0x2817 idx && sub == 6 then groupMoves m (idx - 0x2810)
  else if key = Ent.dispFirstLane then m.tick.lastEpoch % 16
  else if key = Ent.flintForcesActive then (m.forces.filter fun x => bit x.2 18).length
  else if key = Ent.flintForceOrphans then (m.dict.stat.filter fun x => range 0x3040 0x305F (x.1 / 256) && bit x.2 1).length
  else if range 0x3060 0x3083 idx then flintVal m idx sub
  else if range 0x3440 0x347F idx && range 6 17 sub then
    (let c := idx - 0x3440
     let k := (sub - 6) / 2 + 1
     if sub % 2 = 0 then qWire (Config.calGain c k) else qWire (Config.calOffset c k))
  else if range 0x3440 0x347F idx && sub == 0x12 then t80Wire ⟨(Config.calTime (idx - 0x3440)).sec, (Config.calTime (idx - 0x3440)).ns % 1000000000⟩
  else if key = Ent.acqStreamRate then rawRate m (if m.active fnStream then streamChans m else [])
  else if key = Ent.acqCopyWords then copyDemand m []
  else if range 0x3C60 0x3C6F idx then winVal m (idx - 0x3C60) sub
  else if idx = 0x3E00 then agateVal m sub
  else m.stat key

/-- The bytes of an RO or CONST STR or DOM entry; those that no state here holds stand in their cell. -/
def roBytes (m : Module) (key : Nat) : List Byte :=
  let idx := key / 256
  let sub := key % 256
  if idx < 0x100 then ascii (Ty.name idx)
  else if key = Ent.idPart then ascii "OPN-1024-A1"
  else if key = Ent.idSerial then Config.serial.take 16
  else if range 0x1810 0x1817 idx then (if (m.anchor (idx - 0x1810)).2 = [] then [] else sha384 (m.anchor (idx - 0x1810)).2)
  else if key = Ent.secRootHash then padTo 48 Config.rootHash
  else if key = Ent.secCommissioningFp then sha384 Config.commissioningAnchor
  else if key = Ent.secServiceFp then sha384 Config.serviceAnchor
  else if key = Ent.attReport then m.sec.report
  else if key = Ent.attCert then (Config.attCert m.sec.measurement m.sec.runtimeSv).take 2048
  else if key = Ent.attIdentityCert then Config.identityCert.take 2048
  else if range 0x1850 0x1857 idx then
    (match sessAt m (idx - 0x1850) with
     | some x => if sub = 4 then x.peer else x.clientFp
     | none => [])
  else if key = Ent.redPartnerSerial then (match m.red.partner with | some p => p.serial.take 16 | none => [])
  else if key = Ent.dispLiveTable then (List.range 16384).flatMap fun d => leBytes 16 (match m.desc d with | some x => encodeDesc x | none => 0)
  else if key = Ent.agateTail then m.agateTail
  else m.statB key

/-! ### RW entries whose value the machine moves on -/

/-- A written value of this entry has not taken effect yet. -/
def pendingFor (m : Module) (key : Nat) : Bool := m.odp.pend.any fun w => w.key == key

/-- A slot's RW entries (Table 3.12): a value that has been written and stands in front of its slot, else the cell that the slot runs on. -/
def slotRwVal (m : Module) (n sub : Nat) : Nat :=
  let key := keyOf (0x2000 + n) sub
  if !m.active n || pendingFor m key then m.shad key
  else match sub with
    | 0x60 => m.memN n 0x54 1
    | 0x61 => uint 32 (m.cellQ n 0x4E)
    | 0x62 => uint 32 (m.cellQ n 0x51)
    | _ => uint 32 (m.cellQ n (nextCell m n sub))

/-- The value of an RW or RWS number entry: with `shadow` the shadow copy of an RWS entry. -/
def rwVal (m : Module) (shadow : Bool) (key : Nat) (r : Row) : Nat :=
  let idx := key / 256
  let sub := key % 256
  if r.acc = .rws then (if shadow then m.shad key else m.cfg key)
  else if range 0x400 0xBFF idx then funcVal m (idx - 0x400) sub
  else if range 0x1810 0x1817 idx then (m.anchor (idx - 0x1810)).1
  else if range 0x2000 0x23FF idx then slotRwVal m (idx - 0x2000) sub
  else m.shad key

/-- The bytes of an RW or RWS STR or DOM entry. -/
def rwBytes (m : Module) (shadow : Bool) (key : Nat) (r : Row) : List Byte :=
  if r.acc = .rws then (if shadow then m.shadB key else m.cfgB key)
  else if range 0x1810 0x1817 (key / 256) then (m.anchor (key / 256 - 0x1810)).2
  else m.cfgB key

/-- The number an entry reads, and the module after a measured value has been taken. -/
def numVal (z : Fuses) (shadow : Bool) (key : Nat) (r : Row) (m : Module) : Nat × Module :=
  if measured key then let (v, m) := takeFree m; (v % 2 ^ (8 * r.ty.size), m)
  else if key = Ent.calTime then let (v, m) := takeFree m; (t80Wire (calEdge v), m)
  else
    match r.access (key / 256) (key % 256) with
    | .const => if range 0x1020 0x102D (key / 256) && range 1 3 (key % 256) then (m.cfg key, m) else (roVal z m key, m)
    | .ro => (roVal z m key, m)
    | _ => (rwVal m shadow key r, m)

/-- The bytes that a STR or DOM entry reads. -/
def blockVal (m : Module) (shadow : Bool) (key : Nat) (r : Row) : List Byte :=
  match r.access (key / 256) (key % 256) with
  | .const | .ro => roBytes m key
  | _ => rwBytes m shadow key r

/-- The wire bytes that a READ of an entry returns (R42); a DOM goes by segments instead. -/
def readBytes (z : Fuses) (shadow : Bool) (key : Nat) (r : Row) (m : Module) : List Byte × Module :=
  match r.ty with
  | .dom => ([], m)
  | .str => let b := blockVal m shadow key r; (leBytes 2 b.length ++ b, m)
  | t => let (v, m) := numVal z shadow key r m; (leBytes t.size v, m)

end Sys2Proof.Machine
end

