-- ==== Sys2Proof/Machine/Session.lean ====
section
/-! DEFINITION. ODP sessions (R63 to R69): the handshake, secure frames, kept responses. -/

namespace Sys2Proof.Machine

/-- The dictionary server answers on a link: the runtime's from phase 5 on outside DEEP and PERSIST, or the boot ROM's reduced one on the service port (R475, R512). BLANK has no ODP (Table 16.5). -/
def odpUp (z : Fuses) (m : Module) (link : Nat) : Bool :=
  z.lifecycle != 0 && m.stat Ent.pwrState != 2 && (m.power.ride == .none || m.power.ride == .full) &&
    (decide (5 ≤ m.stat Ent.bootPhase) || (m.power.recovery && link == 2))

/-! ### Handshakes (R63, R64) -/

/-- A role by its code; codes above 3 ask for the highest. -/
def roleOf : Nat → Role
  | 0 => .observer | 1 => .operator | 2 => .engineer | _ => .service

/-- The role that a session client's certificate carries (R474). -/
def certRank (certs : List (List Byte)) : Option Nat :=
  if leafOu certs "ODP OBSERVER" then some 0
  else if leafOu certs "ODP OPERATOR" then some 1
  else if leafOu certs "ODP ENGINEER" then some 2
  else if leafOu certs "ODP SERVICE" then some 3
  else none

/-- A handshake ends by a reject frame: counted, and recorded with 100Bh (R63). -/
def reject (peer status rank link : Nat) (m : Module) : Module :=
  let m := (emit (.reject peer status) m).bump Ent.odpRejectedHandshakes
  post 0x0E02 0x100B (leBytes 2 0 ++ leBytes 1 0 ++ leBytes 1 status ++ leBytes 4 0 ++ leBytes 1 rank ++ leBytes 1 link) m

/-- The module's own chain: the attestation certificate, then the identity certificate. -/
def serverChain (m : Module) : List Byte := Config.attCert m.sec.measurement m.sec.runtimeSv ++ Config.identityCert

/-- SERVER_HELLO before its signature. -/
def serverHello (m : Module) (nonce : List Byte) : List Byte := nonce ++ padTo 97 (Config.ecdhKey (nonceNo m)) ++ serverChain m

/-- CLIENT_HELLO: a place among the 2 handshakes and 8 sessions, then SERVER_HELLO. A further hello of one peer replaces its handshake. -/
def clientHello (h : Hello) (z : Fuses) (m : Module) : Module :=
  let others := m.odp.handshakes.filter fun x => x.peer != h.peer
  if !odpUp z m h.link then m
  else if 8 ≤ m.odp.sessions.length ∨ 2 ≤ others.length then reject h.peer stBusy (roleOf h.role).rank h.link m
  else
    let (nonce, m') := drawNonce m
    let hello := serverHello m nonce
    let sig := padTo 96 (Config.attSign m.sec.measurement (h.bytes ++ hello))
    let hs : Handshake := ⟨h.peer, h.addr, h.link, roleOf h.role, h.bytes ++ hello ++ sig, h.nonce, nonce, h.key, h.chain⟩
    emit (.serverHello h.peer (hello ++ sig)) { m' with odp := { m'.odp with handshakes := others ++ [hs] } }

def execClientHello (h : Hello) (s : State) : Host.Outcome State Fault Refusal := s.runFE (clientHello h)

/-- The chain ends where Table 16.5 says for the lifecycle state and the role: admitted, with the owner anchor it ends at. -/
def sessionAnchor (z : Fuses) (m : Module) (chain : List Byte) (rank : Nat) : Bool × Option Nat :=
  let owner := ownerAnchor m 1 chain
  match z.lifecycle with
  | 1 => if Config.issuedBy chain Config.commissioningAnchor && decide (rank ≤ 2) then (true, none) else (owner.isSome, owner)
  | 2 => (owner.isSome, owner)
  | 3 => (Config.issuedBy chain Config.serviceAnchor, none)
  | _ => (false, none)

/-- SERVICE needs a kind-2 token in force and no other SERVICE session (R485), except under the vendor service anchor in RMA, which admits all roles (Table 16.5); a boot ROM in recovery grants up to ENGINEER (R475). -/
def serviceOk (z : Fuses) (m : Module) (role : Role) : Bool :=
  role != .service || (!m.power.recovery && (z.lifecycle == 3 || (m.sec.serviceTok.isSome && !m.odp.sessions.any fun x => x.role == .service)))

/-- The client's signature, chain and role (R64, R474), and what their checks count. -/
def clientOk (z : Fuses) (hs : Handshake) (sig : List Byte) (m : Module) : Bool × Module :=
  match chainOf hs.chain with
  | none => (false, m)
  | some certs =>
    let (ok, owner) := sessionAnchor z m hs.chain hs.role.rank
    let granted := match certRank certs with | some r => decide (hs.role.rank ≤ r) | none => false
    if !Config.verify (certs.headD []) hs.bytes sig || !ok || !chainTimely m hs.chain then (false, m)
    else
      let m := noteHit owner (noteValidity m)
      (granted && serviceOk z m hs.role, m)

/-- The lowest free place among 8. -/
def freePlace (m : Module) : Nat := ((List.range 8).find? fun i => (sessAt m i).isNone).getD 0

/-- The session keys (R65): HKDF over the shared secret, salted with both nonces. -/
def sessionKeys (hs : Handshake) : List Byte :=
  padTo 72 (Config.hkdf (hs.clientNonce ++ hs.serverNonce) (ascii "ODP1 keys") (Config.ecdhSecret hs.serverNonce hs.clientKey))

/-- A session opens: SERVER_FINISH and 1009h. -/
def openSession (hs : Handshake) (m : Module) : Module :=
  let id := m.odp.lastId + 1
  let idle := m.cfg Ent.odpIdleTimeout
  let fp := match chainOf hs.chain with | some certs => sha384 (certs.headD []) | none => []
  let x : Session := ⟨id, freePlace m, hs.role, hs.link, hs.addr.take 45, m.now, fp, sessionKeys hs, idle, 0, [], 0, []⟩
  let m := emit (.serverFinish hs.peer id idle) { m with odp := { m.odp with sessions := m.odp.sessions ++ [x], lastId := id } }
  mgmtEvent 0x0E02 0x1009 0 0 0 id 0 m

/-- CLIENT_FINISH: every failure of signature, chain or role ends with ROLE; a ninth session meets BUSY (R63). One from a peer with no handshake is dropped. -/
def clientFinish (peer : Nat) (sig : List Byte) (z : Fuses) (m : Module) : Module :=
  match m.odp.handshakes.find? (fun x => x.peer == peer) with
  | none => m
  | some hs =>
    let m := { m with odp := { m.odp with handshakes := m.odp.handshakes.filter (fun x => x.peer != peer) } }
    if !odpUp z m hs.link then m
    else
      let (ok, m) := clientOk z hs sig m
      if !ok then reject peer stRole hs.role.rank hs.link m
      else if 8 ≤ m.odp.sessions.length then reject peer stBusy hs.role.rank hs.link m
      else openSession hs m

def execClientFinish (peer : Nat) (bytes : List Byte) (s : State) : Host.Outcome State Fault Refusal := s.runFE (clientFinish peer bytes)

/-- A handshake not complete within 5 s is discarded. -/
def dropHandshake (peer : Nat) (m : Module) : Module :=
  { m with odp := { m.odp with handshakes := m.odp.handshakes.filter (fun x => x.peer != peer) } }

def execHandshakeTimeout (peer : Nat) (s : State) : Host.Outcome State Fault Refusal := s.run (dropHandshake peer)

/-- The idle timeout has passed without an accepted frame (R66). -/
def execSessionIdleTimeout (session : Nat) (s : State) : Host.Outcome State Fault Refusal := s.runE (closeSession 2 session)

/-! ### Secure frames (R66) -/

/-- A sequence number is taken: above the highest, or within the 64 below it and not yet seen. -/
def seqOk (x : Session) (q : Nat) : Bool :=
  decide (1 ≤ q) && (decide (x.rxHigh < q) || (decide (x.rxHigh ≤ q + 64) && q != x.rxHigh && !x.rxSeen.contains q))

/-- Note an accepted sequence number. -/
def seqTaken (q : Nat) (x : Session) : Session :=
  if x.rxHigh < q then { x with rxHigh := q, rxSeen := (x.rxHigh :: x.rxSeen).filter fun s => decide (q ≤ s + 64) }
  else { x with rxSeen := q :: x.rxSeen }

def modSession (id : Nat) (f : Session → Session) (m : Module) : Module :=
  { m with odp := { m.odp with sessions := mapFirst (fun x => x.id == id) f m.odp.sessions } }

/-- Accept a secure frame, or drop and count it: the session it belongs to, where its request is to be handled. A sequence number at its limit closes the session. -/
def takeFrame (f : Frame) (m : Module) : Option Session × Module :=
  match m.odp.sessions.find? (fun x => x.id == f.session) with
  | none => (none, m.bump Ent.odpDropped)
  | some x =>
    if !f.tagOk || !seqOk x f.seq then (none, m.bump Ent.odpDropped)
    else
      let m := modSession x.id (seqTaken f.seq) m
      if 2 ^ 48 ≤ f.seq then (none, closeSession 3 x.id m) else (some x, m)

/-! ### Repeats (R68, R69) -/

/-- Two requests with one id hold the same bytes. -/
def sameReq (a b : Req) : Bool := { a with fr := b.fr } == b

/-- Requests without a response yet. -/
def outstanding (x : Session) : Nat := (x.kept.filter fun k => k.resp.isNone).length

/-- A new request id is kept among the last 32. -/
def keepReq (r : Req) (m : Module) : Module := modSession r.fr.session (fun x => { x with kept := keepLast 32 (x.kept ++ [⟨r, none⟩]) }) m

/-- A response to a request. Its OPERAND is the position of the failing entry in a refused block; for every other response Table 2.10 states no operand, so it is a free value. -/
def respTo (r : Req) (st : Nat) (pos : Option Nat) (data : List Byte) (m : Module) : Resp × Module :=
  let out := fun (v : Nat) => (⟨r.fr.session, r.fr.id, r.op + 0x80, st, r.index, r.sub, v, data⟩ : Resp)
  match pos with
  | some i => (out i, m)
  | none => let (v, m) := takeFree m; (out (v % 2 ^ 32), m)

/-- Answer a repeat with a status alone, which is not kept. -/
def answerOnce (r : Req) (st : Nat) (m : Module) : Module := let (a, m) := respTo r st none [] m; sendTo r.fr.session (.resp a) m

/-- Answer a repeated id: the stored response again, IN_PROGRESS for a SAVE still running, nothing for another request still outstanding; DUP_ID for other bytes. -/
def answerRepeat (r : Req) (k : Kept) (m : Module) : Module :=
  if !sameReq r k.req then answerOnce r stDupId m
  else match k.resp with
    | some a => sendTo r.fr.session (.resp a) m
    | none => if r.op = 7 then answerOnce r stInProgress m else m

end Sys2Proof.Machine
end

