-- ==== Sys2Proof/Machine/Writes.lean ====
section
/-! DEFINITION. Writes to dictionary entries: the checks of R522 in order, each entry's own rule, what is stored on acceptance, and what an entry's value does when it takes effect (R45). -/

namespace Sys2Proof.Machine

/-- Who writes: a session's id and the power of its role. `replay`: the change comes from the holder by a CHANGE frame, which has checked and recorded it (R427). -/
structure Writer where
  session : Nat
  rank : Nat
  replay : Bool
  deriving DecidableEq, Repr

/-! ### Entries (R48) -/

/-- A process-image index. -/
def isImage (idx : Nat) : Bool := range 0x8000 0x83FF idx

/-- The word address of an index and sub (R47). -/
def imageAddr (idx sub : Nat) : Nat := (idx - 0x8000) * 256 + sub

/-- What a boot ROM in recovery answers for (R475). -/
def recoveryHas (idx : Nat) : Bool := range 0x100 0x1FF idx || range 0x1800 0x1BFF idx

/-- VENDOR_RANGE, NO_ENTRY, NO_SUB, or OK for an entry that stands. -/
def entryStatus (m : Module) (idx sub : Nat) : Nat :=
  if 0xF000 ≤ idx then stVendorRange
  else if m.power.recovery && !recoveryHas idx then stNoEntry
  else if isImage idx then stOk
  else match highest idx with
    | none => stNoEntry
    | some top => if top < sub then stNoSub else if (rowAt idx sub).isNone then stNoEntry else stOk

/-! ### Form (R42) -/

/-- UTF-8: `need` continuation bytes are still due, the first of them between `lo` and `hi`. -/
def utf8From : Nat → Nat → Nat → List Byte → Bool
  | need, _, _, [] => need == 0
  | 0, _, _, b :: l =>
    let v := b.toNat
    if v < 0x80 then utf8From 0 0x80 0xBF l
    else if range 0xC2 0xDF v then utf8From 1 0x80 0xBF l
    else if v = 0xE0 then utf8From 2 0xA0 0xBF l
    else if v = 0xED then utf8From 2 0x80 0x9F l
    else if range 0xE1 0xEF v then utf8From 2 0x80 0xBF l
    else if v = 0xF0 then utf8From 3 0x90 0xBF l
    else if range 0xF1 0xF3 v then utf8From 3 0x80 0xBF l
    else if v = 0xF4 then utf8From 3 0x80 0x8F l
    else false
  | n + 1, lo, hi, b :: l => range lo hi b.toNat && utf8From n 0x80 0xBF l

def utf8Ok (bs : List Byte) : Bool := utf8From 0 0x80 0xBF bs

/-- BAD_TYPE, then TOO_LONG and BAD_VALUE, for bytes written to an entry that is no DOM. -/
def formStatus (r : Row) (bs : List Byte) : Nat :=
  match r.ty with
  | .dom => stBadType
  | .str =>
    if bs.length < 2 ∨ bs.length ≠ 2 + leAt bs 0 2 then stBadType
    else if r.max < leAt bs 0 2 then stTooLong
    else if utf8Ok (bs.drop 2) then stOk else stBadValue
  | t => if bs.length ≠ t.size then stBadType else if t.encOk (leNat bs) && r.ok (leNat bs) then stOk else stBadValue

/-- The bytes that an entry takes at the head of a block's data: none where they are short. -/
def entryBytes (idx sub : Nat) (bs : List Byte) : Option Nat :=
  let fit := fun (n : Nat) => if n ≤ bs.length then some n else none
  if isImage idx then fit 4
  else match rowAt idx sub with
    | some r => if r.ty = .str then (if 2 ≤ bs.length then fit (2 + leAt bs 0 2) else none) else fit r.ty.size
    | none => some 0

/-! ### Roles (R487) -/

/-- The least role rank for a write; the lifecycle request's depends on the transition asked for (Table 16.6). -/
def needRank (z : Fuses) (key v : Nat) : Nat := if key = Ent.secLifecycleReq then lifecycleRole z v else writeRole key

/-! ### Own rules -/

/-- Functions hosted by a gated block (Table 15.3). -/
def hostedBy (b f : Nat) : Bool :=
  match b with
  | 0 => decide (f ≤ 0x40A) || range 0x410 0x48F f || range 0x540 0x541 f
  | 2 => f == fnTime
  | 3 => range 0x580 0x587 f
  | 4 => range 0x500 0x53F f
  | 5 => range 0x4A0 0x4C7 f
  | 7 => f == fnStream || range 0x5D0 0x5DF f
  | 11 => f == fnRed
  | 12 => range 0x548 0x549 f
  | _ => false

/-- A function hosted by a block is not STOPPED (R459). -/
def hostsBusy (m : Module) (b : Nat) : Bool := m.funcs.any fun x => x.2.st != .stopped && hostedBy b x.1

/-- A SAVE, an EXPORT or a DOM transfer is open (R462, R482). -/
def transfersOpen (m : Module) : Bool := m.odp.save.isSome || !m.odp.exports.isEmpty || !m.odp.domWrites.isEmpty || !m.odp.domReads.isEmpty

/-- An EXPORT of a kind is held. -/
def exportHeld (m : Module) (kind : Nat) : Bool := m.odp.exports.any fun e => e.kind == kind

/-- A force that enables an address enabled in another entry, by the values last written (R232). -/
def forceTaken (m : Module) (key v : Nat) : Bool :=
  bit v 18 && m.dict.shadow.any fun e => e.1 != key && range 0x3020 0x303F (e.1 / 256) && bit e.2 18 && bits e.2 17 0 == bits v 17 0

/-- SWITCH of a loaded image: reasons 8 and 11 are checked again (R237). -/
def switchStatus (m : Module) : Nat :=
  if m.flint.change != .loaded then stOk
  else match flintFinding m (m.cfgB Ent.flintLoad) with
    | some (_, 8) => stBadValue
    | some (_, 11) => stOutCapacity
    | _ => stOk

/-- The object of a data entry (Table 10.10): port and object. -/
def dataObject (key : Nat) : Nat × Nat := ((key / 256 - 0x3B00) / 8, (key / 256 - 0x3B00) % 8 * 16 + (key % 256 - 1) / 8)

/-- An entry's own rule on a well-formed value (step 11 of R522): OK, OK_NOCHANGE, or the refusal. -/
def ownRule (z : Fuses) (key v : Nat) (m : Module) : Nat :=
  let idx := key / 256
  let sub := key % 256
  let busyIf := fun (c : Bool) => if c then stBusy else stOk
  if key = Ent.clkMgmtDiv ∨ key = Ent.clkMotionDiv then (if m.stopped fnEngine then stOk else stNotStopped)
  else if range 0x1020 0x102D idx then busyIf (v == 0 && hostsBusy m (idx - 0x1020))
  else if key = Ent.pwrStateReq then
    (if !m.stopped fnEngine then stNotStopped else busyIf (range 1 3 m.red.st || transfersOpen m))
  else if key = Ent.timeSet then timeSetCheck m
  else if key = Ent.timeAcceptStep then (if v = 1 ∧ m.time.gmJump = false then stOkNochange else stOk)
  else if key = Ent.secLifecycleReq then lifecycleCheck z m v
  else if key = Ent.secCommitSv then (if v = 1 ∧ z.sv = m.sec.runtimeSv then stOkNochange else stOk)
  else if range 0x1810 0x1817 idx then (if anchorUseRefused z m (idx - 0x1810) v then stBadValue else stOk)
  else if key = Ent.redHandover then busyIf (!(m.red.hold && m.red.partnerState == 3))
  else if range 0x2000 0x23FF idx && (isNextSub sub || sub == 0x63) then busyIf (!m.up (idx - 0x2000))
  else if range 0x2C40 0x2C7F idx && sub == 2 then busyIf (!m.up (fnRecipe (idx - 0x2C40)))
  else if range 0x2C40 0x2C7F idx && sub == 3 then
    (if v ≠ 0xFFFF ∧ rcSteps (recipeImg m (idx - 0x2C40)) ≤ v then stBadValue else stOk)
  else if key = Ent.flintChange then (if v = 1 then switchStatus m else stOk)
  else if range 0x3020 0x303F idx then (if forceTaken m key v then stBadValue else stOk)
  else if range 0x3B00 0x3B3F idx then
    (let o := dataObject key; if objKind ((if m.active (0x580 + o.1) then m.cfg else m.shad) (Ent.fbObj o.1 o.2)) = 3 then stOk else stBadValue)
  else if range 0x3C40 0x3C4F idx && sub == 0x10 then (if bit v (idx - 0x3C40) then stBadValue else stOk)
  else if range 0x3C40 0x3C4F idx && sub == 0x14 then busyIf (captureHeld m (idx - 0x3C40) v)
  else if key = Ent.agateClear then (if v ≠ m.lastSeq then stBadValue else busyIf (exportHeld m 0x10))
  else stOk

/-! ### The checks of a write, in order (R522, steps 5 to 11) -/

/-- A member of a pair in RESYNC refuses writes to RWS entries of shared functions (R444). -/
def resyncRefuses (m : Module) (key : Nat) : Bool :=
  m.red.st == 1 && (match ownerOf key with | some f => sharedFn f | none => true)

/-- A write to a process-image word (R34, R460). -/
def imageStatus (m : Module) (a : Nat) (bs : List Byte) : Nat :=
  if owned m a then stReadOnly else if bs.length ≠ 4 then stBadType else if m.ticking then stOk else stBusy

/-- The checks of a write of some bytes to one entry. -/
def writeStatus (z : Fuses) (c : Writer) (idx sub : Nat) (bs : List Byte) (m : Module) : Nat :=
  let key := keyOf idx sub
  let e := entryStatus m idx sub
  if e != stOk then e
  else if c.rank < needRank z key (leNat bs) then stRole
  else if isImage idx then imageStatus m (imageAddr idx sub) bs
  else match rowAt idx sub with
    | none => stNoEntry
    | some r =>
      let acc := r.access idx sub
      if acc = .const ∨ acc = .ro then stReadOnly
      else if acc = .rws && (match ownerOf key with | some f => !m.stopped f | none => false) then stNotStopped
      else
        let s := formStatus r bs
        if s != stOk then s
        else if acc = .rws && resyncRefuses m key then stBusy
        else if r.ty = .str then stOk else ownRule z key (leNat bs) m

/-! ### Effects (R45) -/

/-- Operations of an earlier instant that can read a characteristic table wait or run (R87). -/
def tableInUse (m : Module) (t before : Nat) : Bool :=
  m.disp.insts.any fun i => decide (i.epoch < before) &&
    (match m.desc i.desc with
     | some d =>
       if d.kind = 0 ∧ m.cfg (Ent.loopKernel d.slot) = 0 then m.cfg (Ent.loopPvChar d.slot) == 3 && m.cfg (Ent.loopPvTable d.slot) == t
       else (d.kind == 0 || d.kind == 1) && (List.range (kimgCount m.kimg)).any fun w =>
         match laneDecode (kimgWord m.kimg w) with
         | some (.alu .tlkp f) => f.imm.val % 256 == t
         | _ => false
     | none => false)

/-- The table that a point's key belongs to. -/
def tableOf (key : Nat) : Nat := (key / 256 - 0x2840) * 4 + (key % 256 - 1) / 33

/-- A table's next change must wait (R87). -/
def tableWaits (m : Module) (t : Nat) : Bool :=
  match m.loop.tabOld.find? (fun x => x.1 == t) with
  | some x => tableInUse m t x.2.1
  | none => false

/-- Keep a table as it stands before its first change at the sample instant of epoch `e`. -/
def tableKeep (t : Nat) (e : Option Nat) (m : Module) : Module :=
  match e with
  | none => { m with loop := { m.loop with tabOld := m.loop.tabOld.filter fun x => x.1 != t } }
  | some e =>
    if m.loop.tabOld.any (fun x => x.1 == t && x.2.1 == e) then m
    else { m with loop := { m.loop with tabOld := (m.loop.tabOld.filter fun x => x.1 != t) ++ [(t, e, m.livePts t)] } }

/-- `dbg.request` takes effect (R485, R486): D0 or D1. -/
def debugRequest (lev session : Nat) (m : Module) : Module := changeLevel (min lev 1) 0 session m

/-- `red.demote` takes effect (R433). -/
def redDemote (m : Module) : Module := endLockstep 9 m

/-- `red.resync` takes effect: STANDBY_FAULT is cleared, and RESYNC begins where Table 14.2 allows it. -/
def redResync (m : Module) : Module :=
  let m := { m with red := { m.red with verifyFails := 0 } }
  if pairFormed m && resyncFrom m && !m.red.wiring then startResync m else m

/-- `red.handover` takes effect: a release for the command (R438). -/
def redHandover (m : Module) : Module :=
  if m.red.hold ∧ m.red.partnerState = 3 then { m with red := { m.red with releaseDue := some 1 } } else m

/-- A slot's RW entry takes effect at its sample instant. -/
def slotWrite (n sub v : Nat) (m : Module) : Module :=
  match sub with
  | 0x60 => slotModeWrite n v m
  | 0x61 => slotSpWrite n v m
  | 0x62 => slotManWrite n v m
  | 0x63 => slotSwap n m
  | _ => if isNextSub sub then slotNextWrite n sub v m else m

/-- A port's commands (R324, R326, R331). -/
def portCommand (p sub v : Nat) (m : Module) : Module :=
  match sub with
  | 0x17 => fbSleep p v m
  | 0x18 => if v = 1 then fbRecover p m else m
  | 0x19 => fbCancel p v m
  | _ => m

/-- A window's commands (Table 11.6). -/
def winCommand (w v e : Nat) (m : Module) : Module :=
  match v with
  | 1 => winArm w m
  | 2 => winDisarm w m
  | _ => if m.active (fnWin w) then trigger w ⟨7, 0, e, m.now⟩ m else m

/-- What a written value does when it takes effect, at the sample instant of epoch `e` or at none. -/
def writeEffect (e : Option Nat) (w : PendW) (m : Module) : Module :=
  let key := w.key
  let idx := key / 256
  let sub := key % 256
  let ep := e.getD 0
  if range 0x1020 0x102D idx then applyGates (m.setCfg key w.val)
  else if key = Ent.timeAcceptStep then (if w.val = 1 ∧ m.time.gmJump = true then { m with time := { m.time with accept := true } } else m)
  else if key = Ent.dbgRequest then debugRequest w.val w.session m
  else if key = Ent.redHandover then redHandover m
  else if key = Ent.redDemote then redDemote m
  else if key = Ent.redResync then redResync m
  else if range 0x2000 0x23FF idx then slotWrite (idx - 0x2000) sub w.val (if sub = 0x63 then m else m.setCfg key w.val)
  else if range 0x2840 0x287F idx then (tableKeep (tableOf key) e m).setCfg key w.val
  else if range 0x2818 0x281F idx then (if w.val = 1 then overrunClear (idx - 0x2818) ep m else m)
  else if range 0x2C40 0x2C7F idx && sub == 2 then recipeCommand (idx - 0x2C40) w.val ep m
  else if key = Ent.flintChange then (if w.val = 1 then flintPending m else flintDiscard m)
  else if range 0x3010 0x3017 idx then (if w.val = 1 then taskFaultClear (idx - 0x3010) m else m)
  else if key = Ent.doFaultClear then doFaultsClear w.val m
  else if range 0x3800 0x3807 idx then portCommand (idx - 0x3800) sub w.val m
  else if range 0x3B00 0x3B3F idx then m.setCfg key w.val
  else if key = Ent.acqStreamAttach then (if w.val = 1 then streamAttach w.session m else m)
  else if range 0x3C40 0x3C4F idx then (if sub = 0x13 then winCommand (idx - 0x3C40) w.val ep m else winRelease (idx - 0x3C40) w.val m)
  else if key = Ent.agateClear then (if m.standby then m else agateClear w.session m)
  else m.setCfg key w.val

/-- The security-version counter rises to the running image's version (R476). -/
def commitSv (z : Fuses) (m : Module) : Fuses := { z with sv := max z.sv m.sec.runtimeSv }

/-- A write takes effect, the fuses with it. -/
def applyWrite (e : Option Nat) (w : PendW) (z : Fuses) (m : Module) : Fuses × Module :=
  if w.key = Ent.secCommitSv then (if w.val = 1 then commitSv z m else z, m) else (z, writeEffect e w m)

/-! ### Acceptance -/

/-- Entry to DEEP begins (R462): sessions end, and ports go to sleep. -/
def deepRequest (m : Module) : Module :=
  let m := forL (m.odp.sessions.map Session.id) (closeSession 5) { m with power := { m.power with deepEntry := true } }
  forL (upPorts m) (fun p m => fbSleep p 1 m) m

/-- Entries that take effect when the dictionary server accepts them, or that are stored elsewhere than in a cell. -/
def acceptNow (c : Writer) (key v : Nat) (z : Fuses) (m : Module) : Option (Fuses × Module) :=
  let idx := key / 256
  if range 0x400 0xBFF idx then some (z, m.modFn (idx - 0x400) fun x => { x with expectedCrc := v, armed := true })
  else if key = Ent.pwrStateReq then some (z, deepRequest m)
  else if key = Ent.modThermalWarn then some (z, m.setBoth key v)
  else if key = Ent.timeSet then some (z, timeSet (wireT80 v) m)
  else if key = Ent.secLifecycleReq then some (lifecycleAccept v c.session z m)
  else if key = Ent.secSlotPref then some (z, { m.setBoth key v with nv := { m.nv with slotPref := v } })
  else if range 0x1810 0x1817 idx then some (z, setAnchor (idx - 0x1810) v (m.anchor (idx - 0x1810)).2 c.session m)
  else if key = Ent.agateNote then some (z, if c.replay then m else agateNote v m)
  else if range 0x1020 0x102D idx && m.stopped fnEngine then some (z, applyGates (m.setBoth key v))
  else none

/-- A write waits for its owner's sample instant (R45). A later write of one entry replaces the earlier, but for an axis's commands (R245). -/
def pendWrite (w : PendW) (m : Module) : Module :=
  let both := range 0x3130 0x314F (w.key / 256)
  let rest := if both then m.odp.pend else m.odp.pend.filter fun x => x.key != w.key
  { m with odp := { m.odp with pend := rest ++ [w] } }

/-- A write's owner has a sample instant to wait for: base ticks run, or it belongs to a rate group. -/
def hasMoment (m : Module) (w : PendW) : Bool := m.ticking || (w.owner.bind (fnRate m)).isSome

/-- A write that takes effect at once, with no base tick (R523). -/
def applyAtOnce (w : PendW) (z : Fuses) (m : Module) : Fuses × Module :=
  let (z, m) := applyWrite none w z m
  if range 0x3B00 0x3B3F (w.key / 256) then (z, hostObject (dataObject w.key).1 (dataObject w.key).2 0 m) else (z, m)

/-- A number is accepted. -/
def acceptNum (c : Writer) (key v : Nat) (r : Row) (z : Fuses) (m : Module) : Fuses × Module :=
  match acceptNow c key v z m with
  | some x => x
  | none =>
    if r.acc = .rws then (z, m.setShad key v)
    else
      let w : PendW := ⟨key, v, ownerOf key, c.session⟩
      let m := if r.acc = .rw then m.setShad key v else m
      if hasMoment m w then (z, pendWrite w m) else applyAtOnce w z m

/-- A write to a free process-image word is accepted (R34). -/
def acceptWord (a : Nat) (v : Nat) (m : Module) : Module :=
  if m.stopped fnEngine then putForced a (mkWord sVALID 0 false (wireQ v)) m
  else { m with odp := { m.odp with pendWords := m.odp.pendWords ++ [(a, wireQ v)] } }

/-- Bytes that have passed their checks are accepted by one entry. -/
def acceptWrite (c : Writer) (idx sub : Nat) (bs : List Byte) (z : Fuses) (m : Module) : Fuses × Module :=
  if isImage idx then (z, acceptWord (imageAddr idx sub) (leNat bs) m)
  else match rowAt idx sub with
    | none => (z, m)
    | some r => if r.ty = .str then (z, m.setShadB (keyOf idx sub) (bs.drop 2)) else acceptNum c (keyOf idx sub) (leNat bs) r z m

/-- A refused access to a word of the gated loop island is counted (R460). -/
def noteGateRefused (idx st : Nat) (m : Module) : Module := if isImage idx && st == stBusy && !m.ticking then m.bump (Ent.gateRefused 0) else m

/-- A WRITE to one entry that is no DOM: the status, and the machine after it. -/
def writeEntry (c : Writer) (idx sub : Nat) (bs : List Byte) (z : Fuses) (m : Module) : Nat × Fuses × Module :=
  let st := writeStatus z c idx sub bs m
  if 0x10 ≤ st then (st, z, noteGateRefused idx st m)
  else if st = stOkNochange then (st, z, m)
  else (st, acceptWrite c idx sub bs z m)

/-! ### Blocks (R71, R72) -/

/-- The next entry of a block: in the process image across indices, elsewhere within one index. -/
def nextEntry (e : Nat × Nat) : Nat × Nat := if isImage e.1 && e.2 == 255 then (e.1 + 1, 0) else (e.1, e.2 + 1)

/-- Consecutive entries. -/
def blockEntries : Nat → Nat × Nat → List (Nat × Nat)
  | 0, _ => []
  | n + 1, e => e :: blockEntries n (nextEntry e)

/-- Wire bytes that an entry takes at least. -/
def leastBytes (e : Nat × Nat) : Nat :=
  if isImage e.1 then 4 else match rowAt e.1 e.2 with | some r => if r.ty = .str then 2 else r.ty.size | none => 0

def isDomEntry (e : Nat × Nat) : Bool := !isImage e.1 && (match rowAt e.1 e.2 with | some r => r.ty == .dom | none => false)

/-- The entries of a block, or the refusal of the block as a whole: count 0, past the highest sub-index, a reserved sub, a DOM, too many bytes. -/
def blockShape (m : Module) (idx sub count : Nat) : Nat × List (Nat × Nat) :=
  if count = 0 then (stBadValue, [])
  else if 1396 < count then (stTooLong, [])
  else
    let es := blockEntries count (idx, sub)
    let st :=
      if isImage idx then (if es.all fun e => isImage e.1 then stOk else stNoEntry)
      else match highest idx with
        | some top => if idx < 0xF000 && decide (top < sub + count - 1) then stNoSub else stOk
        | none => stOk
    if st != stOk then (st, [])
    else if !isImage idx && decide (idx < 0xF000) && (highest idx).isSome && es.any (fun e => (rowAt e.1 e.2).isNone) then (stNoEntry, [])
    else if es.any isDomEntry then (stBadType, [])
    else if 1396 < (es.map leastBytes).sum then (stTooLong, [])
    else (entryStatus m idx sub, es)

/-- Cut a block's data along its entries: the pieces, or the position of the first entry whose bytes are short. -/
def cutBlock : List (Nat × Nat) → List Byte → Nat → Except Nat (List (List Byte))
  | [], bs, i => if bs.isEmpty then .ok [] else .error i
  | e :: es, bs, i =>
    match entryBytes e.1 e.2 bs with
    | none => .error i
    | some n =>
      match cutBlock es (bs.drop n) (i + 1) with
      | .ok l => .ok (bs.take n :: l)
      | .error j => .error j

/-- Write the entries in order: each is checked against what the earlier ones would leave; the first that fails refuses the block with its position. -/
def writeAll (c : Writer) : List ((Nat × Nat) × List Byte) → Nat → Fuses → Module → Nat × Nat × Fuses × Module
  | [], _, z, m => (stOk, 0, z, m)
  | (e, bs) :: l, i, z, m =>
    let (st, z, m) := writeEntry c e.1 e.2 bs z m
    if 0x10 ≤ st then (st, i, z, m) else writeAll c l (i + 1) z m

/-- WRITE_BLOCK: status, position of the failing entry, and the machine after it; a refused block leaves it as it was but for what the refusal counts. -/
def writeBlock (c : Writer) (idx sub count : Nat) (bs : List Byte) (z : Fuses) (m : Module) : Nat × Option Nat × Fuses × Module :=
  match blockShape m idx sub count with
  | (st, es) =>
    if st != stOk then (st, none, z, m)
    else match cutBlock es bs 0 with
      | .error i => (stBadType, some i, z, m)
      | .ok parts =>
        let (st, i, z', m') := writeAll c (es.zip parts) 0 z m
        if 0x10 ≤ st then (st, some i, z, noteGateRefused (es.getD i (0, 0)).1 st m) else (st, none, z', m')

end Sys2Proof.Machine
end

