-- ==== Sys2Proof/Machine/Answers.lean ====
section
/-! DEFINITION. What each ODP operation answers and does (R45, R52, R60, R71 to R79), once its frame is taken and its flags are in order. -/

namespace Sys2Proof.Machine

/-- What handling a request gives: status, position of a failing entry, data, whether the response comes later, and what the request leaves. -/
structure Answer where
  status : Nat
  pos : Option Nat
  data : List Byte
  later : Bool
  fuses : Fuses
  mod : Module
  deriving DecidableEq, Repr

/-- An answer with no data. -/
def statusOnly (st : Nat) (z : Fuses) (m : Module) : Answer := ⟨st, none, [], false, z, m⟩

/-- OK with data. -/
def okData (data : List Byte) (z : Fuses) (m : Module) : Answer := ⟨stOk, none, data, false, z, m⟩

/-! ### READ and READ_BLOCK (R45, R73) -/

/-- The value of one entry that is no DOM: a status, the wire bytes, and the module after it (a measured value has been taken, a refused access to a gated block counted). -/
def readEntry (z : Fuses) (shadow : Bool) (idx sub : Nat) (m : Module) : Nat × List Byte × Module :=
  let e := entryStatus m idx sub
  if e != stOk then (e, [], m)
  else if isImage idx then
    (if m.ticking then (stOk, leBytes 4 (m.word (imageAddr idx sub)).toNat, m) else (stBusy, [], noteGateRefused idx stBusy m))
  else match rowAt idx sub with
    | none => (stNoEntry, [], m)
    | some r =>
      if r.access idx sub = .wo then (stWriteOnly, [], m)
      else let (b, m) := readBytes z shadow (keyOf idx sub) r m; (stOk, b, m)

/-- Read entries in order; the first that fails decides, with its position. -/
def readAll (z : Fuses) (shadow : Bool) : List (Nat × Nat) → Nat → Module → Nat × Option Nat × List Byte × Module
  | [], _, m => (stOk, none, [], m)
  | e :: es, i, m =>
    let (st, b, m) := readEntry z shadow e.1 e.2 m
    if st != stOk then (st, some i, [], m)
    else
      let (st, p, bs, m) := readAll z shadow es (i + 1) m
      (st, p, b ++ bs, m)

/-- READ_BLOCK: the block as a whole, then its entries. -/
def readBlock (z : Fuses) (r : Req) (m : Module) : Answer :=
  match blockShape m r.index r.sub r.operand with
  | (st, es) =>
    if st != stOk then statusOnly st z m
    else
      let (st, p, bs, m') := readAll z (bit r.flags 0) es 0 m
      if st != stOk then ⟨st, p, [], false, z, m'⟩
      else if 1396 < bs.length then statusOnly stTooLong z m
      else okData bs z m'

/-! ### READ of a DOM (R76) -/

/-- A number in an index that stands for each port. -/
def portOf (key : Nat) : Nat := key / 256 - 0x3800

/-- The value that INIT holds: a fresh challenge, the frames of a receive buffer, or the entry's bytes. -/
def domValue (z : Fuses) (shadow : Bool) (key : Nat) (r : Row) (m : Module) : List Byte × Module :=
  if key = Ent.dbgChallenge then newChallenge z m
  else if range 0x3800 0x3807 (key / 256) && key % 256 == 0x1B then takeRx (portOf key) m
  else (blockVal m shadow key r, m)

/-- The value a session holds for an entry. -/
def heldDom (m : Module) (session key : Nat) : Option DomRead := m.odp.domReads.find? fun x => x.session == session && x.key == key

/-- A session holds no value of an entry any more. -/
def dropDom (session key : Nat) (m : Module) : Module :=
  { m with odp := { m.odp with domReads := m.odp.domReads.filter fun x => !(x.session == session && x.key == key) } }

/-- A segment from an offset; the one with the last byte releases the value. -/
def domSegment (x : DomRead) (off : Nat) (z : Fuses) (m : Module) : Answer :=
  if x.data.length < off then statusOnly stBadValue z m
  else
    let bs := (x.data.drop off).take 1396
    okData bs z (if !bs.isEmpty && off + bs.length == x.data.length then dropDom x.session x.key m else m)

/-- READ with INIT, SEG or END. -/
def readDom (r : Req) (row : Row) (z : Fuses) (m : Module) : Answer :=
  let key := keyOf r.index r.sub
  let session := r.fr.session
  if row.access r.index r.sub = .wo then statusOnly stWriteOnly z m
  else if bit r.flags 1 then
    let (bs, m) := domValue z (bit r.flags 0) key row m
    let m := dropDom session key m
    okData (leBytes 4 bs.length ++ leBytes 4 (crc32c bs)) z
      { m with odp := { m.odp with domReads := m.odp.domReads ++ [⟨key, session, bs⟩] } }
  else match heldDom m session key with
    | none => statusOnly stSegOrder z m
    | some x => if bit r.flags 2 then domSegment x r.operand z m else statusOnly stOk z (dropDom session key m)

/-- READ. -/
def readReq (r : Req) (z : Fuses) (m : Module) : Answer :=
  match (if isImage r.index || entryStatus m r.index r.sub != stOk then none else rowAt r.index r.sub) with
  | some row =>
    if row.ty = .dom then readDom r row z m
    else let (st, b, m) := readEntry z (bit r.flags 0) r.index r.sub m; ⟨st, none, b, false, z, m⟩
  | none => let (st, b, m) := readEntry z (bit r.flags 0) r.index r.sub m; ⟨st, none, b, false, z, m⟩

/-! ### WRITE of a DOM (R74, R75) -/

/-- The open transfer of an entry. -/
def openDom (m : Module) (key : Nat) : Option DomWrite := m.odp.domWrites.find? fun x => x.key == key

/-- No transfer of an entry is open any more. -/
def closeDom (key : Nat) (m : Module) : Module := { m with odp := { m.odp with domWrites := m.odp.domWrites.filter fun x => x.key != key } }

/-- The transfer of an entry becomes this one. -/
def putDom (x : DomWrite) (m : Module) : Module :=
  let m := closeDom x.key m
  { m with odp := { m.odp with domWrites := m.odp.domWrites ++ [x] } }

/-- An owner anchor's number. -/
def anchorOf (key : Nat) : Nat := key / 256 - 0x1810

/-- Own rules that hold for INIT, SEG and END alike: a pair's RESYNC (R444), another session's transfer (R75), an anchor in use (R488), an online change (R237). -/
def domBusy (c : Writer) (key : Nat) (init : Bool) (m : Module) : Bool :=
  (m.red.st == 1 && !memberLocal key && !c.replay) ||
    (match openDom m key with | some x => x.session != c.session | none => false) ||
    (range 0x1810 0x1817 (key / 256) && (m.anchor (anchorOf key)).1 != 0) ||
    (key == Ent.flintLoad && (!m.running fnFlint || (init && m.flint.change == .pending)))

/-- A segment for the open transfer: a repeat of the last, the next one, or a refusal. -/
def domNext (x : DomWrite) (off : Nat) (bs : List Byte) (m : Module) : Nat × Module :=
  if x.last = some (off, bs) then (stOk, m)
  else if off != x.data.length then (stSegOrder, m)
  else if x.total < off + bs.length then (stTooLong, m)
  else (stOk, putDom { x with data := x.data ++ bs, last := some (off, bs) } m)

/-- A runtime image goes to the boot slot that is not running (R476); in recovery none is, and which of the two it goes to is free. -/
def storeRuntime (bs : List Byte) (m : Module) : Module :=
  let (v, m) := if m.power.recovery then takeFree m else (1 - m.sec.slot, m)
  if v % 2 = 0 then { m with nv := { m.nv with flash0 := bs } } else { m with nv := { m.nv with flash1 := bs } }

/-- A loaded image that has passed its checks (R237). -/
def flintLoaded (bs : List Byte) (m : Module) : Module :=
  let img := parseFlint bs
  let m := (m.setCfgB Ent.flintLoad bs).setShadB Ent.flintLoad bs
  ({ m with flint := { m.flint with loaded := some img, change := .loaded } }.setStat Ent.flintChangeState 1).setStat Ent.flintLoadedId img.pid

/-- The form check of END, and the entry's new value: the status, and the module after it. -/
def domStore (c : Writer) (key : Nat) (row : Row) (bs : List Byte) (z : Fuses) (m : Module) : Nat × Module :=
  if key = Ent.dispGraph ∧ bs.length % 16 ≠ 0 then (stBadValue, m)
  else if row.acc = .rws then (stOk, m.setShadB key bs)
  else if key = Ent.flintLoad then
    (if m.flint.change = .pending then (stBusy, m)
     else
       let (st, m) := flintVerdict bs m
       (st, if st = stOk then flintLoaded bs m else m))
  else if range 0x1810 0x1817 (key / 256) then (stOk, setAnchor (anchorOf key) 0 bs c.session m)
  else if key = Ent.secRuntimeUpdate then (stOk, storeRuntime bs m)
  else if key = Ent.attNonce then writeNonce z bs m
  else if key = Ent.dbgToken then writeToken z c.session bs m
  else fbSend (portOf key) bs m

/-- END: all bytes and their CRC, the signature, the form; the transfer is over in any case. A refused END of `flint.load` leaves no loaded image. -/
def domEnd (c : Writer) (x : DomWrite) (crc : Nat) (row : Row) (z : Fuses) (m : Module) : Nat × Module :=
  let m := closeDom x.key m
  let (st, m) :=
    if x.data.length ≠ x.total ∨ crc ≠ crc32c x.data then (stSegCrc, m)
    else
      let (st, m) := sigAtEnd z x.key c.session x.data m
      if st = stOk then domStore c x.key row x.data z m else (st, m)
  (st, if st ≠ stOk ∧ x.key = Ent.flintLoad ∧ m.flint.change = .loaded then flintDiscard m else m)

/-- WRITE with INIT, SEG or END (R522, steps 5 to 11). -/
def writeDom (c : Writer) (r : Req) (row : Row) (z : Fuses) (m : Module) : Nat × Module :=
  let key := keyOf r.index r.sub
  let init := bit r.flags 1
  let acc := row.access r.index r.sub
  if c.rank < needRank z key 0 then (stRole, m)
  else if acc = .const ∨ acc = .ro then (stReadOnly, m)
  else if acc = .rws && (match ownerOf key with | some f => !m.stopped f | none => false) then (stNotStopped, m)
  else if init && decide (row.max < r.operand) then (stTooLong, m)
  else if domBusy c key init m then (stBusy, m)
  else if init then (stOk, putDom ⟨key, c.session, r.operand, [], none⟩ m)
  else match openDom m key with
    | none => (stSegOrder, m)
    | some x => if bit r.flags 2 then domNext x r.operand r.data m else domEnd c x r.operand row z m

/-- WRITE. -/
def writeReq (c : Writer) (r : Req) (z : Fuses) (m : Module) : Answer :=
  let whole := fun (_ : Unit) => let (st, z, m) := writeEntry c r.index r.sub r.data z m; statusOnly st z m
  match (if isImage r.index || entryStatus m r.index r.sub != stOk then none else rowAt r.index r.sub) with
  | some row => if row.ty = .dom then (let (st, m) := writeDom c r row z m; statusOnly st z m) else whole ()
  | none => whole ()

/-- WRITE_BLOCK. -/
def writeBlockReq (c : Writer) (r : Req) (z : Fuses) (m : Module) : Answer :=
  let (st, p, z, m) := writeBlock c r.index r.sub r.operand r.data z m
  ⟨st, p, [], false, z, m⟩

/-! ### START and STOP (R52, R53) -/

/-- Event 1006h or 1007h for a START, STOP or SAVE of a session (R490); a change that the holder has passed on is recorded there. -/
def noteCommand (c : Writer) (num op st res : Nat) (m : Module) : Module :=
  if c.replay then m
  else if st < 0x10 then mgmtEvent 0x0E01 0x1006 num op res c.session 0 m
  else mgmtEvent 0x0E01 0x1007 num op st c.session 0 m

/-- The function commands are closed until Ready, and to shared functions in RESYNC (R444, R514). -/
def commandsClosed (c : Writer) (f : Nat) (m : Module) : Bool :=
  m.stat Ent.bootReady == 0 || (m.red.st == 1 && sharedFn f && !c.replay)

/-- START and STOP; `run` is the function table's own operation. -/
def fnCommand (c : Writer) (r : Req) (run : Module → Nat × Module) (z : Fuses) (m : Module) : Answer :=
  let f := r.operand
  if !isFn f then statusOnly stNoEntry z (noteCommand c (f % 65536) r.op stNoEntry 0 m)
  else if c.rank < 2 then statusOnly stRole z (noteCommand c f r.op stRole 0 m)
  else
    let (st, m) := if commandsClosed c f m then (stBusy, noteRefusal f stBusy m) else run m
    let state := (m.fn f).st.code
    if st = stInProgress then ⟨st, none, [], true, z, m⟩
    else ⟨st, none, leBytes 1 state, false, z, noteCommand c f r.op st state m⟩

/-- A standby that applies its holder's START of a trunk link asks no satellite: the holder's has accepted it. -/
def startReplay (f : Nat) (m : Module) : Nat × Module :=
  let (st, m) := startChecks f m
  if st = stOk then (stOk, beginStart f m) else (st, noteRefusal f st m)

def startReq (c : Writer) (r : Req) (z : Fuses) (m : Module) : Answer :=
  let trunk := range 0x548 0x549 r.operand && (m.fn r.operand).st == .stopped
  fnCommand c r (if c.replay && trunk then startReplay r.operand else startFn r.operand c.session r) z m
def stopReq (c : Writer) (r : Req) (z : Fuses) (m : Module) : Answer := fnCommand c r (stopFn r.operand) z m

/-! ### SAVE (R59 to R61) -/

/-- The RW entries of a slot (Table 3.12). -/
def slotRwSubs : List Nat := (List.range 256).filter fun s => (rowAt 0x2000 s).any fun r => r.acc == .rw

/-- The RW entries that a SAVE stores, each as a READ gives it. -/
def savedRw (m : Module) : Sparse Nat :=
  let rw := m.dict.shadow.filter fun x => range 0x1000 0x3FFF (x.1 / 256) && (rowAt (x.1 / 256) (x.1 % 256)).any fun r => r.acc == .rw
  forL ((List.range 1024).filter m.active) (fun n l => forL slotRwSubs (fun s l => Sparse.set dfltCell l (keyOf (0x2000 + n) s) (slotRwVal m n s)) l) rw

/-- What a SAVE stores (R59). -/
def snapshot (m : Module) : BankBody :=
  let acc := fun (k : Nat) => (rowAt (k / 256) (k % 256)).map Row.acc
  ⟨m.dict.shadow.filter (fun x => acc x.1 == some .rws), m.dict.shadowB.filter (fun x => acc x.1 == some .rws), savedRw m,
   m.dict.shadowB.filter (fun x => acc x.1 == some .rw && range 0x1000 0x3FFF (x.1 / 256)),
   (m.funcs.filter fun x => x.2.st == .starting || x.2.st == .running).map Prod.fst⟩

def Module.bank (m : Module) (k : Nat) : Option Bank := if k = 0 then m.nv.bank0 else m.nv.bank1
def setBank (k : Nat) (b : Option Bank) (m : Module) : Module :=
  if k = 0 then { m with nv := { m.nv with bank0 := b } } else { m with nv := { m.nv with bank1 := b } }

/-- The entry that shows a bank valid. -/
def bankValidKey (k : Nat) : Nat := if k = 0 then Ent.cfgBank0Valid else Ent.cfgBank1Valid

/-- The bank that a SAVE writes: the one not in use; with factory defaults in use, either. -/
def saveBank (m : Module) : Nat × Module :=
  match m.stat Ent.cfgActiveBank with
  | 0 => (1, m)
  | 1 => (0, m)
  | _ => let (v, m) := takeFree m; (v % 2, m)

/-- The snapshot stands in DRAM, and the bank is being written: no header makes it valid yet. -/
def saveBegin (c : Writer) (r : Req) (m : Module) : Module :=
  let (k, m) := saveBank m
  let seq := (m.stat Ent.cfgActiveSequence + 1) % 2 ^ 32
  let b : Bank := ⟨false, true, seq, m.now, m.free, snapshot m⟩
  let m := setBank k (some b) { m with free := m.free + 1 }
  let m := { m with odp := { m.odp with save := some ⟨if c.replay then 0 else c.session, r, k, seq⟩ }, nv := { m.nv with saveOpen := true } }
  m.setStat Ent.cfgSaveState 2

/-- A body that a bank does not hold; the body of the next snapshot is numbered as `saveBegin` will number it. -/
def saveTooLong (m : Module) : Bool :=
  let n := (saveBank m).2.free
  decide (33554368 < (Config.bodyBytes n).length)

/-- SAVE: one at a time; its response comes with its end. -/
def saveReq (c : Writer) (r : Req) (z : Fuses) (m : Module) : Answer :=
  let refuse := fun (st : Nat) => statusOnly st z (noteCommand c 0xFFFF 7 st 0 m)
  if c.rank < 2 then refuse stRole
  else if m.odp.save.isSome || m.stat Ent.bootReady == 0 || (m.red.st == 1 && !c.replay) then refuse stBusy
  else if saveTooLong m then refuse stNvFull
  else ⟨stInProgress, none, [], true, z, saveBegin c r m⟩

/-! ### SUBSCRIBE (R77) -/

/-- The entries of a subscription list. -/
def subKeys (bs : List Byte) : List (Nat × Nat) := (List.range (leAt bs 5 1)).map fun i => (leAt bs (8 + 4 * i) 2, leAt bs (10 + 4 * i) 1)

/-- The most wire bytes of an entry's value. -/
def mostBytes (e : Nat × Nat) : Nat :=
  if isImage e.1 then 4 else match rowAt e.1 e.2 with | some r => if r.ty = .str then 2 + r.max else r.ty.size | none => 0

/-- An entry that a subscription cannot name. -/
def unreadable (e : Nat × Nat) : Bool :=
  isDomEntry e || (!isImage e.1 && (match rowAt e.1 e.2 with | some r => r.access e.1 e.2 == .wo | none => false))

/-- The refusal of a subscription list, or OK (R522). -/
def subStatus (session handle : Nat) (bs : List Byte) (m : Module) : Nat :=
  let n := leAt bs 5 1
  let es := subKeys bs
  match (es.map fun e => entryStatus m e.1 e.2).find? (fun s => s != stOk) with
  | some s => s
  | none =>
    if bs.length ≠ 8 + 4 * n then stBadType
    else if es.any unreadable then stBadType
    else if 1408 < 20 + (es.map mostBytes).sum then stTooLong
    else if n = 0 ∧ handle = 0 then stBadValue
    else if 64 < n ∨ leAt bs 6 2 ≠ 0 ∨ 1 < leAt bs 4 1 ∨ (List.range n).any (fun i => leAt bs (11 + 4 * i) 1 != 0) = true then stBadValue
    else if n ≠ 0 ∧ range 50 50000000 (leAt bs 0 4) = false then stBadValue
    else if handle ≠ 0 ∧ (m.odp.subs.any fun x => x.handle == handle && x.session == session) = false then stBadValue
    else if handle = 0 ∧ (16 ≤ (m.odp.subs.filter fun x => x.session == session).length ∨ 64 ≤ m.odp.subs.length) then stSubLimit
    else stOk

/-- The next handle, 1 to 65,535, that no subscription has. -/
def newHandle (m : Module) : Nat :=
  (((List.range 65).map fun i => (m.odp.lastHandle + i) % 65535 + 1).find? fun h => !m.odp.subs.any fun x => x.handle == h).getD 1

/-- SUBSCRIBE: a new subscription, a new list for one, or its end. -/
def subscribeReq (r : Req) (z : Fuses) (m : Module) : Answer :=
  let session := r.fr.session
  let bs := r.data
  let st := subStatus session r.operand bs m
  if st ≠ stOk then statusOnly st z m
  else
    let keys := (subKeys bs).map fun e => keyOf e.1 e.2
    let period := leAt bs 0 4
    let onChange := leAt bs 4 1 == 1
    if r.operand = 0 then
      let h := newHandle m
      let subs := m.odp.subs ++ [⟨h, session, period, onChange, keys, none, 0⟩]
      okData (leBytes 2 h) z { m with odp := { m.odp with subs := subs, lastHandle := h } }
    else
      let subs :=
        if leAt bs 5 1 = 0 then m.odp.subs.filter fun x => x.handle != r.operand
        else mapFirst (fun x => x.handle == r.operand) (fun x => { x with period := period, onChange := onChange, keys := keys, last := none }) m.odp.subs
      okData (leBytes 2 r.operand) z { m with odp := { m.odp with subs := subs } }

/-! ### EXPORT (R79, R368, R388) -/

/-- The bytes of the configuration bank in use (R60). -/
def bankBytes (b : Bank) : List Byte :=
  let body := Config.bodyBytes b.num
  let head := leBytes 4 0x4F434647 ++ leBytes 4 b.seq ++ leBytes 4 body.length ++ leBytes 4 (crc32c body) ++ leBytes 10 (t80Wire b.time)
  let head := padTo 60 head
  head ++ leBytes 4 (crc32c head) ++ body

/-- The header of a capture (Table 11.7). -/
def captureHead (w : Nat) (f : Finished) (body : List Byte) : List Byte :=
  let first := match f.blocks with | b :: _ => b.epoch | [] => 0
  let h := leBytes 4 0x43415054 ++ leBytes 2 1 ++ leBytes 1 w ++ leBytes 1 f.flags ++ leBytes 4 f.number ++ leBytes 8 f.trig.epoch ++
    leBytes 10 (t80Wire f.trig.time) ++ leBytes 1 f.trig.source ++ leBytes 1 f.trig.detail ++ leBytes 4 f.preCfg ++ leBytes 4 f.preValid ++
    leBytes 4 f.postCfg ++ leBytes 4 f.postValid ++ leBytes 8 first ++ leBytes 4 f.missed ++ leBytes 4 f.dead ++ leBytes 4 f.coincident ++
    leBytes 2 f.chans.length ++ leBytes 1 f.group ++ leBytes 1 f.discipline ++ leBytes 8 body.length ++ leBytes 10 (t80Wire f.epoch0) ++ serial16
  let h := padTo 124 h
  h ++ leBytes 4 (crc32c h)

/-- A finished capture as an object (R368). -/
def captureObject (w : Nat) (f : Finished) : List Byte :=
  let body := captureBytes f.blocks
  captureHead w f body ++ f.chans.flatten ++ body

/-- The object of a kind and instance, or the refusal. -/
def exportObject (m : Module) (kind inst : Nat) : Except Nat (List Byte) :=
  match kind with
  | 0x01 =>
    if inst ≠ 0 then .error stBadValue
    else match (if m.stat Ent.cfgActiveBank ≤ 1 then m.bank (m.stat Ent.cfgActiveBank) else none) with
      | some b => .ok (bankBytes b)
      | none => .error stBadValue
  | 0x10 => if inst ≠ 0 then .error stBadValue else .ok m.agateExport
  | 0x20 =>
    if 4096 ≤ inst then .error stBadValue
    else match Sparse.get (fun _ => (none : Option Finished)) (m.win (inst / 256)).slots (inst % 256) with
      | some f => .ok (captureObject (inst / 256) f)
      | none => .error stNoEntry
  | _ => .error stBadValue

/-- Whose transfer of an object it is. -/
def sameExport (session kind inst : Nat) (x : Export) : Bool := x.session == session && x.kind == kind && x.inst == inst

/-- A session holds an object no more. -/
def dropExport (session kind inst : Nat) (m : Module) : Module :=
  { m with odp := { m.odp with exports := m.odp.exports.filter fun x => !sameExport session kind inst x } }

/-- END's data: hash, time of the INIT, and the attestation key's signature over kind, instance, length, hash and time. -/
def exportProof (m : Module) (x : Export) : List Byte :=
  let h := sha384 x.data
  let t := leBytes 10 (t80Wire x.time)
  h ++ t ++ padTo 96 (Config.attSign m.sec.measurement (leBytes 1 x.kind ++ leBytes 3 x.inst ++ leBytes 8 x.data.length ++ h ++ t))

/-- EXPORT with INIT, SEG or END. -/
def exportReq (r : Req) (z : Fuses) (m : Module) : Answer :=
  let session := r.fr.session
  let kind := r.operand / 2 ^ 24 % 256
  let inst := r.operand % 2 ^ 24
  if bit r.flags 1 then
    match exportObject m kind inst with
    | .error st => statusOnly st z m
    | .ok bs =>
      let m := dropExport session kind inst m
      okData (leBytes 8 bs.length) z { m with odp := { m.odp with exports := m.odp.exports ++ [⟨session, kind, inst, bs, m.now⟩] } }
  else if bit r.flags 2 && r.data.length != 8 then statusOnly stBadType z m
  else match m.odp.exports.find? (sameExport session kind inst) with
    | none => statusOnly stSegOrder z m
    | some x =>
      if bit r.flags 2 then
        (if x.data.length < leNat r.data then statusOnly stBadValue z m else okData ((x.data.drop (leNat r.data)).take 1396) z m)
      else okData (exportProof m x) z (dropExport session kind inst m)

end Sys2Proof.Machine
end

