-- ==== Sys2Proof/Machine/Odp.lean ====
section
/-! DEFINITION. ODP requests (R66 to R80, R427, R429, R521, R522): the one path that every request takes, and the commands of the opcode table that are requests or belong to them. -/

namespace Sys2Proof.Machine

/-! ### Opcodes and flags (R521, R522) -/

/-- The operations of Table 2.11 that a host may ask for. -/
def isOp (op : Nat) : Bool := range 1 9 op || op == 15

/-- How many of INIT, SEG and END are set. -/
def parts (flags : Nat) : Nat := b01 (bit flags 1) + b01 (bit flags 2) + b01 (bit flags 3)

/-- Flags that do not suit the operation. An entry that does not stand is left to its own refusal. -/
def badFlags (m : Module) (r : Req) : Bool :=
  decide (16 ≤ r.flags % 256) || (bit r.flags 0 && r.op != 1 && r.op != 3) ||
    (if r.op = 1 ∨ r.op = 2 then
      entryStatus m r.index r.sub == stOk && (if isDomEntry (r.index, r.sub) then parts r.flags != 1 else parts r.flags != 0)
     else if r.op = 9 then parts r.flags != 1
     else parts r.flags != 0)

/-- What the reduced server of a boot ROM in recovery takes: reads, a write of `sec.runtime_update`, CLOSE (R475). -/
def recoveryRefusal (m : Module) (r : Req) : Option Nat :=
  if !m.power.recovery then none
  else if r.op = 2 then (if keyOf r.index r.sub = Ent.secRuntimeUpdate ∨ entryStatus m r.index r.sub ≠ stOk then none else some stReadOnly)
  else if r.op = 1 ∨ r.op = 3 ∨ r.op = 15 then none
  else some stBadOpcode

/-! ### Shared requests of a pair (R427, R429) -/

/-- The request would change something that both members of a pair hold. -/
def sharedReq (r : Req) : Bool :=
  match r.op with
  | 2 | 4 => !memberLocal (keyOf r.index r.sub)
  | 5 | 6 => isFn r.operand && sharedFn r.operand
  | 7 => true
  | _ => false

/-- The epoch at which a change takes effect (R45, R55): its owner's next sample instant. -/
def effEpoch (m : Module) (owner : Option Nat) : Nat :=
  match m.tick.epoch, owner.bind (fnRate m) with
  | none, _ => m.epochWire
  | some e, some g => e + divisor g - e % divisor g
  | some e, none => e + 1

/-- The function whose sample instant a request waits for. -/
def reqOwner (r : Req) : Option Nat :=
  match r.op with
  | 2 => ownerOf (keyOf r.index r.sub)
  | 5 | 6 => some r.operand
  | _ => none

/-! ### Handling (R522) -/

/-- A refused START, STOP or SAVE is recorded whatever refuses it (R490). -/
def refuseReq (c : Writer) (r : Req) (st : Nat) (z : Fuses) (m : Module) : Answer :=
  statusOnly st z (match r.op with
    | 5 | 6 => noteCommand c (r.operand % 65536) r.op st 0 m
    | 7 => noteCommand c 0xFFFF 7 st 0 m
    | _ => m)

/-- A request that has its place in the order of handling. -/
def handle (c : Writer) (r : Req) (z : Fuses) (m : Module) : Answer :=
  if !isOp r.op then statusOnly stBadOpcode z m
  else match recoveryRefusal m r with
  | some st => refuseReq c r st z m
  | none =>
    if badFlags m r then refuseReq c r stBadFlags z m
    else match r.op with
      | 1 => readReq r z m
      | 2 => writeReq c r z m
      | 3 => readBlock z r m
      | 4 => writeBlockReq c r z m
      | 5 => startReq c r z m
      | 6 => stopReq c r z m
      | 7 => saveReq c r z m
      | 8 => subscribeReq r z m
      | 9 => exportReq r z m
      | _ => statusOnly stOk z m

/-- A member that holds no token takes no change of shared entries outside lockstep (R429): BUSY where nothing else refuses it. -/
def handleHere (c : Writer) (r : Req) (z : Fuses) (m : Module) : Answer :=
  let a := handle c r z m
  if sharedReq r && !m.holder && !c.replay && decide (a.status < 0x10) then refuseReq c r stBusy z m else a

/-! ### Responses -/

/-- The response to an accepted change waits until the standby holds the change (R70, R427). -/
def withheldNow (m : Module) : Bool := m.lockstep && m.red.hold && m.red.link == 2

/-- Answer a request; with `pass`, an accepted change goes to the standby first. -/
def answerChange (r : Req) (pass : Bool) (st : Nat) (pos : Option Nat) (data : List Byte) (m : Module) : Module :=
  let m := if pass then sendChange (effEpoch m (reqOwner r)) r m else m
  let (x, m) := respTo r st pos data m
  if pass && withheldNow m then { m with odp := { m.odp with withheld := m.odp.withheld ++ [(m.red.txSeq, x)] } } else deliver x m

/-- Answer what has been handled. Of those answered later, a SAVE is passed on as it begins, a trunk link's START when its satellite has accepted. -/
def finish (r : Req) (a : Answer) : Fuses × Module :=
  let pass := sharedReq r && decide (a.status < 0x10)
  (a.fuses,
    if a.later then (if pass && r.op == 7 then sendChange (effEpoch a.mod none) r a.mod else a.mod)
    else answerChange r pass a.status a.pos a.data a.mod)

/-- What follows a response: CLOSE ends the session (R66); a successful update in recovery resets the module (R475). -/
def afterwards (r : Req) (st : Nat) (m : Module) : Module :=
  if r.op = 15 ∧ st = stOk then closeSession 1 r.fr.session m
  else if m.power.recovery ∧ r.op = 2 ∧ bit r.flags 3 = true ∧ st = stOk then resetModule 4 m
  else m

/-- Handle a request of a session here and answer it. -/
def serve (c : Writer) (r : Req) (z : Fuses) (m : Module) : Fuses × Module :=
  let a := handleHere c r z m
  let (z, m) := finish r a
  (z, afterwards r a.status m)

/-- Pass a request on to the holder (R429). -/
def forwardReq (r : Req) (role : Role) (m : Module) : Module :=
  sendItpel m.epochWire (.forward r role none) { m with red := { m.red with forwards := m.red.forwards ++ [r] } }

/-- The standby passes on every request on shared entries that could change them. -/
def forwards (m : Module) (r : Req) : Bool := m.lockstep && !m.red.hold && m.red.link == 2 && isOp r.op && sharedReq r

/-- A new request of a session: kept for repeats; a 17th outstanding one is refused (R68). -/
def newRequest (x : Session) (r : Req) (z : Fuses) (m : Module) : Fuses × Module :=
  let c : Writer := ⟨x.id, x.role.rank, false⟩
  let m := keepReq r m
  if 16 ≤ outstanding x then
    let a := refuseReq c r stBusy z m
    let (y, m) := respTo r stBusy none [] a.mod
    (z, deliver y m)
  else if forwards m r then (z, forwardReq r x.role m)
  else serve c r z m

/-- The link on which a frame's session stands; for an unknown session the service port, where every server answers. -/
def frameLink (f : Frame) (m : Module) : Nat := match m.odp.sessions.find? (fun x => x.id == f.session) with | some x => x.link | none => 2

/-- A secure frame with a request arrives. `own` says which requests the row stands for; another leaves the module as it is. -/
def odpRequest (own : Req → Bool) (r : Req) (z : Fuses) (m : Module) : Fuses × Module :=
  if !own r || !odpUp z m (frameLink r.fr m) then (z, m)
  else match takeFrame r.fr (drainIdle m) with
    | (none, m) => (z, m)
    | (some x, m) =>
      match x.kept.find? (fun k => k.req.fr.id == r.fr.id) with
      | some k => (z, answerRepeat r k m)
      | none => newRequest x r z m

/-- A command that may write fuses and raise events. -/
def State.runZ (s : State) (f : Fuses → Module → Fuses × Module) : Host.Outcome State Fault Refusal :=
  .next { s with fuses := (f s.fuses s.mod).1, mod := settle (f s.fuses s.mod).2 }

/-- A row stands for its opcode, and for every opcode that Table 2.11 does not list. -/
def ownOp (op : Nat) (r : Req) : Bool := r.op == op || !isOp r.op

/-- A row of a segmented transfer stands for its opcode with its flag, and for opcodes that Table 2.11 does not list. -/
def ownPart (op part : Nat) (r : Req) : Bool := (r.op == op && bit r.flags part) || !isOp r.op

/-- A row of EXPORT stands for it with its flag, for one whose flags fit no row, and for opcodes that Table 2.11 does not list. -/
def ownExport (part : Nat) (r : Req) : Bool := (r.op == 9 && (bit r.flags part || parts r.flags != 1)) || !isOp r.op

def execRead (r : Req) (s : State) : Host.Outcome State Fault Refusal := s.runZ (odpRequest (ownOp 1) r)
def execWrite (r : Req) (s : State) : Host.Outcome State Fault Refusal := s.runZ (odpRequest (ownOp 2) r)
def execReadBlock (r : Req) (s : State) : Host.Outcome State Fault Refusal := s.runZ (odpRequest (ownOp 3) r)
def execWriteBlock (r : Req) (s : State) : Host.Outcome State Fault Refusal := s.runZ (odpRequest (ownOp 4) r)
def execStart (r : Req) (s : State) : Host.Outcome State Fault Refusal := s.runZ (odpRequest (ownOp 5) r)
def execStop (r : Req) (s : State) : Host.Outcome State Fault Refusal := s.runZ (odpRequest (ownOp 6) r)
def execSave (r : Req) (s : State) : Host.Outcome State Fault Refusal := s.runZ (odpRequest (ownOp 7) r)
def execSubscribe (r : Req) (s : State) : Host.Outcome State Fault Refusal := s.runZ (odpRequest (ownOp 8) r)
def execClose (r : Req) (s : State) : Host.Outcome State Fault Refusal := s.runZ (odpRequest (ownOp 15) r)
def execDomWriteInit (r : Req) (s : State) : Host.Outcome State Fault Refusal := s.runZ (odpRequest (ownPart 2 1) r)
def execDomWriteSeg (r : Req) (s : State) : Host.Outcome State Fault Refusal := s.runZ (odpRequest (ownPart 2 2) r)
def execDomWriteEnd (r : Req) (s : State) : Host.Outcome State Fault Refusal := s.runZ (odpRequest (ownPart 2 3) r)
def execDomReadInit (r : Req) (s : State) : Host.Outcome State Fault Refusal := s.runZ (odpRequest (ownPart 1 1) r)
def execDomReadSeg (r : Req) (s : State) : Host.Outcome State Fault Refusal := s.runZ (odpRequest (ownPart 1 2) r)
def execDomReadEnd (r : Req) (s : State) : Host.Outcome State Fault Refusal := s.runZ (odpRequest (ownPart 1 3) r)
def execExportInit (r : Req) (s : State) : Host.Outcome State Fault Refusal := s.runZ (odpRequest (ownExport 1) r)
def execExportSeg (r : Req) (s : State) : Host.Outcome State Fault Refusal := s.runZ (odpRequest (ownExport 2) r)
def execExportEnd (r : Req) (s : State) : Host.Outcome State Fault Refusal := s.runZ (odpRequest (ownExport 3) r)

/-! ### Transfers that time out (R75, R76, R79) -/

/-- A write transfer with no segment for 10 s is abandoned. -/
def domWriteTimeout (session key : Nat) (m : Module) : Module :=
  { m with odp := { m.odp with domWrites := m.odp.domWrites.filter fun x => !(x.session == session && x.key == key) } }

def execDomWriteTimeout (session key : Nat) (s : State) : Host.Outcome State Fault Refusal := s.run (domWriteTimeout session key)

/-- A held value is released after 10 s without a READ of it. -/
def execDomReadTimeout (session key : Nat) (s : State) : Host.Outcome State Fault Refusal := s.run (dropDom session key)

/-- A session's held export objects are released after 10 s without a request. -/
def exportTimeout (session : Nat) (m : Module) : Module :=
  { m with odp := { m.odp with exports := m.odp.exports.filter fun x => x.session != session } }

def execExportTimeout (session : Nat) (s : State) : Host.Outcome State Fault Refusal := s.run (exportTimeout session)

/-! ### The end of a SAVE (R60) -/

/-- The bank written becomes the bank in use. -/
def saveGood (x : SaveRun) (b : Bank) (m : Module) : Module :=
  let m := setBank x.bank (some { b with header := true }) m
  let m := { m with nv := { m.nv with ptr := some ⟨x.bank, 255 - x.bank, x.seq⟩, saveOpen := false }, odp := { m.odp with save := none } }
  let m := ((m.setStat Ent.cfgActiveBank x.bank).setStat Ent.cfgActiveSequence x.seq).setStat Ent.cfgSaveState 0
  let m := ((m.setStat Ent.cfgLastResult stOk).setStat Ent.cfgBodyBytes (Config.bodyBytes b.num).length).setStat (bankValidKey x.bank) 1
  m.setStat Ent.cfgSaveTime (t80Wire b.time)

/-- A SAVE that could not be written: the bank in use stays (NV_FAIL). -/
def saveBad (x : SaveRun) (m : Module) : Module :=
  let m := { m with odp := { m.odp with save := none }, nv := { m.nv with saveOpen := false } }
  ((m.setStat Ent.cfgSaveState 0).setStat Ent.cfgLastResult stNvFail).setStat (bankValidKey x.bank) 0

/-- The session a SAVE belongs to is answered; one that the standby makes for its holder answers nobody. -/
def saveAnswer (x : SaveRun) (st : Nat) (data : List Byte) (m : Module) : Module :=
  if x.session = 0 then m else let (a, m) := respTo x.req st none data m; deliver a m

/-- SAVE_COMPLETE: body and header are written and read back, or not. -/
def saveComplete (good : Bool) (m : Module) : Module :=
  match m.odp.save with
  | none => m
  | some x =>
    let c : Writer := ⟨x.session, 2, x.session == 0⟩
    match good, m.bank x.bank with
    | true, some b => saveAnswer x stOk (leBytes 1 x.bank ++ leBytes 4 x.seq) (noteCommand c 0xFFFF 7 stOk x.bank (saveGood x b m))
    | _, _ => saveAnswer x stNvFail [] (noteCommand c 0xFFFF 7 stNvFail 0 (saveBad x m))

def execSaveComplete (good : Bool) (s : State) : Host.Outcome State Fault Refusal := s.runE (saveComplete good)

/-! ### Subscriptions (R78) -/

/-- The values of a subscription's entries. -/
def subValues (z : Fuses) : List Nat → Module → List Byte × Module
  | [], m => ([], m)
  | k :: ks, m =>
    let (_, b, m) := readEntry z false (k / 256) (k % 256) m
    let (bs, m) := subValues z ks m
    (b ++ bs, m)

/-- One pass of a subscription: a NOTIFY in periodic mode, and on a change. -/
def subPass (z : Fuses) (e : Nat) (x : Subscription) (m : Module) : Module :=
  let (bs, m) := subValues z x.keys m
  if x.onChange && x.last == some bs then m
  else
    let n := (x.count + 1) % 2 ^ 32
    let up := fun (y : Subscription) => { y with last := some bs, count := n }
    sendTo x.session (.notify x.session x.handle n e bs) { m with odp := { m.odp with subs := mapFirst (fun y => y.handle == x.handle) up m.odp.subs } }

/-- SUBSCRIPTION_PASS: after cycle 3,920, for every subscription whose period the epoch is a multiple of. -/
def subscriptionPass (z : Fuses) (m : Module) : Module :=
  match m.tick.epoch with
  | none => m
  | some e =>
    if 3920 < m.tick.cycle then m
    else forL (m.odp.subs.filter fun x => e % x.period == 0) (subPass z e) (toCycle 3920 (drainIdle m))

def execSubscriptionPass (s : State) : Host.Outcome State Fault Refusal := s.runFE subscriptionPass

/-! ### The satellite's answer to a trunk START (R300) -/

/-- The START of a link ends with a status: counted and recorded where it is a boot state's, answered where a session waits (R514, R490). Request id 1 without a session is a latched restart, which answers nobody. -/
def trunkAnswered (l : Nat) (session : Nat) (r : Req) (st : Nat) (m : Module) : Module :=
  let f := 0x548 + l
  let m := modTrunk l (fun x => { x with waiting := none }) m
  let m := if st = stOk then beginStart f m else noteRefusal f st m
  if session = 0 then
    (if r.fr.id = 1 then m
     else if st = stOk then m.bump Ent.bootStarted
     else mgmtEvent 0x0E01 0x1007 f 5 st 0 0 (m.bump Ent.bootRefused))
  else
    let state := (m.fn f).st.code
    let m := noteCommand ⟨session, 2, false⟩ f 5 st state m
    answerChange r (st == stOk) st none (leBytes 1 state) m

/-- SATELLITE_ACCEPT: acceptance, or a refusal by BAD_VALUE. -/
def satelliteAnswer (l : Nat) (st : Nat) (m : Module) : Module :=
  match (m.trunk l).waiting with
  | none => m
  | some x => trunkAnswered l x.1 x.2 st m

def execSatelliteAccept (l : Fin 2) (accepted : Bool) (s : State) : Host.Outcome State Fault Refusal :=
  s.runE (satelliteAnswer l (if accepted then stOk else stBadValue))

/-- No answer within 10 ms: BUSY. -/
def execSatelliteConfigTimeout (l : Fin 2) (s : State) : Host.Outcome State Fault Refusal := s.runE (satelliteAnswer l stBusy)

end Sys2Proof.Machine
end

