-- ==== Sys2Proof/Machine/TickCmds.lean ====
section
/-! DEFINITION. The base tick's own commands (R12, R34 to R39): the sample instant and what comes about at it, the release of the input tags, the strobes as a member of a pair makes them, and the issue of an operation. -/

namespace Sys2Proof.Machine

/-! ### The end of a tick and the discipline (R35 to R38, R407) -/

/-- The running tick's length where no strobe was missed. -/
def tickSpan (m : Module) : Nat := max (tickLength m) (m.tick.cycle + 1)

/-- The figures of the tick that has ended (Table 1.6). -/
def closeTick (len : Nat) (m : Module) : Module :=
  let m := (m.setStat Ent.tickLastLength len).setStat Ent.tickGatherWords m.tick.gathered
  let m := m.setStat Ent.tickGatherEnd m.tick.gatherEnd
  let m := if 4001 ≤ len then m.bump Ent.tickLongTicks else m
  if len = 3999 then m.bump Ent.tickShortTicks else m

/-- Time moves on to the next sample instant. -/
def toInstant (len : Nat) (m : Module) : Module :=
  let m := closeTick len (advance (len - m.tick.cycle) (drainIdle m))
  { m with tick := { m.tick with cycle := 0, old := [], gathered := 0, gatherEnd := 0, instant := m.time.ctr, instantT := m.now, abs := m.tick.abs + len } }

/-- A step made while the loop engine ran moves the time of epoch 0 by the nearest multiple of 20 µs, ties toward +∞ (R407). -/
def takeRunStep (m : Module) : Module :=
  if m.time.runStep = 0 then m
  else
    let d := (m.time.runStep + 10000) / 20000 * 20000
    let t := ((m.tick.epoch0.toNs : Int) + d).toNat
    { m with tick := { m.tick with epoch0 := T80.ofNs t }, time := { m.time with runStep := 0, aligned := m.time.aligned && decide (t % 2000000 = 0) } }

/-- The phase error is below one cycle. -/
def inPhase (m : Module) : Bool := decide ((phaseUnits m).natAbs < cycleUnits m)

/-- 2801h:07 shows the phase error in ns. -/
def showPhase (m : Module) : Module :=
  let shown := m.tick.disc == .locked || m.tick.disc == .aligning
  m.setStatI Ent.tickPhaseError 32 (if shown then phaseUnits m / 2 ^ 32 else 0)

/-- The discipline at a sample instant: it follows the time unit, and ALIGNING ends in LOCKED. -/
def discipline (m : Module) : Module :=
  let m := tickFollow m
  showPhase (if m.tick.disc = .aligning ∧ inPhase m = true then takeRunStep { m with tick := { m.tick with disc := .locked } } else m)

/-- The TAI grid point nearest to this sample instant, in ns. -/
def gridNs (m : Module) : Nat := (((m.tick.instant : Int) - phaseUnits m) / 2 ^ 32).toNat

/-- The loop engine's START may take effect at this instant (R38). -/
def engineMay (m : Module) : Bool :=
  m.getOf fnEngine Ent.tickAlignStart == 0 || m.tick.disc != .locked || decide (gridNs m % 2000000 = 0)

/-- Epoch 0 begins; in LOCKED its time is that of its grid point. -/
def beginEpochs (m : Module) : Module :=
  let m := completeStart fnEngine m
  if m.tick.disc = .locked then { m with tick := { m.tick with epoch0 := T80.ofNs (gridNs m) } } else m

/-- The next epoch: the standby's stands one behind its holder's tick (R424). -/
def nextTickEpoch (m : Module) (e : Nat) : Nat :=
  if m.standby then (match m.red.tickEpoch with | some t => t - 1 | none => e + 1) else e + 1

/-- The epoch moves on, ends with the engine's stop, or begins with its START (R37, R55, R56). -/
def epochStep (m : Module) : Module :=
  match m.tick.epoch with
  | some e =>
    if (m.fn fnEngine).st = .stopping then completeStop fnEngine m
    else
      let e := nextTickEpoch m e
      let gs := (List.range 8).foldl (fun s g => if samples g e then Sparse.set (fun _ => 0) s g m.tick.abs else s) m.tick.groupAbs
      { m with tick := { m.tick with epoch := some e, lastEpoch := e, groupAbs := gs } }
  | none => if (m.fn fnEngine).st = .starting ∧ engineMay m = true then beginEpochs m else m

/-! ### Writes that take effect (R45, R34) -/

/-- An accepted write takes effect at this instant. Axis commands take effect at every base tick (R244); an entry of a rate group's function when the group samples and the function runs. -/
def dueNow (m : Module) (e : Option Nat) (w : PendW) : Bool :=
  match w.owner with
  | none => true
  | some f =>
    if range 0x4A0 0x4BF f then m.active f
    else match fnRate m f, e with
      | some g, some e => samples g e && m.active f
      | some _, none => false
      | none, _ => true

def isAxisCmd (w : PendW) : Bool := range 0x3130 0x314F (w.key / 256)
def isNextWrite (w : PendW) : Bool := range 0x2000 0x23FF (w.key / 256) && isNextSub (w.key % 256)
def isSwap (w : PendW) : Bool := range 0x2000 0x23FF (w.key / 256) && w.key % 256 == 0x63
def isForce (w : PendW) : Bool := range 0x3020 0x303F (w.key / 256)
def isData (w : PendW) : Bool := range 0x3B00 0x3B3F (w.key / 256)

/-- A characteristic table whose old points are still in use takes its write at a later instant (R87). -/
def mustWait (m : Module) (w : PendW) : Bool := range 0x2840 0x287F (w.key / 256) && tableWaits m (tableOf w.key)

/-- A slot's next-set writes come before its swap, and both before its other writes (R102). -/
def inOrder (ws : List PendW) : List PendW := ws.filter isNextWrite ++ ws.filter isSwap ++ ws.filter fun w => !isNextWrite w && !isSwap w

/-- Apply writes in order, the fuses with them. -/
def applyAll (e : Option Nat) : List PendW → Fuses → Module → Fuses × Module
  | [], z, m => (z, m)
  | w :: ws, z, m => let (z, m) := applyWrite e w z m; applyAll e ws z m

/-- The commands of axes among due writes. -/
def axisCmds (ws : List PendW) : List AxisCmd :=
  (ws.filter isAxisCmd).map fun w => ⟨w.key / 256 - 0x3130, bits w.val 39 32, sint 32 w.val⟩

/-- Objects whose data entries were written are pending once each (R311). -/
def dataObjects (e : Nat) (ws : List PendW) (m : Module) : Module :=
  forL ((ws.filter isData).map fun w => dataObject w.key).eraseDups (fun o m => hostObject o.1 o.2 e m) m

/-- The writes due now, taken out of the waiting ones. -/
def takeDue (e : Option Nat) (m : Module) : List PendW × Module :=
  let due := m.odp.pend.filter fun w => dueNow m e w && !mustWait m w
  (due, { m with odp := { m.odp with pend := m.odp.pend.filter fun w => !(dueNow m e w && !mustWait m w) } })

/-! ### Forces and host writes at the gather port (R34, R233) -/

/-- A word of the gather port that keeps GROUP and PARITY, or takes group 0 and the epoch's parity where the word is free. -/
def keptWord (m : Module) (e a : Nat) (w : Word) : Word :=
  if owned m a then w else mkWord (wStatus w) 0 (bit e 0) (wValue w)

/-- Addresses of enabled forces. -/
def forcedAddrs (m : Module) : List Nat := (m.forces.filter fun f => bit f.2 18).map fun f => bits f.2 17 0

/-- A removed force's word is rewritten once with FORCED = 0. -/
def unforce (e a : Nat) (m : Module) : Module :=
  if overridden m a then m
  else
    let w := m.word a
    portWrite a (keptWord m e a (mkWord (wStatus w - (if wForced w then sFORCED else 0)) (wGroup w) (wParity w) (wValue w))) m

/-- The number of a force entry. -/
def forceNo (w : PendW) : Nat := (w.key / 256 - 0x3020) * 32 + (w.key % 256 - 1)

/-- `flint.force_status[i]` after a write: applied while enabled; the orphan mark clears with the force. -/
def forceStatus (before : List (Nat × Nat)) (w : PendW) (m : Module) : Module :=
  let i := forceNo w
  let old := match before.find? (fun f => f.1 == i) with | some f => f.2 | none => 0
  let same := bit old 18 && bit w.val 18 && bits old 17 0 == bits w.val 17 0
  let orphan := if same then m.stat (Ent.flintForceStatus i) / 2 % 2 * 2 else 0
  m.setStat (Ent.flintForceStatus i) (b01 (bit w.val 18) + orphan)

/-- A force that takes effect is written once. An active override of the word still wins. -/
def forceOnce (e : Nat) (w : PendW) (m : Module) : Module :=
  let a := bits w.val 17 0
  if !bit w.val 18 || overridden m a then m else portWrite a (keptWord m e a (m.word a)) m

/-- Host writes to words that are still free; the later of two to one word stands. -/
def hostWords (e : Nat) (m : Module) : Module :=
  if m.tick.epoch.isNone && !m.stopped fnEngine then m
  else
    let ws := m.odp.pendWords
    let last := ws.zipIdx.filter fun x => !(ws.drop (x.2 + 1)).any fun y => y.1 == x.1.1
    forL last (fun x m => if owned m x.1.1 then m else portWrite x.1.1 (mkWord sVALID 0 (bit e 0) x.1.2) m) { m with odp := { m.odp with pendWords := [] } }

/-- Event 0707h of a force entry: 1 set, 0 removed (R241). -/
def forceEvent (i v set : Nat) (m : Module) : Module := raise fnFlint 0x0707 (flintBody i (bits v 17 0) set 0) m

/-- Forces removed by the writes of this instant, then forces set, each in ascending entry number. -/
def forceEvents (before : List (Nat × Nat)) (fs : List PendW) (m : Module) : Module :=
  let old := fun (i : Nat) => match before.find? (fun f => f.1 == i) with | some f => f.2 | none => 0
  let new := fun (i : Nat) => match m.forces.find? (fun f => f.1 == i) with | some f => f.2 | none => 0
  let is := (List.range 1024).filter fun i => fs.any fun w => forceNo w == i
  let gone := is.filter fun i => bit (old i) 18 && !(bit (new i) 18 && bits (new i) 17 0 == bits (old i) 17 0)
  let set := is.filter fun i => bit (new i) 18 && new i != old i
  forL set (fun i m => forceEvent i (new i) 1 m) (forL gone (fun i m => forceEvent i (old i) 0 m) m)

/-- The gather port's writes after the gathered sources: rewrites of removed forces, host writes, once-writes of forces. -/
def afterGather (e : Nat) (before : List (Nat × Nat)) (ws : List PendW) (m : Module) : Module :=
  let fs := ws.filter isForce
  let was := (before.filter fun f => bit f.2 18 && fs.any fun w => forceNo w == f.1).map fun f => bits f.2 17 0
  let m := forL (was.filter fun a => !(forcedAddrs m).contains a) (unforce e) m
  let m := forL fs (forceOnce e) (hostWords e m)
  if fs.isEmpty then m else forceEvents before fs (forceCounts (forL fs (forceStatus before) m))

/-! ### Gathering (R12, R424) -/

/-- The holder's own captures reach their words: encoders and axes, channels, discrete inputs, field-bus images. -/
def ownGather (cap : Capture) (e : Nat) (m : Module) : Module :=
  let m := diInstant cap e (chanInstant cap e (axisGather e m))
  mirrorInput (forL (upPorts m) (portGather e) m)

/-- The standby's gather port writes the holder's words in their order (R425). -/
def mirrorGather (e : Nat) (m : Module) : Module :=
  match mirrorOf m e with
  | some x => forL x.input (fun w m => portWrite w.1 w.2 m) m
  | none => m

/-- Bus state, counts, stations and outcomes of a port, which the standby copies (Table 14.6). -/
def portDecision (p : Nat) (m : Module) : Decision :=
  let x := m.port p
  .port p x.bus x.tec x.recv (x.stations.map fun s => (s.1, s.2.st))
    (x.objs.map fun o => (o.1, if o.2.cur.isSome || o.2.next.isSome then 1 else o.2.status)) (countsOf m (fnPort p))

/-! ### Motion (R244, R447) -/

/-- The journal of axes: every 100 ticks, and at each stop and homing (Table 14.13). -/
def journalAxes (e : Nat) (before m : Module) : Module :=
  forL (m.motion.axes.map Prod.fst) (fun a m =>
    let x := before.axis a
    let y := m.axis a
    if e % 100 = 0 ∨ (x.st.busy && !y.st.busy) = true ∨ x.homed ≠ y.homed then
      journal (fun j => match j with | .axis b _ _ _ => b == a | _ => false) (.axis a y.prof.p y.prof.t y.homed) m
    else m) m

/-- The motion unit's instant, and stops that it completes. -/
def motionWork (cap : Capture) (e : Nat) (cmds : List AxisCmd) (m : Module) : Module :=
  axisStops (journalAxes e m (motionInstant cap cmds m))

/-! ### Groups that sample -/

/-- Periods begin: the load of the last one shows, slots begin theirs, an overrun action that fell due applies (R107, R109). -/
def groupsBegin (e : Nat) (m : Module) : Module :=
  let gs := (List.range 8).filter fun g => samples g e
  let m := forL gs closeLoad m
  let m := forL (m.runSlots.filter fun n => gs.contains (m.cfg (Ent.loopGroup n) % 8)) (fun n m => slotBegin n e m) m
  forL gs (fun g m => overrunApply g e m) m

/-- Slots of sampling groups take what their period uses, after the writes of the instant (R91). -/
def slotsLatch (e : Nat) (m : Module) : Module :=
  forL (m.runSlots.filter fun n => samples (m.cfg (Ent.loopGroup n) % 8) e) slotLatch m

/-- Recipes of sampling groups count the instant, after their commands (R178, R185). -/
def recipesBegin (e : Nat) (m : Module) : Module :=
  forL ((m.slate.runs.map Prod.fst).filter fun r => samples (recipeGroup m r) e) (fun r m => runInstant r e m) m

/-- Hook signals of periods that have ended are dropped. -/
def pruneHooks (e : Nat) (m : Module) : Module :=
  { m with disp := { m.disp with hooks := m.disp.hooks.filter fun h => decide (sampleEpoch h.2.1 e ≤ h.2.2) } }

/-! ### The sample instant -/

/-- Changes that the holder has passed on for this epoch (R427): the standby accepts each as its holder did. -/
def applyChanges (z : Fuses) (m : Module) : Fuses × Module :=
  match m.tick.epoch with
  | none => (z, m)
  | some e =>
    let due := m.red.changes.filter fun c => decide (c.epoch ≤ e)
    due.foldl (fun (x : Fuses × Module) (c : Change) =>
      let a := handle ⟨partnerSession + c.req.fr.session, 3, true⟩ { c.req with fr := { c.req.fr with session := partnerSession + c.req.fr.session } } x.1 x.2
      (a.fuses, a.mod)) (z, { m with red := { m.red with changes := m.red.changes.filter fun c => !decide (c.epoch ≤ e) } })

/-- The standby cannot begin its next tick yet: its holder's TICK or its mirror is missing (R426). -/
def waitsForHolder (m : Module) : Bool :=
  m.standby && m.tick.epoch.isSome &&
    (match m.red.tickEpoch with
     | none => true
     | some t => decide (t ≤ m.tick.lastEpoch + 1) || !(match mirrorOf m (t - 1) with | some x => x.complete | none => false))

/-- The member computes: a holder, a module of no pair, a standby in lockstep. -/
def computes (m : Module) : Bool := m.holder || m.standby || m.red.computing

/-- What an instant with a running epoch brings before the writes. -/
def instantHead (e : Nat) (m : Module) : Module :=
  let m := forL (upPorts m) (basicCycle e) (retireDue e m)
  groupsBegin e (functionInstant (some e) m)

/-- What an instant with a running epoch brings after the writes: motion, the gather, the new instances, windows, links. -/
def instantTail (cap : Capture) (e : Nat) (before : List (Nat × Nat)) (due : List PendW) (m : Module) : Module :=
  let m := motionWork cap e (axisCmds due) (recipesBegin e (slotsLatch e m))
  let m := if m.standby then mirrorGather e (forL (upPorts m) (fun p m => queueSends p e m) m) else ownGather cap e (forL (upPorts m) (portInstant e) m)
  let m := makeInsts e (afterGather e before due m)
  let m := forN 2 (fun l m => if trunkUp m l then trunkTick e l m else m) (forN 16 (winInstant e) m)
  pruneHooks e (forL (upPorts m) (fun p m => sendDecision e (portDecision p m) m) m)

/-- The capture that the epoch's computation uses: the standby's stands one tick back (R424). -/
def captureFor (cap : Capture) (m : Module) : Capture := if m.standby then m.red.capture.getD cap else cap

/-- Own hardware at every sample instant: supplies, readback, and the analogue edge's residual. -/
def hardwareInstant (cap : Capture) (m : Module) : Module :=
  doInstant cap (bankInstant cap (m.setStatI Ent.tickAnalogResidual 32 cap.residual))

/-- Writes and function changes of this instant, and what follows from them. -/
def instantCore (cap : Capture) (z : Fuses) (m : Module) : Fuses × Module :=
  let e := if computes m then m.tick.epoch else none
  let own := captureFor cap m
  let (z, m) := applyChanges z m
  let m := match e with | some e => instantHead e m | none => functionInstant none m
  let before := m.forces
  let (due, m) := takeDue e m
  let (z, m) := applyAll e (inOrder (due.filter fun w => !isAxisCmd w)) z m
  let m := dataObjects (e.getD 0) due m
  let m := match e with
    | some e => instantTail own e before due m
    | none => afterGather 0 before due m
  (z, { m with red := { m.red with capture := some cap } })

/-- The work of an instant, and the module's own hardware. -/
def instantWork (cap : Capture) (z : Fuses) (m : Module) : Fuses × Module :=
  let (z, m) := instantCore cap z m
  (z, hardwareInstant cap m)

/-- Output words of functions that had not joined, as the holder sent them for an epoch (R445). -/
def mirrorOutputs (m : Module) : Module :=
  match m.tick.epoch with
  | some e => if m.standby then (match mirrorOf m e with | some x => forL x.outputs (fun w m => putWord w.1 w.2 m) m | none => m) else m
  | none => m

/-- A decision of the holder that the standby takes into its own units (Table 14.6). -/
def takeDecision (d : Decision) (m : Module) : Module :=
  match d with
  | .port p bus tec recv sts objs counts =>
    let x := m.port p
    let ss := sts.foldl (fun (acc : Sparse Station) (y : Nat × Nat) => Sparse.mod (fun _ => Station.init) acc y.1 fun s => { s with st := y.2 }) x.stations
    let os := objs.foldl (fun (acc : Sparse TxObj) (y : Nat × Nat) => Sparse.mod (fun _ => TxObj.init) acc y.1 fun o => if y.2 = 1 then o else { cur := none, next := none, status := y.2 }) x.objs
    let m := takeCounts (fnPort p) counts m
    let ss := ss.map fun s => (s.1, { s.2 with misses := m.stat (Ent.fbstMisses p s.1), good := m.stat (Ent.fbstGood p s.1) })
    let gone := x.queue.length - m.stat (Ent.fbQueueUsed p)
    modPort p (fun _ => { x with bus := bus, tec := tec, recv := recv, stations := ss, objs := os, queue := x.queue.drop gone }) m
  | .trigger w source detail e t => triggerWindow 1 w ⟨source, detail, e, t⟩ m
  | .coarse a mc neg => coarseStep a mc neg m
  | .stream g e =>
    let rest := m.acq.staging.filter fun b => !(b.group == g && decide (b.epoch ≤ e))
    { m with acq := { m.acq with staging := rest } }.setStat Ent.acqStreamStaged (rest.flatMap stagedBytes).length
  | _ => m

/-- The standby takes the decisions of the epoch that it begins; the others stand until they are asked for. -/
def takeDecisions (m : Module) : Module :=
  match m.tick.epoch with
  | some e => if m.standby then forL (m.red.decisions.filter fun d => d.1 == e) (fun d m => takeDecision d.2 m) m else m
  | none => m

/-- What the end of an epoch brings a pair: the holder's mirror ends, the standby drops what it has used. -/
def mirrorEnd (m : Module) : Module :=
  let m := mirrorOutputs m
  let m := if m.tick.epoch.isSome then sendMirror .done m else m
  if m.standby then
    { m with red := { m.red with waiting := false, mirrors := m.red.mirrors.filter fun x => decide (m.tick.lastEpoch < x.epoch),
                                 decisions := m.red.decisions.filter fun d => decide (m.tick.lastEpoch ≤ d.1 + 100) } }
  else m

/-- A tick of VERIFY in which every comparison made so far was equal (R420). -/
def verifyTick (m : Module) : Module :=
  if m.red.st = 2 ∧ m.tick.epoch.isSome = true then { m with red := { m.red with verifyCount := min (m.red.verifyCount + 1) 65535 } } else m

/-- The holder's TICK frame and its joins (R424, R445). -/
def holderTick (m : Module) : Module :=
  match m.tick.epoch with
  | some e => if m.red.hold then joinInstant e (sendItpel e (.tick m.tick.disc) m) else m
  | none => m

/-- A sample instant, `len` cycles after the last; `disc` is what it brings the discipline. -/
def sampleAt (disc : Module → Module) (len : Nat) (cap : Capture) (z : Fuses) (m : Module) : Fuses × Module :=
  let m := disc (toInstant len (mirrorEnd m))
  let m := { m with red := { m.red with lag := 0, takeover := none } }
  let m := verifyTick (holderTick (if computes m then epochStep m else m))
  let (z, m) := instantWork cap z (closeRunWindows (saveLost m))
  (z, takeDecisions m)

/-- A standby that waits for its holder keeps the captures of its own sample instant and begins no epoch (R424, R426). -/
def waitAt (cap : Capture) (m : Module) : Module :=
  let m := toInstant (tickSpan m) m
  hardwareInstant cap { m with red := { m.red with waiting := true, lag := m.red.lag + 1, capture := some cap } }

/-- A strobe is due that does not come: the tick is LOCKED and the time unit reports no lock (R36, R408). -/
def strobeLost (m : Module) : Bool := m.tick.disc == .locked && !reportsLock m

/-- The loop island begins the tick itself at cycle 4,002, and HOLDOVER is entered (R36); it is left at a later instant. -/
def missedStrobe (cap : Capture) (z : Fuses) (m : Module) : Fuses × Module :=
  sampleAt showPhase (max 4002 (m.tick.cycle + 1)) cap z ({ m with tick := { m.tick with disc := .holdover } }.bump Ent.tickStrobeMiss)

/-- SAMPLE_INSTANT: cycle 0 of the next base tick, while base ticks run. -/
def sampleInstant (cap : Capture) (z : Fuses) (m : Module) : Fuses × Module :=
  if !m.ticking then (z, m)
  else if waitsForHolder m || m.red.suspended != 0 then (z, waitAt cap m)
  else if strobeLost m then missedStrobe cap z m
  else sampleAt discipline (tickSpan m) cap z m

def execSampleInstant (c : Capture) (s : State) : Host.Outcome State Fault Refusal := s.runZ (sampleInstant c)

/-- MISSED_STROBE: only a LOCKED tick waits for a strobe. -/
def execMissedStrobe (c : Capture) (s : State) : Host.Outcome State Fault Refusal :=
  s.runZ (fun z m => if m.ticking && m.tick.disc == .locked && !waitsForHolder m then missedStrobe c z m else (z, m))

/-! ### Cycle 400 (R18, R185, R200, R207) -/

/-- The standby writes the trunk words that its holder sent, with their IN tags (R425). -/
def mirrorTrunk (m : Module) : Module :=
  match m.tick.epoch with
  | none => m
  | some e =>
    match (if m.standby then mirrorOf m e else none) with
    | none => m
    | some x => forL x.trunk (fun s m =>
        let m := forL s.2.2 (fun w m => putForced w.1 w.2 m) m
        let l := s.1 / 16
        forL ((trunkMap m l).filter fun c => c.1 / 8 == s.1 % 16 && !mapOut c.2) (fun c m => inTag l c.1 e m) m) m

/-- Cycle of the release: 400, and in a takeover epoch begun at cycle c of its tick c + 400 (R440). -/
def tagCycle (m : Module) : Nat := match m.red.takeover with | some c => c + 400 | none => 400

/-- Flint's input images; tasks whose release fell in a retired tick are released here (R440). -/
def flintInputs (m : Module) : Module :=
  let m := flintSnapshots (forL m.red.owed (fun k m => releaseOwed m.red.lastDone (m.tick.epoch.getD 0) k m) m)
  { m with red := { m.red with owed := [] } }

/-- INPUT_TAG_RELEASE, once in a tick: the input tags, the exits without hooks and abort-request words, Flint's input images. -/
def inputTagRelease (m : Module) : Module :=
  if m.tick.epoch.isSome ∧ m.tick.cycle ≤ tagCycle m ∧ m.disp.released ≠ m.tick.epoch then
    flintInputs (slateEvaluate (releaseTags (mirrorTrunk (toCycle (tagCycle m) (drainIdle m)))))
  else m

def execInputTagRelease (s : State) : Host.Outcome State Fault Refusal := s.runE inputTagRelease

/-! ### Strobes of a pair (R432, R445) -/

/-- Output moves of a strobe that functions not yet joined make. -/
def unjoinedMoves (m : Module) (g se : Nat) : List Nat :=
  let out := fun (f : Nat) => !m.red.joined.contains f
  let of_ := fun (k : Nat → Nat) (ws : List (Nat × Word)) =>
    (ws.map Prod.fst).filter fun a => (groupSlots m g se).any fun n => out n && m.cfg (k n) == a
  of_ Ent.loopOutAddr (slotWrites m g se) ++ of_ Ent.loopSpWord (spWrites m g se) ++
    (if out fnSlate then (valveWrites m true g se).map Prod.fst else []) ++
    (if out fnFlint then (flagWrites m g se ++ overrideWrites m g se).map Prod.fst else []) ++
    (if out (fnGroup g) then (overrunWrites m g se).map Prod.fst else [])

/-- A strobe with what a pair makes of it: its comparison value, and during joins the moves of functions not yet joined. -/
def pairStrobe (g : Nat) (m : Module) : Module :=
  match strobeDue m g with
  | none => m
  | some (_, se, normal) =>
    let ws := groupWrites m g se
    let loose := if mirrors m && m.red.st == 1 then unjoinedMoves m g se else []
    let m := outputStrobe g m
    if !normal || m.red.strobeHeld then m
    else
      let m := if loose.isEmpty then m else sendMirror (.outputs (loose.map fun a => (a, m.word a))) m
      recordDigest se (strobeDigest g se ws m)

/-- OUTPUT_STROBE. -/
def execOutputStrobe (g : Fin 8) (s : State) : Host.Outcome State Fault Refusal := s.runE (fun m => pairStrobe g (drainIdle m))

/-! ### Operations and trunk blocks of a pair -/

/-- OPERATION_ISSUE (R132, R166) at a core cycle of the tick; a LOOP operation makes its slot's comparison value (Table 14.7). -/
def pairIssue (l cycle : Nat) (m : Module) : Module :=
  let free := (m.lane l).op.isNone
  let m := operationIssue l cycle m
  match (m.lane l).op with
  | some c => match c.slot with
    | some n => if free && c.kind == 0 then slotDigest n c.epoch m else m
    | none => m
  | none => m

def execOperationIssue (l : Fin 16) (cycle : Nat) (s : State) : Host.Outcome State Fault Refusal := s.runE (pairIssue l cycle)

/-- Words that a landed block has written. -/
def blockWords (m : Module) (l b : Nat) : List (Nat × Word) :=
  ((trunkMap m l).filter fun x => x.1 / 8 == b).filterMap fun x =>
    let a := if mapOut x.2 then m.cfg (Ent.trunkRbBase l) + x.1 else mapWord x.2
    if mapOut x.2 && !isAddr (m.cfg (Ent.trunkRbBase l)) then none else some (a, m.word a)

/-- An upstream block arrives (R296); the holder mirrors one that lands, and a standby takes its words from the mirror (R425). -/
def pairBlock (l b : Nat) (f : List Byte) (m : Module) : Module :=
  if m.standby then (if trunkUp m l then modTrunk l (fun x => { x with seen := true }) m else m)
  else
    let before := (m.trunk l).landed
    let m := trunkBlock l b f m
    if (m.trunk l).landed = before then m else sendMirror (.trunk (16 * l + b) m.tick.cycle (blockWords m l b)) m

def execTrunkBlockLanded (l : Fin 2) (b : Fin 16) (frame : List Byte) (s : State) : Host.Outcome State Fault Refusal :=
  s.runE (pairBlock l b frame)

end Sys2Proof.Machine
end

