-- ==== Sys2Proof/Machine/Boot.lean ====
section
/-! DEFINITION. Boot from the memories on (R62, R385, R479, R511 to R520): the history, the configuration bank, the images, the start of the functions, Ready. -/

namespace Sys2Proof.Machine

/-- A boot command acts in its phase of Table 18.1. -/
def inPhaseOf (k : Nat) (f : Module → Module) (m : Module) : Module :=
  if m.power.stage = .run ∧ m.stat Ent.bootPhase = k ∧ m.power.recovery = false then f m else m

/-! ### Phase 2: memories -/

/-- AGATE_BOOT_SCAN (R385, R386): the history is found; a failed DRAM is noted (R516). -/
def memoryPhase (dramOk : Bool) (m : Module) : Module :=
  let m := bootScan m
  let m := { m with nv := { m.nv with clean := none }, power := { m.power with dramFault := !dramOk } }
  (if dramOk then m else bootFault 5 m).setStat Ent.bootPhase 3

def execAgateBootScan (dramOk : Bool) (s : State) : Host.Outcome State Fault Refusal := s.runE (inPhaseOf 2 (memoryPhase dramOk))

/-! ### Phase 3: configuration (R62) -/

/-- Header CRC, marker and body CRC are all correct. -/
def bankGood (b : Option Bank) : Bool := match b with | some x => x.header && x.bodyOk | none => false

/-- The pointer's bank, where it is well formed and names a valid bank. -/
def pointedBank (m : Module) : Option Nat :=
  match m.nv.ptr with
  | some p => if p.byte0 ≤ 1 ∧ p.byte1 = 255 - p.byte0 ∧ bankGood (m.bank p.byte0) = true then some p.byte0 else none
  | none => none

/-- The valid bank of higher sequence number, compared modulo 2^32; bank 0 where neither is newer. -/
def newerBank (m : Module) : Option Nat :=
  match bankGood m.nv.bank0, bankGood m.nv.bank1 with
  | false, false => none
  | true, false => some 0
  | false, true => some 1
  | true, true =>
    let s0 := (m.nv.bank0.map Bank.seq).getD 0
    let s1 := (m.nv.bank1.map Bank.seq).getD 0
    let d := (s1 + 2 ^ 32 - s0 % 2 ^ 32) % 2 ^ 32
    some (if 0 < d ∧ d < 2 ^ 31 then 1 else 0)

/-- The bank that boot uses; none for factory defaults. -/
def bootBank (m : Module) : Option Nat := match pointedBank m with | some k => some k | none => newerBank m

/-- The values of a bank's body: shadows of RWS entries, values of RW entries; the boot states (R59). -/
def loadBody (b : BankBody) (m : Module) : Module :=
  let d := m.dict
  { m with bootRunning := b.running, dict := { d with
      shadow := putCells dfltCell b.rw (putCells dfltCell b.rws d.shadow), live := putCells dfltCell b.rw d.live,
      shadowB := putCells dfltBytes b.rwB (putCells dfltBytes b.rwsB d.shadowB), liveB := putCells dfltBytes b.rwB d.liveB } }

/-- What index 0210h shows of a bank in use. -/
def showBank (k : Nat) (b : Bank) (m : Module) : Module :=
  let m := ((m.setStat Ent.cfgActiveBank k).setStat Ent.cfgActiveSequence b.seq).setStat Ent.cfgBodyBytes (Config.bodyBytes b.num).length
  m.setStat Ent.cfgSaveTime (t80Wire b.time)

/-- An interrupted SAVE is reported, and the bank used before stays in use (R61). -/
def interruptedSave (m : Module) : Module :=
  if m.nv.saveOpen then bootFault 2 ({ m with nv := { m.nv with saveOpen := false } }.setStat Ent.cfgLastResult stNvFail) else m

/-- CONFIG_BANK_SELECT. -/
def configPhase (m : Module) : Module :=
  let m := interruptedSave ((m.setStat Ent.cfgBank0Valid (b01 (bankGood m.nv.bank0))).setStat Ent.cfgBank1Valid (b01 (bankGood m.nv.bank1)))
  let m := match (bootBank m).bind fun k => (m.bank k).map fun b => (k, b) with
    | some (k, b) => showBank k b (loadBody b.body m)
    | none => bootFault 1 (((m.setStat Ent.cfgActiveBank 0xFF).setStat Ent.cfgActiveSequence 0).setStat Ent.cfgBodyBytes 0)
  m.setStat Ent.bootPhase 4

def execConfigBankSelect (s : State) : Host.Outcome State Fault Refusal := s.runE (inPhaseOf 3 configPhase)

/-! ### Phase 4: images (R479) -/

/-- Signed images of the selected bank: function, entry. -/
def bankImages : List (Nat × Nat) := signedFns ++ [(fnFlint, Ent.flintLoad)]

/-- One signed image is checked again; one that fails leaves its function STOPPED. -/
def reverify (z : Fuses) (x : Nat × Nat) (m : Module) : Module :=
  let bs := m.shadB x.2
  match signedKind x.2 with
  | none => m
  | some kind =>
    if bs.isEmpty then m
    else
      let (r, m) := sigCheck z kind bs m
      if r = 0 then m
      else bootFault 3 (mgmtEvent 0x0E00 0x100D x.1 kind r 0 0 (noteRefusal x.1 stSigFail m))

/-- IMAGE_REVERIFY. -/
def imagePhase (z : Fuses) (m : Module) : Module := (forL bankImages (reverify z) m).setStat Ent.bootPhase 5

def execImageReverify (s : State) : Host.Outcome State Fault Refusal := s.runFE (fun z => inPhaseOf 4 (imagePhase z))

/-! ### Phase 5: start (R514, R515) -/

/-- A journal item without a correct copy (R515). -/
def itemLost (m : Module) : Module := bootFault 4 m

/-- The run that the journal holds for a recipe: HELD at its step where it had a run with one; none for IDLE. -/
def heldRun (x : Run) : Option Run :=
  match x.step with
  | some k => if x.st.live then some { Run.init with st := .held, step := some k, stepEpoch := x.stepEpoch, elapsed := x.elapsed, lastExit := x.lastExit } else none
  | none => none

/-- The journalled items of a function that is about to start (Table 14.13). -/
def journalRestore (f : Nat) (m : Module) : Module :=
  if f = fnFlint then
    (if m.nv.journal.any fun j => match j with | .flint _ _ => true | _ => false then m else itemLost m)
  else if range 0x440 0x47F f then
    match m.nv.journal.findSome? fun j => match j with | .recipe r x => if r = f - 0x440 then some x else none | _ => none with
    | some x => match heldRun x with | some y => modRun (f - 0x440) (fun _ => y) m | none => m
    | none => itemLost m
  else if range 0x4A0 0x4BF f then
    match m.nv.journal.findSome? fun j => match j with | .axis a p t h => if a = f - 0x4A0 then some (p, t, h) else none | _ => none with
    | some (p, t, h) => modAxis (f - 0x4A0) (fun x => { x with prof := ⟨p, t, 0, 1⟩, homed := h }) m
    | none => itemLost m
  else m

/-- Depth of a function below the parentless ones. -/
def fnDepth (m : Module) (f : Nat) : Nat :=
  match parentOf m f with
  | none => 0
  | some p => if (parentOf m p).isNone then 1 else 2

/-- The functions whose boot state is RUNNING, parents before children, in ascending number within each level. -/
def bootOrder (m : Module) : List Nat :=
  [0, 1, 2].flatMap fun k => (m.bootRunning.filter isFn).filter fun f => fnDepth m f == k

/-- One boot state is carried out: START, or its refusal with 1007h (R490, R514). The count of started and refused functions goes along. -/
def bootStart (x : Module × Nat × Nat) (f : Nat) : Module × Nat × Nat :=
  let (m, a, b) := x
  let c : Writer := ⟨0, 3, false⟩
  if (m.fn f).lastError = stSigFail then (noteCommand c f 5 stSigFail 0 m, a, b + 1)
  else
    let (st, m) := checkedStart f 0 (ownReq f 0) (journalRestore f (m.modFn f (fun y => { y with armed := false })))
    if st < 0x10 then (noteCommand c f 5 stOk (m.fn f).st.code m, a + 1, b)
    else (noteCommand c f 5 st 0 m, a, b + 1)

/-- Step 3 of R514, with its counts; nothing starts where DRAM has failed (R516). -/
def bootStarts (m : Module) : Module × Nat × Nat :=
  if m.power.dramFault then (m, 0, 0) else (bootOrder m).foldl bootStart (m, 0, 0)

/-- The member drives HOLD (R435, R436). -/
def driveHold (m : Module) : Module :=
  stagesToken { m with red := { m.red with hold := true, computing := true, claimWait := false, fromHold := false } }

/-- The partner is present: its link is UP (Table 14.1). -/
def partnerHere (m : Module) : Bool := m.red.partner.isSome && m.red.link == 2

/-- A member that reads HOLD on its partner's lines is a non-holder: it computes nothing; without the link it is an ISOLATED_STANDBY (Table 14.9). -/
def becomeNonHolder (m : Module) : Module :=
  let m := { m with red := { m.red with computing := false, claimWait := false } }
  if m.red.link = 2 then setRed 5 m.red.reason m
  else if m.red.st = 4 then m
  else redEvent 0x0E05 0 (setRed 4 1 m)

/-- BOOT_START_FUNCTIONS: the time, the partner's lines, the claim, the starts. Member B's further 2 µs lie within it. -/
def startPhase (reading : Nat) (m : Module) : Module :=
  if m.power.booted then m
  else
    let m := seedTime m
    let m := { m with red := { m.red with lines := reading }, power := { m.power with booted := true } }
    if reading = 1 then autoResync (becomeNonHolder m)
    else
      let m := setRed (if partnerHere m then 5 else 0) m.red.reason (driveHold m)
      let (m, a, b) := bootStarts m
      (m.setStat Ent.bootStarted a).setStat Ent.bootRefused b

def execBootStartFunctions (reading : Fin 3) (s : State) : Host.Outcome State Fault Refusal := s.runE (inPhaseOf 5 (startPhase reading))

/-! ### Ready (R512, R520) -/

/-- READY: phase 5 has ended. -/
def readyPhase (ms : Nat) (m : Module) : Module :=
  if m.power.booted then
    let m := ((m.setStat Ent.bootReady 1).setStat Ent.bootReadyMs (min ms (2 ^ 32 - 1))).setStat Ent.bootPhase 6
    post 0x0E00 0x1201 (leBytes 4 (m.stat Ent.bootReadyMs) ++ leBytes 2 (m.stat Ent.bootFaults) ++ leBytes 2 (m.stat Ent.bootStarted) ++
      leBytes 2 (m.stat Ent.bootRefused) ++ leBytes 1 (m.stat Ent.bootCause) ++ leBytes 1 m.redState) m
  else m

def execReady (ms : Nat) (s : State) : Host.Outcome State Fault Refusal := s.runE (inPhaseOf 5 (readyPhase ms))

end Sys2Proof.Machine
end

