-- ==== Sys2Proof/Machine/HostWrites.lean ====
section
/-! DEFINITION. The commands of the opcode table that a host gives by writing one entry: each is a WRITE request of that entry, and takes the path of every request. -/

namespace Sys2Proof.Machine

/-- The WRITE request of an entry. -/
def hostReq (f : Frame) (key : Nat) (bs : List Byte) : Req := ⟨f, 2, 0, key / 256, key % 256, 0, bs⟩

/-- A host's write of one entry. -/
def hostWrite (f : Frame) (key : Nat) (bs : List Byte) (z : Fuses) (m : Module) : Fuses × Module := odpRequest (ownOp 2) (hostReq f key bs) z m

/-! ### Functions and loops -/

/-- `func[f].expected_crc` (R54). -/
def execExpectedCrcWrite (f : Frame) (fn : Fin 2048) (crc : BitVec 32) (s : State) : Host.Outcome State Fault Refusal := s.runZ (hostWrite f (keyOf (0x400 + fn.val) 3) (leBytes 4 (crc.toNat)))

/-- `loop[n].mode_req` (R98). -/
def execLoopModeRequest (f : Frame) (n : Fin 1024) (mode : BitVec 8) (s : State) : Host.Outcome State Fault Refusal := s.runZ (hostWrite f (keyOf (0x2000 + n.val) 0x60) (leBytes 1 (mode.toNat)))

/-- `loop[n].swap` (R102). -/
def execLoopSwap (f : Frame) (n : Fin 1024) (s : State) : Host.Outcome State Fault Refusal := s.runZ (hostWrite f (keyOf (0x2000 + n.val) 0x63) (leBytes 1 (1)))

/-- `group[g].overrun_clear` (R108). -/
def execOverrunClear (f : Frame) (g : Fin 8) (s : State) : Host.Outcome State Fault Refusal := s.runZ (hostWrite f (keyOf (0x2818 + g.val) 5) (leBytes 1 (1)))

/-! ### Recipes (Table 6.6) -/

/-- `recipe[r].command` := 1. -/
def execRecipeRun (f : Frame) (r : Fin 64) (s : State) : Host.Outcome State Fault Refusal := s.runZ (hostWrite f (keyOf (0x2C40 + r.val) 2) (leBytes 1 (1)))

/-- `recipe[r].command` := 2. -/
def execRecipeHold (f : Frame) (r : Fin 64) (s : State) : Host.Outcome State Fault Refusal := s.runZ (hostWrite f (keyOf (0x2C40 + r.val) 2) (leBytes 1 (2)))

/-- `recipe[r].command` := 3. -/
def execRecipeResume (f : Frame) (r : Fin 64) (s : State) : Host.Outcome State Fault Refusal := s.runZ (hostWrite f (keyOf (0x2C40 + r.val) 2) (leBytes 1 (3)))

/-- `recipe[r].command` := 4. -/
def execRecipeAbort (f : Frame) (r : Fin 64) (s : State) : Host.Outcome State Fault Refusal := s.runZ (hostWrite f (keyOf (0x2C40 + r.val) 2) (leBytes 1 (4)))

/-- `recipe[r].command` := 5. -/
def execRecipeContinue (f : Frame) (r : Fin 64) (s : State) : Host.Outcome State Fault Refusal := s.runZ (hostWrite f (keyOf (0x2C40 + r.val) 2) (leBytes 1 (5)))

/-! ### Flint (R229, R232, R237) -/

/-- `flint.task[k].fault_clear`. -/
def execFlintFaultClear (f : Frame) (k : Fin 8) (s : State) : Host.Outcome State Fault Refusal := s.runZ (hostWrite f (keyOf (0x3010 + k.val) 0x0B) (leBytes 1 (1)))

/-- `flint.change` := SWITCH. -/
def execFlintSwitch (f : Frame) (s : State) : Host.Outcome State Fault Refusal := s.runZ (hostWrite f (Ent.flintChange) (leBytes 1 (1)))

/-- `flint.change` := DISCARD. -/
def execFlintDiscard (f : Frame) (s : State) : Host.Outcome State Fault Refusal := s.runZ (hostWrite f (Ent.flintChange) (leBytes 1 (2)))

/-- `flint.force[i]`. -/
def execForceWrite (f : Frame) (i : Fin 1024) (v : BitVec 64) (s : State) : Host.Outcome State Fault Refusal := s.runZ (hostWrite f (keyOf (0x3020 + i.val / 32) (1 + i.val % 32)) (leBytes 8 (v.toNat)))

/-! ### Axes (Table 8.3) -/

/-- The value of `axis[a].command`: code [39:32], operand [31:0] (R245). -/
def axisWord (code : Nat) (x : BitVec 32) : Nat := code * 2 ^ 32 + x.toNat

/-- `axis[a].command`, code 01h. -/
def execMoveAbs (f : Frame) (a : Fin 32) (x : BitVec 32) (s : State) : Host.Outcome State Fault Refusal := s.runZ (hostWrite f (keyOf (0x3130 + a.val) 1) (leBytes 8 (axisWord 1 x)))

/-- `axis[a].command`, code 02h. -/
def execMoveRel (f : Frame) (a : Fin 32) (x : BitVec 32) (s : State) : Host.Outcome State Fault Refusal := s.runZ (hostWrite f (keyOf (0x3130 + a.val) 1) (leBytes 8 (axisWord 2 x)))

/-- `axis[a].command`, code 03h. -/
def execJog (f : Frame) (a : Fin 32) (x : BitVec 32) (s : State) : Host.Outcome State Fault Refusal := s.runZ (hostWrite f (keyOf (0x3130 + a.val) 1) (leBytes 8 (axisWord 3 x)))

/-- `axis[a].command`, code 04h. -/
def execAxisStop (f : Frame) (a : Fin 32) (x : BitVec 32) (s : State) : Host.Outcome State Fault Refusal := s.runZ (hostWrite f (keyOf (0x3130 + a.val) 1) (leBytes 8 (axisWord 4 x)))

/-- `axis[a].command`, code 05h. -/
def execHalt (f : Frame) (a : Fin 32) (x : BitVec 32) (s : State) : Host.Outcome State Fault Refusal := s.runZ (hostWrite f (keyOf (0x3130 + a.val) 1) (leBytes 8 (axisWord 5 x)))

/-- `axis[a].command`, code 06h. -/
def execResume (f : Frame) (a : Fin 32) (x : BitVec 32) (s : State) : Host.Outcome State Fault Refusal := s.runZ (hostWrite f (keyOf (0x3130 + a.val) 1) (leBytes 8 (axisWord 6 x)))

/-- `axis[a].command`, code 07h. -/
def execHome (f : Frame) (a : Fin 32) (x : BitVec 32) (s : State) : Host.Outcome State Fault Refusal := s.runZ (hostWrite f (keyOf (0x3130 + a.val) 1) (leBytes 8 (axisWord 7 x)))

/-- `axis[a].command`, code 08h. -/
def execSetPos (f : Frame) (a : Fin 32) (x : BitVec 32) (s : State) : Host.Outcome State Fault Refusal := s.runZ (hostWrite f (keyOf (0x3130 + a.val) 1) (leBytes 8 (axisWord 8 x)))

/-- `axis[a].command`, code 09h. -/
def execClearFault (f : Frame) (a : Fin 32) (x : BitVec 32) (s : State) : Host.Outcome State Fault Refusal := s.runZ (hostWrite f (keyOf (0x3130 + a.val) 1) (leBytes 8 (axisWord 9 x)))

/-- `axis[a].command`, code 0Ah. -/
def execSetVmax (f : Frame) (a : Fin 32) (x : BitVec 32) (s : State) : Host.Outcome State Fault Refusal := s.runZ (hostWrite f (keyOf (0x3130 + a.val) 1) (leBytes 8 (axisWord 10 x)))

/-- `axis[a].command`, code 0Bh. -/
def execAxisEnable (f : Frame) (a : Fin 32) (x : BitVec 32) (s : State) : Host.Outcome State Fault Refusal := s.runZ (hostWrite f (keyOf (0x3130 + a.val) 1) (leBytes 8 (axisWord 11 x)))

/-- `axis[a].command`, code 0Ch. -/
def execSetGtarget (f : Frame) (a : Fin 32) (x : BitVec 32) (s : State) : Host.Outcome State Fault Refusal := s.runZ (hostWrite f (keyOf (0x3130 + a.val) 1) (leBytes 8 (axisWord 12 x)))

/-- `axis[a].command`, code 0Dh. -/
def execGroupGo (f : Frame) (a : Fin 32) (x : BitVec 32) (s : State) : Host.Outcome State Fault Refusal := s.runZ (hostWrite f (keyOf (0x3130 + a.val) 1) (leBytes 8 (axisWord 13 x)))

/-- `axis[a].command`, code 0Eh. -/
def execLimitClear (f : Frame) (a : Fin 32) (x : BitVec 32) (s : State) : Host.Outcome State Fault Refusal := s.runZ (hostWrite f (keyOf (0x3130 + a.val) 1) (leBytes 8 (axisWord 14 x)))

/-! ### Discrete outputs and field bus -/

/-- `do.fault_clear` (R291). -/
def execDoFaultClear (f : Frame) (mask : BitVec 32) (s : State) : Host.Outcome State Fault Refusal := s.runZ (hostWrite f (Ent.doFaultClear) (leBytes 4 (mask.toNat)))

/-- `fb[p].cancel` (R324). -/
def execFbCancel (f : Frame) (p : Fin 8) (o : BitVec 8) (s : State) : Host.Outcome State Fault Refusal := s.runZ (hostWrite f (keyOf (0x3800 + p.val) 0x19) (leBytes 1 (o.toNat)))

/-- `fb[p].recover` (R326). -/
def execFbRecover (f : Frame) (p : Fin 8) (s : State) : Host.Outcome State Fault Refusal := s.runZ (hostWrite f (keyOf (0x3800 + p.val) 0x18) (leBytes 1 (1)))

/-- `fb[p].sleep` := 1 (R331). -/
def execFbSleep (f : Frame) (p : Fin 8) (s : State) : Host.Outcome State Fault Refusal := s.runZ (hostWrite f (keyOf (0x3800 + p.val) 0x17) (leBytes 1 (1)))

/-- `fb[p].sleep` := 2 (R331). -/
def execFbWake (f : Frame) (p : Fin 8) (s : State) : Host.Outcome State Fault Refusal := s.runZ (hostWrite f (keyOf (0x3800 + p.val) 0x17) (leBytes 1 (2)))

/-! ### Acquisition -/

/-- `acq.stream.attach` (R348). -/
def execStreamAttach (f : Frame) (s : State) : Host.Outcome State Fault Refusal := s.runZ (hostWrite f (Ent.acqStreamAttach) (leBytes 1 (1)))

/-- `win[w].command` := 1 (Table 11.6). -/
def execWindowArm (f : Frame) (w : Fin 16) (s : State) : Host.Outcome State Fault Refusal := s.runZ (hostWrite f (keyOf (0x3C40 + w.val) 0x13) (leBytes 1 (1)))

/-- `win[w].command` := 2 (Table 11.6). -/
def execWindowDisarm (f : Frame) (w : Fin 16) (s : State) : Host.Outcome State Fault Refusal := s.runZ (hostWrite f (keyOf (0x3C40 + w.val) 0x13) (leBytes 1 (2)))

/-- `win[w].command` := 3 (Table 11.6). -/
def execWindowTrigger (f : Frame) (w : Fin 16) (s : State) : Host.Outcome State Fault Refusal := s.runZ (hostWrite f (keyOf (0x3C40 + w.val) 0x13) (leBytes 1 (3)))

/-- `win[w].release` (R363). -/
def execWindowRelease (f : Frame) (w : Fin 16) (slot : BitVec 8) (s : State) : Host.Outcome State Fault Refusal := s.runZ (hostWrite f (keyOf (0x3C40 + w.val) 0x14) (leBytes 1 (slot.toNat)))

/-! ### Event recorder and time -/

/-- `agate.clear` (R390). -/
def execAgateClear (f : Frame) (last : BitVec 32) (s : State) : Host.Outcome State Fault Refusal := s.runZ (hostWrite f (Ent.agateClear) (leBytes 4 (last.toNat)))

/-- `agate.note` (R391). -/
def execAgateNote (f : Frame) (v : BitVec 64) (s : State) : Host.Outcome State Fault Refusal := s.runZ (hostWrite f (Ent.agateNote) (leBytes 8 (v.toNat)))

/-- `time.accept_step` (R406). -/
def execAcceptStep (f : Frame) (s : State) : Host.Outcome State Fault Refusal := s.runZ (hostWrite f (Ent.timeAcceptStep) (leBytes 1 (1)))

/-- `time.set` (R399). -/
def execTimeSet (f : Frame) (t : T80) (s : State) : Host.Outcome State Fault Refusal := s.runZ (hostWrite f (Ent.timeSet) (leBytes 10 (t80Wire t)))

/-! ### Pair -/

/-- `red.handover` (R438). -/
def execRedHandover (f : Frame) (s : State) : Host.Outcome State Fault Refusal := s.runZ (hostWrite f (Ent.redHandover) (leBytes 1 (1)))

/-- `red.demote` (R433). -/
def execRedDemote (f : Frame) (s : State) : Host.Outcome State Fault Refusal := s.runZ (hostWrite f (Ent.redDemote) (leBytes 1 (1)))

/-- `red.resync` (R420). -/
def execRedResync (f : Frame) (s : State) : Host.Outcome State Fault Refusal := s.runZ (hostWrite f (Ent.redResync) (leBytes 1 (1)))

/-! ### Clocks and power -/

/-- `gate[b].run_en`, `.sleep_en` or `.deep_en` (R459). -/
def execGateEnableWrite (f : Frame) (b : Fin 14) (which : Fin 3) (v : Bool) (s : State) : Host.Outcome State Fault Refusal := s.runZ (hostWrite f (keyOf (0x1020 + b.val) (1 + which.val)) (leBytes 1 (b01 v)))

/-- `clk.mgmt_div` or `clk.motion_div` (R458). -/
def execClockDividerWrite (f : Frame) (motion : Bool) (v : BitVec 8) (s : State) : Host.Outcome State Fault Refusal := s.runZ (hostWrite f (if motion then Ent.clkMotionDiv else Ent.clkMgmtDiv) (leBytes 1 (v.toNat)))

/-- `pwr.state_req` := DEEP (R462). -/
def execDeepRequest (f : Frame) (s : State) : Host.Outcome State Fault Refusal := s.runZ (hostWrite f (Ent.pwrStateReq) (leBytes 1 (2)))

/-! ### Security -/

/-- `sec.commit_sv` (R476). -/
def execCommitSv (f : Frame) (s : State) : Host.Outcome State Fault Refusal := s.runZ (hostWrite f (Ent.secCommitSv) (leBytes 1 (1)))

/-- `sec.lifecycle_req` (R482). -/
def execLifecycleRequest (f : Frame) (target : BitVec 8) (s : State) : Host.Outcome State Fault Refusal := s.runZ (hostWrite f (Ent.secLifecycleReq) (leBytes 1 (target.toNat)))

/-- `sec.anchor[k].use` (R488). -/
def execAnchorUseWrite (f : Frame) (k : Fin 8) (use : BitVec 8) (s : State) : Host.Outcome State Fault Refusal := s.runZ (hostWrite f (keyOf (0x1810 + k.val) 2) (leBytes 1 (use.toNat)))

/-- `dbg.request` := 0 (R485). -/
def execDebugRequestD0 (f : Frame) (s : State) : Host.Outcome State Fault Refusal := s.runZ (hostWrite f (Ent.dbgRequest) (leBytes 1 (0)))

/-- `dbg.request` := 1 (R485). -/
def execDebugRequestD1 (f : Frame) (s : State) : Host.Outcome State Fault Refusal := s.runZ (hostWrite f (Ent.dbgRequest) (leBytes 1 (1)))

end Sys2Proof.Machine
end

