-- ==== Sys2Proof/Machine/Takeover.lean ====
section
/-! DEFINITION. Who drives (chapter 14): readings of the partner's lines, wiring faults, claims, hot and cold takeovers, the watchdog, releases. -/

namespace Sys2Proof.Machine

/-! ### Leaving lockstep (R420, R426, R446) -/

/-- Whatever runs with the partner ends, and the member reports `st`. -/
def dropTo (st reason : Nat) (m : Module) : Module :=
  if m.lockstep then endLockstepIn st reason m
  else if m.red.st = 1 then endResync st reason m
  else setRed st reason m

/-- A standby whose link is lost computes nothing more, but keeps what it holds for the wait of R426: a takeover within it is hot. -/
def suspend (m : Module) : Module :=
  let fails := if m.red.st = 2 then m.red.verifyFails + 1 else 0
  let failed := m.red.st == 2
  let m := { m with red := { m.red with suspended := m.red.st, waiting := true, computing := false, verifyFails := fails, retryDue := false } }
  let m := redEvent 0x0E04 0 (setRed 4 (if 3 ≤ fails then 8 else 1) m)
  if failed then redEvent 0x0E09 0 m else m

/-- A non-holder without a link becomes an ISOLATED_STANDBY (Table 14.9). -/
def isolate (m : Module) : Module :=
  if m.red.st = 4 then m
  else if m.lockstep then suspend m
  else { dropTo 4 1 m with red := { (dropTo 4 1 m).red with computing := false } }

/-- TOKEN_WIRING with the link UP: lockstep goes on, RESYNC is abandoned, and the member reports DEGRADED (Table 14.2, Table 14.12). -/
def wiringFault (m : Module) : Module :=
  let m := setWiring m
  if m.lockstep then m else if m.red.st = 5 then m else dropTo 5 7 m

/-- The wait for the holder has run its 8,000 cycles (R426). -/
def mirrorWaitExpiry (m : Module) : Module :=
  if m.red.suspended ≠ 0 then clearLockstep { m with red := { m.red with suspended := 0, changes := [] } }
  else if m.red.waiting ∧ m.standby = true then endLockstep 5 m
  else m

def execMirrorWaitExpiry (s : State) : Host.Outcome State Fault Refusal := s.runE mirrorWaitExpiry

/-- A digest has not arrived within 8,000 cycles of the holder's own value (R432). -/
def digestLate (m : Module) : Module := if m.red.hold ∧ m.red.digests ≠ [] then endLockstep 4 m else m

def execDigestLate (s : State) : Host.Outcome State Fault Refusal := s.runE digestLate

/-- An internal strobe has been held for 4,000 cycles (R428). -/
def standbyLate (m : Module) : Module := if m.standby ∧ m.red.strobeHeld = true then endLockstep 6 m else m

def execStandbyLate (s : State) : Host.Outcome State Fault Refusal := s.runE standbyLate

/-! ### Hot takeover (R440, R442) -/

/-- A takeover now would be hot (Table 14.1), or comes within the wait of R426. -/
def takesHot (m : Module) : Bool :=
  let st := if m.red.suspended = 0 then m.red.st else m.red.suspended
  let fit := st == 3 || (st == 2 && m.cfgOn Ent.redVerifyTakeover)
  if m.red.waiting then fit else fit && !m.red.wiring

/-- Epochs from `a` up to, not including, `b`. -/
def epochsFrom (a b : Nat) : List Nat := (List.range (b - a)).map fun i => a + i

/-- Instances that an epoch would have had. -/
def instsOf (m : Module) (e : Nat) : Nat := (makeInsts e { m with disp := { m.disp with insts := [] } }).disp.insts.length

/-- Records of the holder whose epochs this member has computed are committed; those of retired epochs are absent (R431, Table 14.14). -/
def keepRecords (last : Nat) (m : Module) : Module :=
  let mine := m.red.recs.filter fun x => match x.2.ev.epoch with | some e => decide (e ≤ last) | none => true
  forL mine (fun x m => takeHolderRecord x.2 { m with agate := { m.agate with nextSeq := (x.2.seq + 1) % 2 ^ 32 } }) { m with red := { m.red with recs := [] } }

/-- Work of epochs after `last` is abandoned: instances, operations, periods of groups that sampled in them. `b` is the last retired epoch. -/
def abandon (last b : Nat) (m : Module) : Module :=
  let m := dropInsts (fun i => decide (last < i.epoch)) m
  let m := forN 16 (fun l m => match (m.lane l).op with
    | some c => if last < c.epoch then modLane l (fun x => { x with abort := some .abort }) m else m
    | none => m) m
  let gs := (List.range 8).filter fun g => decide (last < sampleEpoch g b)
  let mark := fun (s : Sparse Nat) => gs.foldl (fun (acc : Sparse Nat) (g : Nat) => Sparse.set (fun _ => 0) acc g (sampleEpoch g b + 1)) s
  { m with tick := { m.tick with marsh := mark m.tick.marsh, strobed := mark m.tick.strobed }, disp := { m.disp with tags := [], hooks := [] } }

/-- A TIME exit of the current step falls due between two elapsed counts (Table 6.4). -/
def timeExitBetween (m : Module) (r a b : Nat) : Bool :=
  match (m.rrun r).step with
  | some k => (rcExitList (m.cfgB (Ent.recipeImage r)) k).any fun x => x.kind == 0 && decide (a < x.word) && decide (x.word ≤ b)
  | none => false

/-- Slate counts the retired instants, and evaluates again at T what had resolved in an abandoned epoch; both are late commits (R440, Table 14.14). -/
def retireRun (e last t r : Nat) (m : Module) : Module :=
  let x := m.rrun r
  if !x.st.live then m
  else
    let n := ((epochsFrom (e + 1) t).filter fun k => samples (recipeGroup m r) k).length
    let undone := match x.due, x.evalEpoch with | .resolved _ _ _, some k => decide (last < k) | _, _ => false
    let late := undone || timeExitBetween m r x.elapsed (x.elapsed + n)
    let m := if undone then dropStages r (fun s => s.path == 3) (modRun r (fun x => { x with due := .none, late := none, results := [] }) m) else m
    let m := modRun r (fun x => { x with elapsed := x.elapsed + n }) m
    runStats r (if late then m.bump Ent.redLateCommits else m)

/-- Captures in progress carry SWITCHOVER (R442). -/
def markCaptures (m : Module) : Module :=
  forN 16 (fun w m => if (m.win w).st = .triggered then modWin w (fun x => { x with switchover := true }) m else m) m

/-- A gap block covers the retired epochs (R442, R353). -/
def gapBlock (a b : Nat) (m : Module) : Module :=
  if a ≤ b ∧ m.active fnStream = true then { m with acq := { m.acq with staging := m.acq.staging ++ [Block.mk a 255 b 0 [] []] } }.setStat Ent.acqStreamStaged (m.stat Ent.acqStreamStaged + 22) else m

/-- A port leaves monitoring and integrates (R333). -/
def portsIntegrate (m : Module) : Module :=
  forL (upPorts m) (fun p m => if range 2 3 (m.port p).bus && m.cfg (Ent.fbMode p) != 2 then portStats p (modPort p (fun x => { x with bus := 1 }) m) else m) m

/-- Tasks whose release fell in a tick that is retired, or in the running one before the claim. -/
def owedTasks (m : Module) (last b : Nat) : List Nat :=
  (List.range 8).filter fun k => m.running (fnTask k) && (epochsFrom (last + 1) (b + 1)).any fun e => releaseTick m k e

/-- A pending switch of Flint returns to LOADED (Table 14.14). -/
def unswitch (m : Module) : Module :=
  if m.flint.change = .pending then { m with flint := { m.flint with change := .loaded } }.setStat Ent.flintChangeState 1 else m

/-- The token is taken: state, counters, 0E02h. `how`: 1 hot, 2 cold. -/
def tokenTaken (how t last retired : Nat) (m : Module) : Module :=
  let m := (setRed (if partnerHere m then 5 else 0) 11 m).bump Ent.redSwitchovers
  raise fnRed 0x0E02 (redBody m m.red.reason how t last retired) m

/-- The retired epochs between the last completed one and T. -/
def retireEpochs (e last t : Nat) (m : Module) : Module :=
  let n := ((epochsFrom (last + 1) t).map (instsOf m)).sum
  let m := abandon last (t - 1) (keepRecords last m)
  let m := forL (m.slate.runs.map Prod.fst) (retireRun e last t) (unswitch m)
  let m := forL (epochsFrom (e + 1) t) (fun _ m => motionInstant (m.red.capture.getD ⟨[], [], [], 0, 0, 0, [], 0⟩) [] m) m
  (gapBlock (last + 1) (t - 1) (markCaptures m)).bumpBy Ent.redRetiredInstances n

/-- Hot takeover at the cycle of the claim within the member's own tick (R440). T is this tick before cycle 1,200, else the next. -/
def hotTakeover (z : Fuses) (m : Module) : Fuses × Module :=
  match m.tick.epoch with
  | none => (z, tokenTaken 1 0 0 0 (driveHold (clearLockstep { m with red := { m.red with suspended := 0 } })))
  | some e =>
    let j := e + 1 + m.red.lag
    let last := if m.red.lag = 0 then e - 1 else e
    let c := m.tick.cycle
    let t := if c < 1200 then j else j + 1
    let before := m.stat Ent.redRetiredInstances
    let m := retireEpochs e last t m
    let n := m.stat Ent.redRetiredInstances - before
    let owed := owedTasks m last (if 1200 ≤ c then t - 1 else if 399 ≤ c then t else t - 1)
    let m := portsIntegrate (driveHold (clearLockstep { m with red := { m.red with suspended := 0, lag := 0, owed := owed, lastDone := last } }))
    let m := (tokenTaken 1 t last n m).setStat Ent.redLastTakeover t
    if c < 1200 then
      let gs := (List.range 8).foldl (fun (s : Sparse Nat) (g : Nat) => if samples g t then Sparse.set (fun _ => 0) s g m.tick.abs else s) m.tick.groupAbs
      let tick := { m.tick with epoch := some t, lastEpoch := t, groupAbs := gs, old := [], gathered := 0, gatherEnd := 0 }
      instantCore (m.red.capture.getD ⟨[], [], [], 0, 0, 0, [], 0⟩) z { m with tick := tick, red := { m.red with takeover := some c } }
    else (z, { m with tick := { m.tick with epoch := some (t - 1), lastEpoch := t - 1 }, disp := { m.disp with released := some (t - 1) } })

/-! ### Cold takeover (R443) -/

/-- Everything that runs is as after a restart; configuration, stores and the module's own links stay. -/
def coldState (m : Module) : Module :=
  let r := Module.reset
  let k := m.stat Ent.cfgActiveBank
  let running := if k ≤ 1 then (match m.bank k with | some b => b.body.running | none => []) else []
  let tick := { r.tick with disc := m.tick.disc, periodPs := m.tick.periodPs, instant := m.tick.instant, instantT := m.tick.instantT }
  let m := forL (m.funcs.map Prod.fst) (fun f m => m.modFn f fun x => { x with st := .stopped, restart := false }) m
  { m with tick := tick, bootRunning := running, pi := [], loop := r.loop, lanes := [], disp := r.disp, slate := r.slate, flint := r.flint,
           motion := r.motion, io := r.io, ports := [], acq := r.acq, odp := { m.odp with pend := [], pendWords := [] } }

/-- Cold takeover: the token, then step 3 of R514. -/
def coldTakeover (m : Module) : Module :=
  let last := m.tick.lastEpoch
  let m := coldState (clearLockstep (freeWithheld { m with red := { m.red with suspended := 0, changes := [] } }))
  tokenTaken 2 0 last 0 (bootStarts (driveHold m)).1

/-! ### Claims (R435) -/

/-- Member A: the lower slot identity; a module that knows no partner claims as A. -/
def memberA (m : Module) : Bool := match m.red.partner with | some p => decide (m.stat Ent.modSlot < p.slot) | none => true

/-- A member may claim: it has come up, its watchdog has not expired, and it is not going down. -/
def mayClaim (m : Module) : Bool := m.power.booted && !m.red.dogExpired && (m.power.ride == .none || m.power.ride == .full)

/-- The token is taken, hot or cold by Table 14.1. -/
def takeToken (z : Fuses) (m : Module) : Fuses × Module :=
  if !mayClaim m then (z, m)
  else if takesHot m then hotTakeover z m
  else if m.cfgOn Ent.redColdTakeover then (z, coldTakeover m)
  else (z, m)

/-- A claim: a takeover and member A's at once, member B's after a further 2 µs. -/
def wantToken (z : Fuses) (m : Module) : Fuses × Module :=
  if m.red.fromHold || memberA m then takeToken z m else (z, { m with red := { m.red with claimWait := true } })

/-- Both members drive HOLD: B returns to RELEASE, A keeps HOLD. -/
def claimConflict (m : Module) : Module :=
  let m := redEvent 0x0E07 0 (m.bump Ent.redClaimConflicts)
  if memberA m then m
  else becomeNonHolder (stagesToken (clearLockstep (freeWithheld { m with red := { m.red with hold := false, computing := false, releaseDue := none } })))

/-! ### Tables 14.9 and 14.10 -/

/-- A non-holder's reaction. -/
def reactNonHolder (z : Fuses) (m : Module) : Fuses × Module :=
  let up := m.red.link == 2
  match m.red.lines with
  | 1 => (z, if up then m else isolate m)
  | 0 => wantToken z m
  | _ => if up then (z, wiringFault m) else if m.red.pwrOk then (z, isolate (setWiring m)) else wantToken z m

/-- A holder's reaction. -/
def reactHolder (m : Module) : Module :=
  let up := m.red.link == 2
  match m.red.lines with
  | 1 => claimConflict m
  | 0 => if up then m else dropTo 5 1 m
  | _ =>
    if m.red.pwrOk then wiringFault m
    else if up then setWiring m
    else
      let m := dropTo 0 2 m
      { m with red := { m.red with partner := none, partnerState := 0 } }

/-- A member that has come up reacts to its qualified readings. -/
def react (z : Fuses) (m : Module) : Fuses × Module :=
  if !m.power.booted then (z, m) else if m.red.hold then (z, reactHolder m) else reactNonHolder z m

/-- LODESTONE_QUALIFIED: a new reading has stood for 2 µs (R434). -/
def linesQualified (reading : Nat) (z : Fuses) (m : Module) : Fuses × Module :=
  if m.red.lines = reading then (z, m)
  else
    let was := m.red.lines == 1
    react z { m with red := { m.red with lines := reading, fromHold := was, claimWait := false } }

def execLodestoneQualified (reading : Fin 3) (s : State) : Host.Outcome State Fault Refusal := s.runZ (linesQualified reading)

/-- PARTNER_PWR_OK_CHANGE. -/
def partnerPwrOk (level : Bool) (z : Fuses) (m : Module) : Fuses × Module :=
  if m.red.pwrOk = level then (z, m) else react z { m with red := { m.red with pwrOk := level } }

def execPartnerPwrOkChange (level : Bool) (s : State) : Host.Outcome State Fault Refusal := s.runZ (partnerPwrOk level)

/-- TOKEN_CLAIM: the permitting reading has stood a further 2 µs. -/
def tokenClaim (z : Fuses) (m : Module) : Fuses × Module :=
  if m.red.claimWait && !m.red.hold && m.red.lines != 1 then takeToken z { m with red := { m.red with claimWait := false } } else (z, m)

def execTokenClaim (s : State) : Host.Outcome State Fault Refusal := s.runZ tokenClaim

/-! ### Watchdog, release, wiring (R437 to R439) -/

/-- The watchdog is armed: the member drives HOLD and its loop engine is not STOPPED. -/
def dogArmed (m : Module) : Bool := m.red.hold && !m.stopped fnEngine

/-- The watchdog expires: RELEASE, and no event (R451). -/
def dogExpires (m : Module) : Module :=
  if dogArmed m then
    let st := if m.red.partner.isSome then 5 else m.red.st
    stagesToken (clearLockstep (freeWithheld { m with red := { m.red with hold := false, computing := false, releaseDue := none, dogExpired := true, st := st, reason := if m.red.partner.isSome then 11 else m.red.reason } }))
  else m

def execLodestoneWatchdog (s : State) : Host.Outcome State Fault Refusal := s.runE dogExpires

/-- No strobe of an earlier sample instant is pending. -/
def strobesDone (m : Module) : Bool :=
  match m.tick.epoch with
  | none => true
  | some e => (List.range 8).all fun g =>
      let se := sampleEpoch g e
      !m.active (fnGroup g) || se == e || strobed m g se

/-- TOKEN_RELEASE at cycle 1 of a tick after the cause (R438). -/
def tokenRelease (m : Module) : Module :=
  match m.red.releaseDue with
  | none => m
  | some cause =>
    if !m.red.hold then m
    else if m.tick.epoch.isSome && decide (1 < m.tick.cycle) then m
    else if cause == 1 && !strobesDone m then m
    else releaseToken cause (toCycle 1 m)

def execTokenRelease (s : State) : Host.Outcome State Fault Refusal := s.runE tokenRelease

/-- TOKEN_WIRING clears when both readings have been valid for 1 s; lockstep that has stood under it ends, and RESYNC may begin. -/
def wiringClear (m : Module) : Module :=
  if m.red.wiring && m.red.lines != 2 then
    let m := if m.lockstep then endLockstep 7 m else m
    autoResync (redEvent 0x0E06 0 { m with red := { m.red with wiring := false } })
  else m

def execTokenWiringClear (s : State) : Host.Outcome State Fault Refusal := s.runE wiringClear

end Sys2Proof.Machine
end

