-- ==== Sys2Proof/Machine/PairCmds.lean ====
section
/-! DEFINITION. The Itpel link's commands (chapter 14): the link itself, its frames, VERIFY and RESYNC. -/

namespace Sys2Proof.Machine

/-! ### The link (R421, R422) -/

/-- The link is UP: the partner is known, and a pair may form (R418). -/
def linkUp (delay : Nat) (p : Partner) (m : Module) : Module :=
  if m.red.link = 2 then m
  else
    let m := redEvent 0x0E05 1 { m with red := { m.red with link := 2, delay := delay, partner := some p, rxSeq := none, replay := [] } }
    autoResync (if identityDiffers m then { m with red := { m.red with reason := 10 } } else m)

def execItpelLinkUp (delay : Nat) (p : Partner) (s : State) : Host.Outcome State Fault Refusal := s.runE (linkUp delay p)

/-- The link is DOWN: responses that wait for the standby go out, and the member reacts by its table (R427, R439). -/
def linkDown (z : Fuses) (m : Module) : Fuses × Module :=
  if m.red.link = 2 then
    let m := { m with red := { m.red with link := 0, partnerState := 0, replay := [], rxSeq := none, forwards := [] } }
    react z (redEvent 0x0E05 0 (freeWithheld m))
  else (z, m)

def execItpelLinkDown (s : State) : Host.Outcome State Fault Refusal := s.runZ linkDown

/-- A frame goes out again from the replay buffer; one that has failed three resends takes the link down. -/
def resend (seq : Nat) (z : Fuses) (m : Module) : Fuses × Module :=
  match m.red.replay.find? fun x => x.1.seq == seq with
  | none => (z, m)
  | some (f, n) =>
    if 3 ≤ n then linkDown z m
    else
      let up := fun (x : ItFrame × Nat) => (x.1, x.2 + 1)
      let m := { m with red := { m.red with replay := mapFirst (fun x => x.1.seq == seq) up m.red.replay } }
      (z, emit (.itpel { f with resend := true }) (m.bump Ent.redLinkResends))

def execItpelResendTimeout (seq : Nat) (s : State) : Host.Outcome State Fault Refusal := s.runZ (resend seq)

/-- The next frame has come: its SEQ, or the one after the last. -/
def rxNext (m : Module) : Nat := match m.red.rxSeq with | some n => (n + 1) % 2 ^ 16 | none => 1

/-- A frame of the partner is taken while the link is UP, and acknowledged. An ACK takes a SEQ, and is not kept for a resend. -/
def taken (f : Module → Module) (m : Module) : Module :=
  if m.red.link = 2 then
    let n := rxNext m
    let a : ItFrame := ⟨false, (m.red.txSeq + 1) % 2 ^ 16, m.epochWire, .ack false n⟩
    f (emit (.itpel a) { m with red := { m.red with rxSeq := some n, txSeq := a.seq } })
  else m

/-- Frames up to a SEQ are acknowledged; responses whose CHANGE they carried go out (R70, R427). -/
def acked (seq : Nat) (m : Module) : Module :=
  if m.red.replay.any fun x => x.1.seq == seq then
    let rest := (m.red.replay.dropWhile fun x => x.1.seq != seq).drop 1
    let waits := fun (x : Nat × Resp) => rest.any fun y => y.1.seq == x.1
    let go := m.odp.withheld.filter fun x => !waits x
    let m := { m with red := { m.red with replay := rest }, odp := { m.odp with withheld := m.odp.withheld.filter waits } }
    forL go (fun x m => deliver x.2 m) m
  else m

/-- ACK_NAK_FRAME. -/
def ackNak (nak : Bool) (seq : Nat) (z : Fuses) (m : Module) : Fuses × Module :=
  if m.red.link ≠ 2 then (z, m)
  else
    let m := { m with red := { m.red with rxSeq := some (rxNext m) } }
    if nak then resend seq z m else (z, acked seq m)

def execAckNakFrame (nak : Bool) (seq : Nat) (s : State) : Host.Outcome State Fault Refusal := s.runZ (ackNak nak seq)

/-! ### Frames of the holder -/

/-- A member that takes its holder's frames: a standby, or one that joins. -/
def listens (m : Module) : Bool := !m.red.hold && (m.lockstep || m.red.st == 1)

/-- A frame of the holder. -/
def fromHolder (f : Module → Module) (m : Module) : Module := taken (fun m => if listens m then f m else m) m

/-- TICK_FRAME: the holder's tick and its discipline (R424). -/
def tickFrame (epoch : Nat) (disc : Discipline) (m : Module) : Module :=
  let d := if m.tick.disc = .stretched then .stretched else disc
  { m with tick := { m.tick with disc := d }, red := { m.red with tickEpoch := some epoch } }

def execTickFrame (epoch : Nat) (disc : Discipline) (s : State) : Host.Outcome State Fault Refusal := s.runE (fromHolder (tickFrame epoch disc))

/-- MIRROR_FRAME: sections of an epoch (R425). -/
def mirrorFrame (epoch : Nat) (l : List Section) (m : Module) : Module := forL l (fun x m => addSection epoch x m) m

def execMirrorFrame (epoch : Nat) (sections : List Section) (s : State) : Host.Outcome State Fault Refusal :=
  s.runE (fromHolder (mirrorFrame epoch sections))

/-- CHANGE_FRAME: one accepted change (R427). -/
def changeFrame (ch : Change) (m : Module) : Module := { m with red := { m.red with changes := m.red.changes ++ [ch] } }

def execChangeFrame (ch : Change) (s : State) : Host.Outcome State Fault Refusal := s.runE (fromHolder (changeFrame ch))

/-- DECISION_FRAME: kept for its epoch; for one that runs already, taken at once (R428). -/
def decisionFrame (epoch : Nat) (d : Decision) (m : Module) : Module :=
  let m := { m with red := { m.red with decisions := m.red.decisions ++ [(epoch, d)] } }
  if m.standby && m.tick.epoch == some epoch then takeDecision d m else m

def execDecisionFrame (epoch : Nat) (d : Decision) (s : State) : Host.Outcome State Fault Refusal := s.runE (fromHolder (decisionFrame epoch d))

/-- RECORD_FRAME: a committed record (R431). -/
def recordFrame (epoch : Nat) (r : Rec) (m : Module) : Module :=
  if takesRecords m then { m with red := { m.red with recs := m.red.recs ++ [(epoch, r)] } } else m

def execRecordFrame (epoch : Nat) (r : Rec) (s : State) : Host.Outcome State Fault Refusal := s.runE (fromHolder (recordFrame epoch r))

/-! ### Frames of the standby -/

/-- DIGEST_FRAME: compared with the holder's own value (R432); one for which the holder holds none was made before this VERIFY. -/
def digestFrame (d : Digest) (m : Module) : Module :=
  if m.red.hold && m.lockstep then
    let same := fun (x : Digest) => x.kind == d.kind && x.which == d.which && x.epoch == d.epoch
    match m.red.digests.find? same with
    | none => m
    | some x =>
      let m := { m with red := { m.red with digests := m.red.digests.filter fun y => !same y } }
      if x.value = d.value then m else endLockstep 3 (m.bump Ent.redMismatches)
  else m

def execDigestFrame (d : Digest) (s : State) : Host.Outcome State Fault Refusal := s.runE (taken (digestFrame d))

/-- A request that the standby has passed on: handled as one of the holder's own, against the role of the standby's session (R429). -/
def forwardedRequest (r : Req) (role : Role) (z : Fuses) (m : Module) : Fuses × Module :=
  let r' := { r with fr := { r.fr with session := partnerSession + r.fr.session } }
  if m.red.hold then serve ⟨r'.fr.session, role.rank, false⟩ r' z m else (z, m)

/-- The answer to a request passed on, relayed to its session. -/
def forwardedAnswer (a : Resp) (m : Module) : Module :=
  let mine := fun (r : Req) => r.fr.session == a.session && r.fr.id == a.id
  if m.red.forwards.any mine then deliver a { m with red := { m.red with forwards := m.red.forwards.filter fun r => !mine r } } else m

/-- FORWARD_FRAME. -/
def forwardFrame (r : Req) (role : Role) (answer : Option Resp) (z : Fuses) (m : Module) : Fuses × Module :=
  if m.red.link ≠ 2 then (z, m)
  else
    let m := taken id m
    match answer with
    | none => forwardedRequest r role z m
    | some a => (z, forwardedAnswer a m)

def execForwardFrame (r : Req) (role : Role) (answer : Option Resp) (s : State) : Host.Outcome State Fault Refusal :=
  s.runZ (forwardFrame r role answer)

/-- EVENT_FRAME: an event of the standby's own hardware (R431). -/
def eventFrame (e : Event) (m : Module) : Module :=
  if m.red.hold then admitEvent { e with source := (e.source + 0x8000) % 2 ^ 16 } m else m

def execEventFrame (e : Event) (s : State) : Host.Outcome State Fault Refusal := s.runE (taken (eventFrame e))

/-! ### RESYNC (R444, R445) -/

/-- The configuration goes to the inactive bank, and the pointer flips (R60, R444). -/
def bankFromHolder (running : List Nat) (m : Module) : Module :=
  let (k, m) := saveBank m
  let seq := (m.stat Ent.cfgActiveSequence + 1) % 2 ^ 32
  let b : Bank := ⟨true, true, seq, m.now, m.free, { snapshot m with running := running }⟩
  let m := setBank k (some b) { m with free := m.free + 1, nv := { m.nv with ptr := some ⟨k, 255 - k, seq⟩ } }
  (showBank k b m).setStat (bankValidKey k) 1

/-- BULK_FRAME: configuration, then history. -/
def bulkFrame (b : Bulk) (m : Module) : Module :=
  if m.red.st ≠ 1 then m
  else match b with
    | .config sh lv shB lvB running =>
      let d := m.dict
      let dict : Dict := { d with
        shadow := swapCells dfltCell sharedRws sh d.shadow, live := swapCells dfltCell sharedRws lv d.live,
        shadowB := swapCells dfltBytes sharedRws shB d.shadowB, liveB := swapCells dfltBytes sharedRws lvB d.liveB }
      bankFromHolder running { m with dict := dict }
    | .history slots =>
      let store := slots.foldl (fun (acc : Sparse (List Byte)) (x : Nat × List Byte) => Sparse.set dfltSlot acc x.1 x.2) []
      let base := match slots.head? with | some x => leAt x.2 0 4 | none => m.agate.descr.base
      let a := { m.agate with used := slots.length, queue := [], nextSeq := (base + slots.length) % 2 ^ 32, descr := { m.agate.descr with base := base } }
      saveDescr { m with nv := { m.nv with store := store }, agate := a, red := { m.red with phase := 3 } }

def execBulkFrame (b : Bulk) (s : State) : Host.Outcome State Fault Refusal := s.runE (fromHolder (bulkFrame b))

/-- A port's table and pending frames as its partner holds them: nothing of them is on this member's wire, and the receive buffer stays its own. -/
def joinedPort (own x : Port) : Port :=
  let idle := fun (f : PendFrame) => { f with started := false }
  { x with objs := x.objs.map fun o => (o.1, { o.2 with cur := o.2.cur.map idle, next := o.2.next.map idle }), queue := x.queue.map idle,
           wire := .none, busy := false, window := none, rx := own.rx, rxDropping := own.rxDropping }

/-- The state that a JOIN frame carries. -/
def applyJoin (f epoch : Nat) (st : JoinState) (m : Module) : Module :=
  match st with
  | .slot n bs => (bs.take 512).zipIdx.foldl (fun (m : Module) (x : Byte × Nat) => setMem n x.2 1 x.1.toNat m) m
  | .recipe r run => countEntries (runStats r (modRun r (fun _ => { run with stages := [] }) m))
  | .slate v => { m with slate := { m.slate with valves := v } }
  | .flint d p fl ts cs => takeCounts f cs { m with flint := { m.flint with data := d, permits := p, flags := fl, tasks := ts } }
  | .axis a x cs => axisStats a (modAxis a (fun _ => x) (takeCounts f cs m))
  | .mgroup g x => modMGroup g (fun _ => x) m
  | .port p x cs => modPort p (fun own => joinedPort own x) (takeCounts f cs m)
  | .chan c x cs => modChan c (fun _ => { x with stage := false, changedAt := none }) (takeCounts f cs m)
  | .inputs v raw n t cs => takeCounts f cs { m with io := { m.io with diState := v, diRaw := raw, diCount := n, diSince := t } }
  | .outputs v off mism cause cs => takeCounts f cs { m with io := { m.io with doLatch := v, doOff := off, doMism := mism, doCause := cause } }
  | .window w => modWin w (fun x => { x with st := .armed, armedAt := epoch }) m
  | .other _ => m

/-- The first join starts the joining member's ticks: its next epoch is that of the join. -/
def joinTicks (epoch : Nat) (m : Module) : Module :=
  if m.tick.epoch.isSome then m
  else
    let m := setPower 0 0xFF (m.modFn fnEngine fun x => { x with st := .running })
    { m with tick := { m.tick with epoch := some (epoch - 1), lastEpoch := epoch - 1 } }

/-- JOIN_FRAME: a function is computed from its join epoch. What START does to it comes first; a task's state has joined with the Flint processor's. -/
def joinFrame (f epoch : Nat) (st : JoinState) (m : Module) : Module :=
  if m.red.st ≠ 1 ∨ isFn f = false then m
  else
    let m := joinTicks epoch { m with red := { m.red with joined := m.red.joined ++ [f], computing := true } }
    let m := m.modFn f fun x => { x with st := .running }
    countSlots (applyJoin f epoch st (if f = fnEngine ∨ range 0x488 0x48F f = true then m else startEffect f m))

def execJoinFrame (fn epoch : Nat) (st : JoinState) (s : State) : Host.Outcome State Fault Refusal := s.runE (fromHolder (joinFrame fn epoch st))

/-! ### VERIFY, HEALTH, retry (R420, R423) -/

/-- VERIFY has passed: SYNCHRONISED. -/
def verified (m : Module) : Module := redEvent 0x0E09 0 (setRed 3 0 { m with red := { m.red with verifyFails := 0 } })

/-- VERIFY_PASSED: the holder has counted 1,000 equal ticks; the standby takes it from the holder. -/
def verifyPassed (m : Module) : Module :=
  if m.red.st = 2 ∧ (m.red.hold = false ∨ 1000 ≤ m.red.verifyCount) then verified m else m

def execVerifyPassed (s : State) : Host.Outcome State Fault Refusal := s.runE verifyPassed

/-- The partner's state is followed: lockstep that it has ended ends here, VERIFY and SYNCHRONISED follow the holder's, a RESYNC it has abandoned ends. -/
def followPartner (st reason : Nat) (m : Module) : Module :=
  let wiring := st == 5 && reason == 7
  if m.lockstep then
    if !(st == 2 || st == 3 || wiring || (m.red.hold && st == 1)) then endLockstep reason m
    else if m.red.st = 2 ∧ m.red.hold = false ∧ st = 3 then verified m
    else m
  else if m.red.st = 1 ∧ m.red.hold = false then
    if st = 2 then startVerify m
    else if st ≠ 1 ∧ (m.red.phase = 3 ∨ m.red.joined ≠ []) then endResync 5 reason m
    else m
  else m

/-- HEALTH_FRAME. -/
def healthFrame (st reason : Nat) (p : Partner) (m : Module) : Module :=
  let m := { m with red := { m.red with partner := some p, partnerState := st } }
  let m := if identityDiffers m then { m with red := { m.red with reason := 10 } } else m
  autoResync (followPartner st reason m)

def execHealthFrame (st reason lines : Nat) (pwrOk : Bool) (p : Partner) (s : State) : Host.Outcome State Fault Refusal :=
  s.runE (taken fun m => let _ := (lines, pwrOk); healthFrame st reason p m)

/-- HEALTH_SEND, every 1 ms. -/
def healthSend (m : Module) : Module :=
  sendItpel m.epochWire (.health m.redState m.red.reason m.red.lines m.red.pwrOk (ownPartner m)) m

def execHealthSend (s : State) : Host.Outcome State Fault Refusal := s.runE healthSend

/-- RESYNC_RETRY: `red.resync_retry` has run since the last failure. -/
def resyncRetry (m : Module) : Module := autoResync { m with red := { m.red with retryDue := true } }

def execResyncRetry (s : State) : Host.Outcome State Fault Refusal := s.runE resyncRetry

end Sys2Proof.Machine
end

