-- ==== Sys2Proof/Machine/Dispatch.lean ====
section
/-! DEFINITION. One arm per command: the meaning it calls. -/

namespace Sys2Proof.Machine

/-- The effect of one command (R-numbers stand at the constructors and the meanings). -/
def exec (i : Instr) (s : State) : Host.Outcome State Fault Refusal :=
  match i with
  | .sampleInstant c => Sys2Proof.Machine.execSampleInstant c s
  | .missedStrobe c => Sys2Proof.Machine.execMissedStrobe c s
  | .inputTagRelease => Sys2Proof.Machine.execInputTagRelease s
  | .marshallingStart g => Sys2Proof.Machine.execMarshallingStart g s
  | .outputStrobe g => Sys2Proof.Machine.execOutputStrobe g s
  | .clientHello h => Sys2Proof.Machine.execClientHello h s
  | .clientFinish peer bytes => Sys2Proof.Machine.execClientFinish peer bytes s
  | .handshakeTimeout peer => Sys2Proof.Machine.execHandshakeTimeout peer s
  | .sessionIdleTimeout session => Sys2Proof.Machine.execSessionIdleTimeout session s
  | .read r => Sys2Proof.Machine.execRead r s
  | .write r => Sys2Proof.Machine.execWrite r s
  | .readBlock r => Sys2Proof.Machine.execReadBlock r s
  | .writeBlock r => Sys2Proof.Machine.execWriteBlock r s
  | .start r => Sys2Proof.Machine.execStart r s
  | .stop r => Sys2Proof.Machine.execStop r s
  | .save r => Sys2Proof.Machine.execSave r s
  | .saveComplete good => Sys2Proof.Machine.execSaveComplete good s
  | .subscribe r => Sys2Proof.Machine.execSubscribe r s
  | .close r => Sys2Proof.Machine.execClose r s
  | .domWriteInit r => Sys2Proof.Machine.execDomWriteInit r s
  | .domWriteSeg r => Sys2Proof.Machine.execDomWriteSeg r s
  | .domWriteEnd r => Sys2Proof.Machine.execDomWriteEnd r s
  | .domWriteTimeout session key => Sys2Proof.Machine.execDomWriteTimeout session key s
  | .domReadInit r => Sys2Proof.Machine.execDomReadInit r s
  | .domReadSeg r => Sys2Proof.Machine.execDomReadSeg r s
  | .domReadEnd r => Sys2Proof.Machine.execDomReadEnd r s
  | .domReadTimeout session key => Sys2Proof.Machine.execDomReadTimeout session key s
  | .exportInit r => Sys2Proof.Machine.execExportInit r s
  | .exportSeg r => Sys2Proof.Machine.execExportSeg r s
  | .exportEnd r => Sys2Proof.Machine.execExportEnd r s
  | .exportTimeout session => Sys2Proof.Machine.execExportTimeout session s
  | .subscriptionPass => Sys2Proof.Machine.execSubscriptionPass s
  | .expectedCrcWrite f fn crc => Sys2Proof.Machine.execExpectedCrcWrite f fn crc s
  | .loopModeRequest f n mode => Sys2Proof.Machine.execLoopModeRequest f n mode s
  | .loopSwap f n => Sys2Proof.Machine.execLoopSwap f n s
  | .overrunClear f g => Sys2Proof.Machine.execOverrunClear f g s
  | .feAlarm n => Sys2Proof.Machine.execFeAlarm n s
  | .overrunAction n => Sys2Proof.Machine.execOverrunAction n s
  | .operationIssue l cycle => Sys2Proof.Machine.execOperationIssue l cycle s
  | .budgetTermination l => Sys2Proof.Machine.execBudgetTermination l s
  | .abortTakesEffect l => Sys2Proof.Machine.execAbortTakesEffect l s
  | .basaltMac l f => Sys2Proof.Machine.execBasaltMac l f s
  | .basaltAdd l f => Sys2Proof.Machine.execBasaltAdd l f s
  | .basaltSub l f => Sys2Proof.Machine.execBasaltSub l f s
  | .basaltNeg l f => Sys2Proof.Machine.execBasaltNeg l f s
  | .basaltAbs l f => Sys2Proof.Machine.execBasaltAbs l f s
  | .basaltMin l f => Sys2Proof.Machine.execBasaltMin l f s
  | .basaltMax l f => Sys2Proof.Machine.execBasaltMax l f s
  | .basaltShr l f => Sys2Proof.Machine.execBasaltShr l f s
  | .basaltShl l f => Sys2Proof.Machine.execBasaltShl l f s
  | .basaltMov l f => Sys2Proof.Machine.execBasaltMov l f s
  | .basaltMovi l f => Sys2Proof.Machine.execBasaltMovi l f s
  | .basaltMovh l f => Sys2Proof.Machine.execBasaltMovh l f s
  | .basaltCmp l f => Sys2Proof.Machine.execBasaltCmp l f s
  | .basaltSel l f => Sys2Proof.Machine.execBasaltSel l f s
  | .basaltClmp l f => Sys2Proof.Machine.execBasaltClmp l f s
  | .basaltClmd l f => Sys2Proof.Machine.execBasaltClmd l f s
  | .basaltDbnd l f => Sys2Proof.Machine.execBasaltDbnd l f s
  | .basaltTagt l f => Sys2Proof.Machine.execBasaltTagt l f s
  | .basaltTags l f => Sys2Proof.Machine.execBasaltTags l f s
  | .basaltTago l f => Sys2Proof.Machine.execBasaltTago l f s
  | .basaltAtrn l f => Sys2Proof.Machine.execBasaltAtrn l f s
  | .basaltAadd l f => Sys2Proof.Machine.execBasaltAadd l f s
  | .basaltAsub l f => Sys2Proof.Machine.execBasaltAsub l f s
  | .basaltClrs l f => Sys2Proof.Machine.execBasaltClrs l f s
  | .basaltSqrt l f => Sys2Proof.Machine.execBasaltSqrt l f s
  | .basaltTlkp l f => Sys2Proof.Machine.execBasaltTlkp l f s
  | .basaltLds l f => Sys2Proof.Machine.execBasaltLds l f s
  | .basaltSts l f => Sys2Proof.Machine.execBasaltSts l f s
  | .basaltLdc l f => Sys2Proof.Machine.execBasaltLdc l f s
  | .basaltLdv l f => Sys2Proof.Machine.execBasaltLdv l f s
  | .basaltStv l f => Sys2Proof.Machine.execBasaltStv l f s
  | .basaltSto l f => Sys2Proof.Machine.execBasaltSto l f s
  | .basaltLdp l f => Sys2Proof.Machine.execBasaltLdp l f s
  | .basaltAddp l f => Sys2Proof.Machine.execBasaltAddp l f s
  | .basaltB l c target => Sys2Proof.Machine.execBasaltB l c target s
  | .basaltRpt l n1 step1 step2 => Sys2Proof.Machine.execBasaltRpt l n1 step1 step2 s
  | .basaltRptb l k1 n1 step1 step2 => Sys2Proof.Machine.execBasaltRptb l k1 n1 step1 step2 s
  | .basaltEnd l => Sys2Proof.Machine.execBasaltEnd l s
  | .basaltNop l => Sys2Proof.Machine.execBasaltNop l s
  | .lpsup l target => Sys2Proof.Machine.execLpsup l target s
  | .lpout l e => Sys2Proof.Machine.execLpout l e s
  | .tagAccept producer tag => Sys2Proof.Machine.execTagAccept producer tag s
  | .prefetchPop l cycle => Sys2Proof.Machine.execPrefetchPop l cycle s
  | .inTagTimeout link chan => Sys2Proof.Machine.execInTagTimeout link chan s
  | .hookExitEvaluation r x cycle => Sys2Proof.Machine.execHookExitEvaluation r x cycle s
  | .stageBuildComplete => Sys2Proof.Machine.execStageBuildComplete s
  | .recipeRun f r => Sys2Proof.Machine.execRecipeRun f r s
  | .recipeHold f r => Sys2Proof.Machine.execRecipeHold f r s
  | .recipeResume f r => Sys2Proof.Machine.execRecipeResume f r s
  | .recipeAbort f r => Sys2Proof.Machine.execRecipeAbort f r s
  | .recipeContinue f r => Sys2Proof.Machine.execRecipeContinue f r s
  | .flintRelease => Sys2Proof.Machine.execFlintRelease s
  | .flintTaskFault k => Sys2Proof.Machine.execFlintTaskFault k s
  | .flintFaultClear f k => Sys2Proof.Machine.execFlintFaultClear f k s
  | .flintSwitch f => Sys2Proof.Machine.execFlintSwitch f s
  | .flintDiscard f => Sys2Proof.Machine.execFlintDiscard f s
  | .switchTimeout => Sys2Proof.Machine.execSwitchTimeout s
  | .forceWrite f n v => Sys2Proof.Machine.execForceWrite f n v s
  | .flintLd neg x => Sys2Proof.Machine.execFlintLd neg x s
  | .flintAnd neg x => Sys2Proof.Machine.execFlintAnd neg x s
  | .flintOr neg x => Sys2Proof.Machine.execFlintOr neg x s
  | .flintXor neg x => Sys2Proof.Machine.execFlintXor neg x s
  | .flintSt neg x => Sys2Proof.Machine.execFlintSt neg x s
  | .flintSet x => Sys2Proof.Machine.execFlintSet x s
  | .flintRst x => Sys2Proof.Machine.execFlintRst x s
  | .flintAndb neg x => Sys2Proof.Machine.execFlintAndb neg x s
  | .flintOrb neg x => Sys2Proof.Machine.execFlintOrb neg x s
  | .flintXorb neg x => Sys2Proof.Machine.execFlintXorb neg x s
  | .flintPop => Sys2Proof.Machine.execFlintPop s
  | .flintNot => Sys2Proof.Machine.execFlintNot s
  | .flintCgt good flagWord w c => Sys2Proof.Machine.execFlintCgt good flagWord w c s
  | .flintClt good flagWord w c => Sys2Proof.Machine.execFlintClt good flagWord w c s
  | .flintCge good flagWord w c => Sys2Proof.Machine.execFlintCge good flagWord w c s
  | .flintCle good flagWord w c => Sys2Proof.Machine.execFlintCle good flagWord w c s
  | .flintCeq good flagWord w c => Sys2Proof.Machine.execFlintCeq good flagWord w c s
  | .flintCne good flagWord w c => Sys2Proof.Machine.execFlintCne good flagWord w c s
  | .flintMovk f c => Sys2Proof.Machine.execFlintMovk f c s
  | .flintMovi f w => Sys2Proof.Machine.execFlintMovi f w s
  | .flintTon t => Sys2Proof.Machine.execFlintTon t s
  | .flintTof t => Sys2Proof.Machine.execFlintTof t s
  | .flintTp t => Sys2Proof.Machine.execFlintTp t s
  | .flintCtu c => Sys2Proof.Machine.execFlintCtu c s
  | .flintCtd c => Sys2Proof.Machine.execFlintCtd c s
  | .flintRstc c => Sys2Proof.Machine.execFlintRstc c s
  | .flintEdgr e => Sys2Proof.Machine.execFlintEdgr e s
  | .flintEdgf e => Sys2Proof.Machine.execFlintEdgf e s
  | .flintJmp target => Sys2Proof.Machine.execFlintJmp target s
  | .flintJmpc target => Sys2Proof.Machine.execFlintJmpc target s
  | .flintJmpn target => Sys2Proof.Machine.execFlintJmpn target s
  | .flintNop => Sys2Proof.Machine.execFlintNop s
  | .flintEnd => Sys2Proof.Machine.execFlintEnd s
  | .moveAbs f a x => Sys2Proof.Machine.execMoveAbs f a x s
  | .moveRel f a x => Sys2Proof.Machine.execMoveRel f a x s
  | .jog f a x => Sys2Proof.Machine.execJog f a x s
  | .axisStop f a x => Sys2Proof.Machine.execAxisStop f a x s
  | .halt f a x => Sys2Proof.Machine.execHalt f a x s
  | .resume f a x => Sys2Proof.Machine.execResume f a x s
  | .home f a x => Sys2Proof.Machine.execHome f a x s
  | .setPos f a x => Sys2Proof.Machine.execSetPos f a x s
  | .clearFault f a x => Sys2Proof.Machine.execClearFault f a x s
  | .setVmax f a x => Sys2Proof.Machine.execSetVmax f a x s
  | .axisEnable f a x => Sys2Proof.Machine.execAxisEnable f a x s
  | .setGtarget f a x => Sys2Proof.Machine.execSetGtarget f a x s
  | .groupGo f a x => Sys2Proof.Machine.execGroupGo f a x s
  | .limitClear f a x => Sys2Proof.Machine.execLimitClear f a x s
  | .limitTrip a negative => Sys2Proof.Machine.execLimitTrip a negative s
  | .stallFault a => Sys2Proof.Machine.execStallFault a s
  | .homeNotFound a => Sys2Proof.Machine.execHomeNotFound a s
  | .coarseStep a mc negative => Sys2Proof.Machine.execCoarseStep a mc negative s
  | .zEdge a mc => Sys2Proof.Machine.execZEdge a mc s
  | .complianceAlarm c => Sys2Proof.Machine.execComplianceAlarm c s
  | .bankFault b cause => Sys2Proof.Machine.execBankFault b cause s
  | .bankRecovered b => Sys2Proof.Machine.execBankRecovered b s
  | .diChange n => Sys2Proof.Machine.execDiChange n s
  | .doFault n cause => Sys2Proof.Machine.execDoFault n cause s
  | .doRetry n => Sys2Proof.Machine.execDoRetry n s
  | .doFaultClear f mask => Sys2Proof.Machine.execDoFaultClear f mask s
  | .trunkTraining l sat latency outMin delay => Sys2Proof.Machine.execTrunkTraining l sat latency outMin delay s
  | .trunkBlockLanded l b frame => Sys2Proof.Machine.execTrunkBlockLanded l b frame s
  | .trunkLinkDown l => Sys2Proof.Machine.execTrunkLinkDown l s
  | .satelliteAccept l accepted => Sys2Proof.Machine.execSatelliteAccept l accepted s
  | .satelliteConfigTimeout l => Sys2Proof.Machine.execSatelliteConfigTimeout l s
  | .canFrameReceived p m remote esi age => Sys2Proof.Machine.execCanFrameReceived p m remote esi age s
  | .canFrameSent p age => Sys2Proof.Machine.execCanFrameSent p age s
  | .canError p e => Sys2Proof.Machine.execCanError p e s
  | .windowStart p w => Sys2Proof.Machine.execWindowStart p w s
  | .stationWindowCheck p k => Sys2Proof.Machine.execStationWindowCheck p k s
  | .stationLost p k => Sys2Proof.Machine.execStationLost p k s
  | .stationOnline p k => Sys2Proof.Machine.execStationOnline p k s
  | .fallbackAgeExpiry p => Sys2Proof.Machine.execFallbackAgeExpiry p s
  | .fbCancel f p o => Sys2Proof.Machine.execFbCancel f p o s
  | .fbRecover f p => Sys2Proof.Machine.execFbRecover f p s
  | .busOffRecovered p => Sys2Proof.Machine.execBusOffRecovered p s
  | .fbSleep f p => Sys2Proof.Machine.execFbSleep f p s
  | .fbWake f p => Sys2Proof.Machine.execFbWake f p s
  | .transceiverAsleep p => Sys2Proof.Machine.execTransceiverAsleep p s
  | .wakeUpPattern p => Sys2Proof.Machine.execWakeUpPattern p s
  | .wakeFrame p m => Sys2Proof.Machine.execWakeFrame p m s
  | .acquisitionCopy => Sys2Proof.Machine.execAcquisitionCopy s
  | .blockClose g => Sys2Proof.Machine.execBlockClose g s
  | .streamSend => Sys2Proof.Machine.execStreamSend s
  | .streamAttach f => Sys2Proof.Machine.execStreamAttach f s
  | .trigInEdge k falling => Sys2Proof.Machine.execTrigInEdge k falling s
  | .windowArm f w => Sys2Proof.Machine.execWindowArm f w s
  | .windowDisarm f w => Sys2Proof.Machine.execWindowDisarm f w s
  | .windowTrigger f w => Sys2Proof.Machine.execWindowTrigger f w s
  | .windowRelease f w slot => Sys2Proof.Machine.execWindowRelease f w slot s
  | .rearmExpiry w => Sys2Proof.Machine.execRearmExpiry w s
  | .trigOutPulseEnd k => Sys2Proof.Machine.execTrigOutPulseEnd k s
  | .recordWrite => Sys2Proof.Machine.execRecordWrite s
  | .repeatWindowClose => Sys2Proof.Machine.execRepeatWindowClose s
  | .agateClear f last => Sys2Proof.Machine.execAgateClear f last s
  | .agateNote f v => Sys2Proof.Machine.execAgateNote f v s
  | .ptpSync m => Sys2Proof.Machine.execPtpSync m s
  | .ptpFollowUp m => Sys2Proof.Machine.execPtpFollowUp m s
  | .ptpDelayResp m => Sys2Proof.Machine.execPtpDelayResp m s
  | .ptpAnnounce a => Sys2Proof.Machine.execPtpAnnounce a s
  | .ptpDelayReq m => Sys2Proof.Machine.execPtpDelayReq m s
  | .ptpManagement link => Sys2Proof.Machine.execPtpManagement link s
  | .ptpMasterTransmit announce => Sys2Proof.Machine.execPtpMasterTransmit announce s
  | .syncTimeout => Sys2Proof.Machine.execSyncTimeout s
  | .announceTimeout => Sys2Proof.Machine.execAnnounceTimeout s
  | .acceptStep f => Sys2Proof.Machine.execAcceptStep f s
  | .timeSet f t => Sys2Proof.Machine.execTimeSet f t s
  | .calendarCheck => Sys2Proof.Machine.execCalendarCheck s
  | .calendarTrim drift => Sys2Proof.Machine.execCalendarTrim drift s
  | .retainedTimeWrite => Sys2Proof.Machine.execRetainedTimeWrite s
  | .leapSecond => Sys2Proof.Machine.execLeapSecond s
  | .calLost => Sys2Proof.Machine.execCalLost s
  | .itpelLinkUp delay p => Sys2Proof.Machine.execItpelLinkUp delay p s
  | .itpelLinkDown => Sys2Proof.Machine.execItpelLinkDown s
  | .itpelResendTimeout seq => Sys2Proof.Machine.execItpelResendTimeout seq s
  | .tickFrame epoch disc => Sys2Proof.Machine.execTickFrame epoch disc s
  | .ackNakFrame nak seq => Sys2Proof.Machine.execAckNakFrame nak seq s
  | .mirrorFrame epoch sections => Sys2Proof.Machine.execMirrorFrame epoch sections s
  | .changeFrame ch => Sys2Proof.Machine.execChangeFrame ch s
  | .decisionFrame epoch d => Sys2Proof.Machine.execDecisionFrame epoch d s
  | .recordFrame epoch r => Sys2Proof.Machine.execRecordFrame epoch r s
  | .digestFrame d => Sys2Proof.Machine.execDigestFrame d s
  | .forwardFrame r role answer => Sys2Proof.Machine.execForwardFrame r role answer s
  | .eventFrame e => Sys2Proof.Machine.execEventFrame e s
  | .bulkFrame b => Sys2Proof.Machine.execBulkFrame b s
  | .joinFrame fn epoch st => Sys2Proof.Machine.execJoinFrame fn epoch st s
  | .healthFrame st reason lines pwrOk p => Sys2Proof.Machine.execHealthFrame st reason lines pwrOk p s
  | .healthSend => Sys2Proof.Machine.execHealthSend s
  | .mirrorWaitExpiry => Sys2Proof.Machine.execMirrorWaitExpiry s
  | .digestLate => Sys2Proof.Machine.execDigestLate s
  | .standbyLate => Sys2Proof.Machine.execStandbyLate s
  | .verifyPassed => Sys2Proof.Machine.execVerifyPassed s
  | .resyncRetry => Sys2Proof.Machine.execResyncRetry s
  | .lodestoneQualified reading => Sys2Proof.Machine.execLodestoneQualified reading s
  | .partnerPwrOkChange level => Sys2Proof.Machine.execPartnerPwrOkChange level s
  | .tokenClaim => Sys2Proof.Machine.execTokenClaim s
  | .lodestoneWatchdog => Sys2Proof.Machine.execLodestoneWatchdog s
  | .tokenRelease => Sys2Proof.Machine.execTokenRelease s
  | .tokenWiringClear => Sys2Proof.Machine.execTokenWiringClear s
  | .redHandover f => Sys2Proof.Machine.execRedHandover f s
  | .redDemote f => Sys2Proof.Machine.execRedDemote f s
  | .redResync f => Sys2Proof.Machine.execRedResync f s
  | .powerOn => Sys2Proof.Machine.execPowerOn s
  | .rcCountComplete => Sys2Proof.Machine.execRcCountComplete s
  | .tcxoCountComplete => Sys2Proof.Machine.execTcxoCountComplete s
  | .tcxoAttemptFail => Sys2Proof.Machine.execTcxoAttemptFail s
  | .pllLock p => Sys2Proof.Machine.execPllLock p s
  | .domainSwitchComplete n => Sys2Proof.Machine.execDomainSwitchComplete n s
  | .clockMonitorTrip pll => Sys2Proof.Machine.execClockMonitorTrip pll s
  | .rcFault => Sys2Proof.Machine.execRcFault s
  | .selfGate b => Sys2Proof.Machine.execSelfGate b s
  | .gateAck b deferral => Sys2Proof.Machine.execGateAck b deferral s
  | .gateEnableWrite f b which v => Sys2Proof.Machine.execGateEnableWrite f b which v s
  | .clockDividerWrite f motion v => Sys2Proof.Machine.execClockDividerWrite f motion v s
  | .deepRequest f => Sys2Proof.Machine.execDeepRequest f s
  | .deepEntered => Sys2Proof.Machine.execDeepEntered s
  | .wakeSource k => Sys2Proof.Machine.execWakeSource k s
  | .pfail bankMv => Sys2Proof.Machine.execPfail bankMv s
  | .inputRestored => Sys2Proof.Machine.execInputRestored s
  | .fullTimeout => Sys2Proof.Machine.execFullTimeout s
  | .bankMeasurement mv => Sys2Proof.Machine.execBankMeasurement mv s
  | .persistComplete => Sys2Proof.Machine.execPersistComplete s
  | .thermalWarning plate soc => Sys2Proof.Machine.execThermalWarning plate soc s
  | .thermalTrip junction plate soc => Sys2Proof.Machine.execThermalTrip junction plate soc s
  | .thermalCooldown plate soc => Sys2Proof.Machine.execThermalCooldown plate soc s
  | .chargeStart => Sys2Proof.Machine.execChargeStart s
  | .insertionAbandoned => Sys2Proof.Machine.execInsertionAbandoned s
  | .bankCharged ms => Sys2Proof.Machine.execBankCharged ms s
  | .railsGood slot => Sys2Proof.Machine.execRailsGood slot s
  | .resetRelease => Sys2Proof.Machine.execResetRelease s
  | .removal contact => Sys2Proof.Machine.execRemoval contact s
  | .runtimeStart => Sys2Proof.Machine.execRuntimeStart s
  | .agateBootScan dramOk => Sys2Proof.Machine.execAgateBootScan dramOk s
  | .configBankSelect => Sys2Proof.Machine.execConfigBankSelect s
  | .imageReverify => Sys2Proof.Machine.execImageReverify s
  | .bootStartFunctions reading => Sys2Proof.Machine.execBootStartFunctions reading s
  | .ready ms => Sys2Proof.Machine.execReady ms s
  | .commitSv f => Sys2Proof.Machine.execCommitSv f s
  | .lifecycleRequest f target => Sys2Proof.Machine.execLifecycleRequest f target s
  | .anchorUseWrite f k use => Sys2Proof.Machine.execAnchorUseWrite f k use s
  | .debugRequestD0 f => Sys2Proof.Machine.execDebugRequestD0 f s
  | .debugRequestD1 f => Sys2Proof.Machine.execDebugRequestD1 f s
  | .tokenExpiry kind => Sys2Proof.Machine.execTokenExpiry kind s
  | .jtagBypass => Sys2Proof.Machine.execJtagBypass s
  | .jtagIdcode => Sys2Proof.Machine.execJtagIdcode s
  | .jtagSamplePreload preload => Sys2Proof.Machine.execJtagSamplePreload preload s
  | .jtagExtest v => Sys2Proof.Machine.execJtagExtest v s
  | .jtagIntest v => Sys2Proof.Machine.execJtagIntest v s
  | .jtagClamp => Sys2Proof.Machine.execJtagClamp s
  | .jtagHighz => Sys2Proof.Machine.execJtagHighz s
  | .jtagTraceRead u => Sys2Proof.Machine.execJtagTraceRead u s
  | .jtagHalt u => Sys2Proof.Machine.execJtagHalt u s
  | .jtagStep u => Sys2Proof.Machine.execJtagStep u s
  | .jtagResume u => Sys2Proof.Machine.execJtagResume u s
  | .jtagRegisterAccess u x write => Sys2Proof.Machine.execJtagRegisterAccess u x write s
  | .windowEnd p w => Sys2Proof.Machine.execWindowEnd p w s
  | .busIntegration p => Sys2Proof.Machine.execBusIntegration p s
  | .delayReqTransmit => Sys2Proof.Machine.execDelayReqTransmit s
  | .quadratureEdge a ab => Sys2Proof.Machine.execQuadratureEdge a ab s
  | .uncorrectableEccError => Sys2Proof.Machine.execUncorrectableEccError s
  | .presentNGlitch contact => Sys2Proof.Machine.execPresentNGlitch contact s
  | .bankExhausted => Sys2Proof.Machine.execBankExhausted s
  | .lifecycleReset => Sys2Proof.Machine.execLifecycleReset s

end Sys2Proof.Machine
end

