-- ==== Sys2Proof/Safety.lean ====
section
/-! DEFINITION. What counts as a safe state and a completed command, in the terms claims use. -/

namespace Sys2Proof.Machine

/-- The process image keeps its canonical form. -/
def Module.piWf (m : Module) : Bool := Sparse.wf dfltWord m.pi

/-- The loop memory keeps its canonical form. -/
def Module.memWf (m : Module) : Bool := Sparse.wf (fun _ => (0 : Byte)) m.loop.mem

/-- A step answers a next state. -/
def answers (o : Host.Outcome State Fault Refusal) : Bool :=
  match o with
  | .next _ => true
  | _ => false

/-- Command `c` at state `s` answers a next state that changes the module alone, and the module it leaves meets `P`. -/
def completes (c : Instr) (s : State) (P : Module → Prop) : Prop :=
  ∃ m, exec c s = .next { s with mod := m } ∧ P m

/-- The counters of Agate's own queue and windows. -/
def recordKeys : List Nat := [Ent.agateQueuePeak, Ent.agateQueueOverflow, Ent.agateRepeatTableFull, Ent.agateFolded]

/-- `m'` is `m` but for what recording events changes: Agate's queue, windows, drop run and counters, and a pair's event frames, their replay and the record digest. -/
def recordsOnly (m m' : Module) : Prop :=
  (∃ ev q seq ws dr rb ts rp o st,
    m' = { m with agate := { m.agate with raised := ev, queue := q, nextSeq := seq, windows := ws, dropRun := dr },
                  red := { m.red with recBytes := rb, txSeq := ts, replay := rp }, out := o, dict := { m.dict with stat := st } }) ∧
  m.out <+: m'.out ∧ ∀ k, k ∉ recordKeys → m'.stat k = m.stat k

end Sys2Proof.Machine
end

