-- ==== Sys2Proof/Certificates/Slice0/Obligations.lean ====
section
/-! DEFINITION. The statements for the provers. -/

open Sys2Proof Sys2Proof.Machine

/-! ### The block -/

/-- A step takes the front command. -/
def Obligations.StepRunsTheFrontCommand : Prop :=
  ∀ (c : Instr) (rest : List Instr) (s : State), step { s with pending := c :: rest } = exec c { s with pending := rest }

/-- The block idles (log 2). -/
def Obligations.EmptyQueueIdlesOneCycle : Prop :=
  ∀ s : State, s.pending = [] → ∃ m, step s = .next { s with mod := m } ∧ m.tick.cycle = s.mod.tick.cycle + 1 ∧
    m = { s.mod with tick := m.tick, time := m.time }

/-- The queue is no command's to change. -/
def Obligations.CommandsKeepTheQueue : Prop :=
  ∀ (c : Instr) (s t : State), exec c s = .next t → t.pending = s.pending

/-- The state after reset. -/
def Obligations.ResetLeaves : Prop :=
  (∀ a, State.reset.mod.word a = 0) ∧ (∀ f, (State.reset.mod.fn f).st = .stopped) ∧ State.reset.mod.power.outputs = false ∧
    State.reset.mod.io.doLatch = 0 ∧ State.reset.mod.red.driving = true ∧ State.reset.mod.red.hold = false ∧ State.reset.mod.tick.epoch = none ∧
    State.reset.mod.odp.sessions = [] ∧ State.reset.mod.odp.handshakes = [] ∧ State.reset.mod.odp.domWrites = [] ∧ State.reset.mod.odp.domReads = [] ∧
    State.reset.mod.sec.level = 0 ∧ State.reset.mod.sec.debugTok = none ∧ State.reset.mod.sec.serviceTok = none ∧ State.reset.mod.sec.rmaTok = none ∧
    State.reset.mod.stat Ent.bootPhase = 0 ∧ State.reset.fuses.lifecycle = 1 ∧ State.reset.fuses.sv = 0 ∧ State.reset.pending = []

/-- The transitions of Table 16.6: from a lifecycle state to another. -/
def Sys2Proof.Machine.lifecyclePair (a b : Nat) : Bool :=
  [(0, 1), (1, 2), (1, 3), (2, 3), (3, 1), (1, 4), (2, 4), (3, 4)].contains (a, b)

/-- Fuse rows, newest first, of which each is a transition of Table 16.6 from the state of the row before it; the first is made from BLANK. -/
def Sys2Proof.Machine.lifecycleRows : List Nat → Bool
  | [] => true
  | [b] => lifecyclePair 0 b
  | b :: a :: l => lifecyclePair a b && lifecycleRows (a :: l)

/-- At most 32 fuse rows are used, each for a legal transition (R481, R482). -/
def Sys2Proof.Machine.fusesLegal (z : Fuses) : Prop := z.rows.length ≤ 32 ∧ lifecycleRows z.rows = true

/-- The lifecycle history is append-only and legal. -/
def Obligations.FusesStayLegal : Prop :=
  ∀ s t : State, fusesLegal s.fuses → step s = .next t → fusesLegal t.fuses ∧ s.fuses.rows <:+ t.fuses.rows ∧ s.fuses.sv ≤ t.fuses.sv

/-- The invariant of the fuses at reset. -/
def Obligations.ResetFusesLegal : Prop := fusesLegal State.reset.fuses

/-- One word written to the process image. -/
def Obligations.WordWriteReadsBack : Prop :=
  ∀ (m : Module) (a : Nat) (w : Word), m.piWf = true →
    (putWord a w m).piWf = true ∧ (putWord a w m).word (a % 2 ^ 18) = w ∧ (∀ b, b ≠ a % 2 ^ 18 → (putWord a w m).word b = m.word b) ∧
      putWord a w m = { m with
        pi := (putWord a w m).pi, motion := (putWord a w m).motion, io := (putWord a w m).io, acq := (putWord a w m).acq }

/-- Decoding and encoding lane words agree, both ways. -/
def Obligations.LaneWordsRoundTrip : Prop :=
  (∀ op : LaneOp, op.defined = true → laneEncode op < 2 ^ 32 ∧ laneDecode (laneEncode op) = some op) ∧
    ∀ (w : Nat) (op : LaneOp), w < 2 ^ 32 → laneDecode w = some op → op.defined = true ∧ laneEncode op = w

/-- Decoding and encoding Flint words agree, both ways. -/
def Obligations.FlintWordsRoundTrip : Prop :=
  (∀ op : FlintOp, op.defined = true → flintEncode op < 2 ^ 32 ∧ flintDecode (flintEncode op) = some op) ∧
    ∀ (w : Nat) (op : FlintOp), w < 2 ^ 32 → flintDecode w = some op → op.defined = true ∧ flintEncode op = w

/-- A few words, written out. -/
def Obligations.WrittenOutWordsDecode : Prop :=
  flintDecode 0x000C0000 = some (.bit .ld false ⟨6, 0⟩) ∧ flintDecode 0x46001000 = some (.cmp .lt true false 1 0) ∧
    flintDecode 0x80000000 = some (.timer 0 0) ∧ flintDecode 0x1C000000 = some (.bit .andb false ⟨0, 0⟩) ∧
    flintDecode 0x06000040 = some (.bit .and true ⟨0, 64⟩) ∧ flintDecode 0x14040000 = some (.bit .set false ⟨2, 0⟩) ∧
    flintDecode 0xA0000000 = some (.edge false 0) ∧ flintDecode 0x10020000 = some (.bit .st false ⟨1, 0⟩) ∧ flintDecode 0xFC000000 = some .fend ∧
    laneDecode 0xC8000000 = some (.rptb 0 0 0 0) ∧ laneDecode 0xCC000000 = some .stop ∧ laneDecode 0xD0000000 = some .nop

/-! ### Lanes (R120 to R146) -/

/-- The command of a lane instruction. -/
def Sys2Proof.Machine.laneInstr (l : Fin 16) : LaneOp → Instr
  | .mac f => .basaltMac l f
  | .alu .add f => .basaltAdd l f
  | .alu .sub f => .basaltSub l f
  | .alu .neg f => .basaltNeg l f
  | .alu .abs f => .basaltAbs l f
  | .alu .min f => .basaltMin l f
  | .alu .max f => .basaltMax l f
  | .alu .shr f => .basaltShr l f
  | .alu .shl f => .basaltShl l f
  | .alu .mov f => .basaltMov l f
  | .alu .movi f => .basaltMovi l f
  | .alu .movh f => .basaltMovh l f
  | .alu .cmp f => .basaltCmp l f
  | .alu .sel f => .basaltSel l f
  | .alu .clmp f => .basaltClmp l f
  | .alu .clmd f => .basaltClmd l f
  | .alu .dbnd f => .basaltDbnd l f
  | .alu .tagt f => .basaltTagt l f
  | .alu .tags f => .basaltTags l f
  | .alu .tago f => .basaltTago l f
  | .alu .atrn f => .basaltAtrn l f
  | .alu .aadd f => .basaltAadd l f
  | .alu .asub f => .basaltAsub l f
  | .alu .clrs f => .basaltClrs l f
  | .alu .sqrt f => .basaltSqrt l f
  | .alu .tlkp f => .basaltTlkp l f
  | .ls .lds f => .basaltLds l f
  | .ls .sts f => .basaltSts l f
  | .ls .ldc f => .basaltLdc l f
  | .ls .ldv f => .basaltLdv l f
  | .ls .stv f => .basaltStv l f
  | .ls .sto f => .basaltSto l f
  | .ptr false f => .basaltLdp l f
  | .ptr true f => .basaltAddp l f
  | .b c t => .basaltB l c t
  | .rpt n s1 s2 => .basaltRpt l n s1 s2
  | .rptb k n s1 s2 => .basaltRptb l k n s1 s2
  | .stop => .basaltEnd l
  | .nop => .basaltNop l
  | .lpsup t => .lpsup l t
  | .lpout e => .lpout l e

/-- Lane `l` runs operation `c`: not halted, no abort to take, outside delay slots and repeats, nothing in flight; and the word at its address is `op`, in ROM where ROM alone holds it. -/
def Sys2Proof.Machine.laneReady (s : State) (l : Fin 16) (c : OpCtx) (op : LaneOp) : Prop :=
  (s.mod.lane l).op = some c ∧ (s.mod.lane l).halted = false ∧ (s.mod.lane l).abort = none ∧ (s.mod.lane l).pipe = [] ∧
    (s.mod.lane l).delay = 0 ∧ (s.mod.lane l).rep = none ∧ fetches s.mod l op = true ∧ op.defined = true ∧
    (op.romOnly = true → (s.mod.lane l).pc < 0x8000)

/-- The register bank that the operation of a lane works in. -/
def Sys2Proof.Machine.laneBank (m : Module) (l : Nat) : RegBank := (m.lane l).bank (m.lane l).cur

/-- The instruction completes; once its four cycles D, M, A and W have run, the operation's bank is `b`, the other bank and the other lanes are as they were, and the rest of the module is what `F` makes of the module before (recording aside). -/
def Sys2Proof.Machine.laneLeaves (op : LaneOp) (s : State) (l : Fin 16) (F : Module → Module) (b : RegBank) : Prop :=
  completes (laneInstr l op) s fun m => ∃ v u, recordsOnly s.mod v ∧ u = laneCycles l 4 m ∧ u = { F v with lanes := u.lanes } ∧
    (u.lane l).bank (s.mod.lane l).cur = b ∧ (u.lane l).bank (!(s.mod.lane l).cur) = (s.mod.lane l).bank (!(s.mod.lane l).cur) ∧
    ∀ k : Nat, k ≠ l → u.lane k = s.mod.lane k

/-- A 21-bit result brought to 20 bits: saturated with SAT, else its low 20 bits (R139). -/
def Sys2Proof.Machine.fit20 (sat : Bool) (r : Int) : Int := if sat then max (-524288) (min r 524287) else (BitVec.ofInt 20 r).toInt

/-- The C operand of an A-type instruction: the value cell at p0 + imm9 of the operation's slot; `k` bytes above it (R116, R139). -/
def Sys2Proof.Machine.cOperand (m : Module) (c : OpCtx) (b : RegBank) (f : AFields) (k : Nat) : Int := busQ m c ((busAddr (b.pr 0) f.imm.val + k) % 512)

/-- What Table 4.8 puts into xd, before it is brought to 20 bits; none where xd is left alone. -/
def Sys2Proof.Machine.aluTable (op : AluOp) (f : AFields) (m : Module) (c : OpCtx) (b : RegBank) : Option Int :=
  let xa := b.xi f.xa.val
  let xb := b.xi f.xb.val
  match op with
  | .add => some (xa + xb)
  | .sub => some (xa - xb)
  | .neg => some (-xa)
  | .abs => some xa.natAbs
  | .min => some (min xa xb)
  | .max => some (max xa xb)
  | .shr => some (xa / 2 ^ (f.imm.val % 32))
  | .shl => some (xa * 2 ^ (f.imm.val % 32))
  | .mov => some xa
  | .movi => some (BitVec.ofNat 12 f.imm.val).toInt
  | .movh => some (BitVec.ofNat 12 f.imm.val ++ (b.xr f.xd.val).extractLsb' 0 8).toInt
  | .sel => some (if (condOf (f.imm.val % 16)).any (fun k => k.holds b.flags) then xa else xb)
  | .clmp => some (clampI xa (cOperand m c b f 3) (cOperand m c b f 0))
  | .clmd => some (clampI xa (xb - cOperand m c b f 0) (xb + cOperand m c b f 0))
  | .dbnd => some (if (xa.natAbs : Int) ≤ cOperand m c b f 0 then 0 else xa)
  | .sqrt => some (rootChar xa (cOperand m c b f 0))
  | .tlkp => some (interpolate (m.tablePts (f.imm.val % 256) c.epoch) xa)
  | .cmp | .tagt | .tags | .tago | .atrn | .aadd | .asub | .clrs => none

/-- V and SV after an A-type or M-type instruction in which a saturation acted or did not (R123). -/
def Sys2Proof.Machine.satFlags (sat acted : Bool) (f : Flags) : Flags := if sat then { f with v := acted, sv := f.sv || acted } else f

/-- N, Z, V and SV after a result `r`, brought to 20 bits as `v`. -/
def Sys2Proof.Machine.resultFlags (sat acted : Bool) (v : Int) (f : Flags) : Flags := satFlags sat acted { f with n := decide (v < 0), z := decide (v = 0) }

/-- The bank after an A-type instruction: Table 4.8 with R123. -/
def Sys2Proof.Machine.aluAfter (op : AluOp) (f : AFields) (m : Module) (c : OpCtx) (b : RegBank) : RegBank :=
  match aluTable op f m c b with
  | some r =>
    let v := fit20 f.sat r
    let acted := match op with
      | .tlkp => interpSat (m.tablePts (f.imm.val % 256) c.epoch) (b.xi f.xa.val)
      | _ => decide (v ≠ r)
    let b' := match op with
      | .mov => (b.setX f.xd.val v).setT f.xd.val (b.tr f.xa.val)
      | _ => b.setX f.xd.val v
    { b' with flags := resultFlags f.sat acted v b.flags }
  | none =>
    match op with
    | .cmp => { b with flags := resultFlags f.sat false (b.xi f.xa.val - b.xi f.xb.val) b.flags }
    | .tagt => { b with flags := { satFlags f.sat false b.flags with t := decide (b.tr f.xa.val &&& BitVec.ofNat 12 f.imm.val ≠ 0) } }
    | .tags => { b.setT f.xd.val (BitVec.ofNat 12 f.imm.val) with flags := satFlags f.sat false b.flags }
    | .tago => { b.setT f.xd.val (b.tr f.xa.val ||| BitVec.ofNat 12 f.imm.val) with flags := satFlags f.sat false b.flags }
    | .clrs => { b with flags := { satFlags f.sat false b.flags with sv := false } }
    | .aadd => { b.setA (f.xd.val % 4) (b.ar (f.xa.val % 4) + b.ar (f.xb.val % 4)) with flags := satFlags f.sat false b.flags }
    | .asub => { b.setA (f.xd.val % 4) (b.ar (f.xa.val % 4) - b.ar (f.xb.val % 4)) with flags := satFlags f.sat false b.flags }
    | .atrn =>
      let s : Int := ((List.range 4).filter fun k => bit (f.imm.val % 16) k).foldl (fun s k => s + b.ar k) 0
      let a : Int := if f.sat then max (-(2 ^ 47)) (min s (2 ^ 47 - 1)) else (BitVec.ofInt 48 s).toInt
      let v := fit20 f.sat (a / 2 ^ 17)
      { b.setX f.xd.val v with flags := resultFlags f.sat (decide (a ≠ s) || decide (v ≠ a / 2 ^ 17)) v b.flags }
    | _ => b

/-- Every A-type instruction (Table 4.8, R123): registers, tags, accumulators and flags after it, and its frame. -/
def Obligations.LaneRegisterArithmetic : Prop :=
  ∀ (s : State) (l : Fin 16) (c : OpCtx) (op : AluOp) (f : AFields), laneReady s l c (.alu op f) →
    laneLeaves (.alu op f) s l id (aluAfter op f s.mod c (laneBank s.mod l))

/-- The 40-bit cell's multiplicand of D-high and D-low, times a coefficient (R122). -/
def Sys2Proof.Machine.dTerm (high : Bool) (d coeff : Int) : Int := if high then coeff * (d / 2 ^ 20) * 2 ^ 3 else coeff * (d % 2 ^ 20) / 2 ^ 17

/-- Address of an M-type instruction's S cell (R138). -/
def Sys2Proof.Machine.macCell (f : MFields) (b : RegBank) : Nat := busAddr (b.pr 2) f.s7.val

/-- The exact accumulation of an M-type instruction (R120, Table 4.6). -/
def Sys2Proof.Machine.macExact (f : MFields) (m : Module) (c : OpCtx) (b : RegBank) : Int :=
  let coeff := busQ m c (busAddr (b.pr 1) (3 * f.c6.val))
  let s40 := sint 40 (busRead m c (macCell f b) 5)
  let init : Int := match f.init.val with
    | 1 => 0
    | 2 => s40
    | 3 => sint 48 (busRead m c (macCell f b) 6)
    | 4 => busQ m c (macCell f b) * 2 ^ 17
    | 5 => b.xi f.xd.val * 2 ^ 17
    | _ => b.ar f.ad.val
  let product := match f.init.val with
    | 6 => dTerm true s40 coeff
    | 7 => dTerm false s40 coeff
    | _ => b.xi f.xs.val * coeff
  if f.neg then init - product else init + product

/-- The accumulator after it: saturated to its write-back's width with SAT, else the low 48 bits (R120). -/
def Sys2Proof.Machine.macValue (f : MFields) (m : Module) (c : OpCtx) (b : RegBank) : Int :=
  let r := macExact f m c b
  if f.sat then (if f.wb.val = 2 then max (-(2 ^ 39)) (min r (2 ^ 39 - 1)) else max (-(2 ^ 47)) (min r (2 ^ 47 - 1)))
  else (BitVec.ofInt 48 r).toInt

/-- The bank after an M-type instruction (R120, R121, R123, Table 4.6). -/
def Sys2Proof.Machine.macAfter (f : MFields) (m : Module) (c : OpCtx) (b : RegBank) : RegBank :=
  let a := macValue f m c b
  let x := fit20 f.sat (a / 2 ^ 17)
  let acted := decide (a ≠ macExact f m c b) || (decide (f.wb.val = 1) && decide (x ≠ a / 2 ^ 17))
  let b1 := b.setA f.ad.val a
  let b2 := if f.init.val = 5 then { b1 with w := b.xr f.xd.val } else b1
  let b3 := if f.wb.val = 1 then b2.setX f.xd.val x else b2
  { b3 with flags := satFlags f.sat acted b.flags }

/-- What an M-type instruction stores (R120, Table 4.6). -/
def Sys2Proof.Machine.macStore (f : MFields) (c : OpCtx) (addr : Nat) (a : Int) (m : Module) : Module :=
  if f.wb.val = 2 then busWrite c addr 5 (uint 40 a) m else if f.wb.val = 3 then busWrite c addr 6 (uint 48 a) m else m

/-- The M-type instruction (R120 to R123, R138): accumulator, write-back, flags, and its frame. -/
def Obligations.LaneMultiplyAccumulate : Prop :=
  ∀ (s : State) (l : Fin 16) (c : OpCtx) (f : MFields), laneReady s l c (.mac f) →
    laneLeaves (.mac f) s l (macStore f c (macCell f (laneBank s.mod l)) (macValue f s.mod c (laneBank s.mod l)))
      (macAfter f s.mod c (laneBank s.mod l))

/-- The word a V access reads: none for an address cell of FF_FFFFh (R140). -/
def Sys2Proof.Machine.vWord (m : Module) (c : OpCtx) (a : Nat) : Option Word := (cellTarget m c false a).map m.word

/-- The bank after an L-type instruction (Table 4.9). -/
def Sys2Proof.Machine.lsAfter (op : LsOp) (f : LFields) (m : Module) (c : OpCtx) (b : RegBank) : RegBank :=
  let a := busAddr (b.pr f.p.val) f.off.val
  match op with
  | .lds | .ldc => b.setX f.x.val (busQ m c a)
  | .ldv =>
    match vWord m c a with
    | some w => ((b.setX f.x.val (wInt w)).setT f.x.val (wTag w)).setRaw a w
    | none => ((b.setX f.x.val 0).setT f.x.val 0).setRaw a 0
  | .sts | .stv | .sto => b

/-- What an L-type instruction does outside the lane (Table 4.9, R148, R149): `at_` is the cycle of its W stage. -/
def Sys2Proof.Machine.lsStore (op : LsOp) (f : LFields) (c : OpCtx) (b : RegBank) (target : Option Nat) (at_ : Nat) (m : Module) : Module :=
  let a := busAddr (b.pr f.p.val) f.off.val
  let w := mkWord ((b.tr f.x.val).toNat / 16) c.group (parityOf c.group c.epoch) (b.xr f.x.val)
  match op with
  | .sts => busWrite c a 3 (valueCode (b.xi f.x.val)) m
  | .stv => storeV c target w m
  | .sto => stageV c a target w at_ m
  | _ => m

/-- L-type instructions with E clear (Table 4.9): registers, stores, and their frame. -/
def Obligations.LaneLoadsStoresPointers : Prop :=
  (∀ (s : State) (l : Fin 16) (c : OpCtx) (op : LsOp) (f : LFields), laneReady s l c (.ls op f) → f.e = false →
    laneLeaves (.ls op f) s l
      (lsStore op f c (laneBank s.mod l) (cellTarget s.mod c true (busAddr ((laneBank s.mod l).pr f.p.val) f.off.val))
        ((s.mod.lane l).start + (s.mod.lane l).count + 4))
      (lsAfter op f s.mod c (laneBank s.mod l))) ∧
  (∀ (s : State) (l : Fin 16) (c : OpCtx) (add : Bool) (f : PFields), laneReady s l c (.ptr add f) → f.e = false →
    laneLeaves (.ptr add f) s l id
      ((laneBank s.mod l).setP f.p.val (if add then (laneBank s.mod l).pr f.p.val + f.imm else f.imm)))

/-- B, RPT, RPTB and NOP (R127 to R129, Table 4.10). -/
def Obligations.LaneControlFlow : Prop :=
  ∀ (s : State) (l : Fin 16) (c : OpCtx), (s.mod.lane l).count + 1 < c.budget → (s.mod.lane l).target = none →
    (∀ k t, laneReady s l c (.b k t) → laneLeaves (.b k t) s l id (laneBank s.mod l) ∧
      completes (.basaltB l k t) s fun m => (m.lane l).pc = (s.mod.lane l).pc + 1 ∧ (m.lane l).delay = 2 ∧ (m.lane l).count = (s.mod.lane l).count + 1 ∧
        ((laneCycles l 2 m).lane l).target = (if k.holds (laneBank s.mod l).flags then some t.toNat else none)) ∧
    (∀ n s1 s2, laneReady s l c (.rpt n s1 s2) → laneLeaves (.rpt n s1 s2) s l id (laneBank s.mod l) ∧
      completes (.basaltRpt l n s1 s2) s fun m => (m.lane l).count = (s.mod.lane l).count + 1 ∧ (m.lane l).pc = (s.mod.lane l).pc + 1 ∧
        (m.lane l).rep = some ⟨1, n.val, 0, (s.mod.lane l).pc + 1, (BitVec.ofNat 4 s1.val).toInt * 3, (BitVec.ofNat 6 s2.val).toInt, false⟩) ∧
    (∀ k n s1 s2, laneReady s l c (.rptb k n s1 s2) → laneLeaves (.rptb k n s1 s2) s l id (laneBank s.mod l) ∧
      completes (.basaltRptb l k n s1 s2) s fun m => (m.lane l).count = (s.mod.lane l).count + 1 ∧ (m.lane l).pc = (s.mod.lane l).pc + 1 ∧
        (m.lane l).rep = some ⟨k.val + 1, n.val, 0, (s.mod.lane l).pc + 1, (BitVec.ofNat 4 s1.val).toInt * 3, (BitVec.ofNat 6 s2.val).toInt, false⟩) ∧
    (laneReady s l c .nop → laneLeaves .nop s l id (laneBank s.mod l) ∧
      completes (.basaltNop l) s fun m => (m.lane l).count = (s.mod.lane l).count + 1 ∧ (m.lane l).pc = (s.mod.lane l).pc + 1 ∧
        (m.lane l).delay = 0 ∧ (m.lane l).rep = none)

/-- The result tag of an operation is issued and its instance removed (R133). -/
def Sys2Proof.Machine.tagIssued (c : OpCtx) (m : Module) : Disp := (refreshReady 1 (issueTag c.desc c.epoch (endInst c.desc c.epoch m))).disp

/-- END and the E bit (R133). -/
def Obligations.LaneOperationEnds : Prop :=
  ∀ (s : State) (l : Fin 16) (c : OpCtx) (op : LaneOp), laneReady s l c op → op.ends = true → op.romOnly = false →
    completes (laneInstr l op) s fun m =>
      (m.lane l).op = none ∧ (m.lane l).count = (s.mod.lane l).count + 1 ∧ (m.lane l).abort = none ∧
      (laneCycles l 4 m).disp = tagIssued c (laneCycles l 3 m) ∧
      (op = .stop → ∀ w, ((laneCycles l 4 m).lane l).bank w = (s.mod.lane l).bank w)

/-- The event of Table 4.14, with the epoch of its operation. -/
def Sys2Proof.Machine.laneRecord (m : Module) (code : Nat) (c : OpCtx) (x : Lane) : Event :=
  ⟨c.slot.getD fnKernel, code, notLocked m, m.now, some c.epoch, padTo 28 (leBytes 2 c.kernel ++ leBytes 2 x.pc ++ leBytes 4 x.count)⟩

/-- `m'` is a state in which, besides what waited in `m`, these events were raised and all of them then admitted. -/
def Sys2Proof.Machine.raisedIn (m : Module) (evs : List Event) (m' : Module) : Prop := ∃ x, m' = settle x ∧ x.agate.raised = m.agate.raised ++ evs

/-- Issue counting, budget, abort (R131, R134, R136) and undefined words (R142). -/
def Obligations.LaneBudgetAndAbort : Prop :=
  (∀ (s : State) (l : Fin 16) (c : OpCtx) (op : LaneOp), laneReady s l c op → op.ends = false →
    completes (laneInstr l op) s fun m =>
      (m.lane l).count = (s.mod.lane l).count + (match op with | .alu .sqrt _ => 3 | .alu .tlkp _ => 4 | _ => 1) ∧
      (m.lane l).op = some c ∧ ((m.lane l).abort = some .budget ↔ c.budget ≤ (m.lane l).count)) ∧
  (∀ (s : State) (l : Fin 16) (c : OpCtx), (s.mod.lane l).op = some c → (s.mod.lane l).abort = some .budget → (s.mod.lane l).delay = 0 →
    (s.mod.lane l).rep = none → (s.mod.lane l).pipe = [] →
    completes (.budgetTermination l) s fun m => (m.lane l).op = none ∧ (m.lane l).abort = none ∧
      m.stat Ent.laneBudgetFaults = min (s.mod.stat Ent.laneBudgetFaults + 1) (maxOf Ent.laneBudgetFaults) ∧
      raisedIn s.mod [laneRecord s.mod 0x0401 c (s.mod.lane l)] m ∧ m.pi = s.mod.pi ∧ m.loop.mem = s.mod.loop.mem ∧
      ∃ v, m.disp = (refreshReady 1 (endInst c.desc c.epoch v)).disp ∧ v.disp = s.mod.disp) ∧
  (∀ (s : State) (l : Fin 16) (c : OpCtx), (s.mod.lane l).op = some c → (s.mod.lane l).abort = some .abort → (s.mod.lane l).delay = 0 →
    (s.mod.lane l).rep = none → (s.mod.lane l).pipe = [] →
    completes (.abortTakesEffect l) s fun m => (m.lane l).op = none ∧ (m.lane l).abort = none ∧
      m.stat Ent.laneBudgetFaults = s.mod.stat Ent.laneBudgetFaults ∧ raisedIn s.mod [] m ∧ m.pi = s.mod.pi ∧ m.loop.mem = s.mod.loop.mem ∧
      ∃ v, m.disp = (refreshReady 1 (endInst c.desc c.epoch v)).disp ∧ v.disp = s.mod.disp) ∧
  (∀ (s : State) (l : Fin 16) (op : LaneOp), (op.defined = false ∨ (op.romOnly = true ∧ 0x8000 ≤ (s.mod.lane l).pc)) →
    exec (laneInstr l op) s = .fault .undefinedWord)

/-- LPSUP and LPOUT (R146). -/
def Obligations.LaneSupervisionAndOutput : Prop :=
  (∀ (s : State) (l : Fin 16) (c : OpCtx) (n : Nat) (t : BitVec 16), laneReady s l c (.lpsup t) → c.slot = some n →
    (s.mod.lane l).count + 1 < c.budget → (s.mod.lane l).target = none →
    let b := laneBank s.mod l
    let k := s.mod.runKey n c.epoch
    let o := supervise s.mod n (s.mod.slotRun k) b
    laneLeaves (.lpsup t) s l (supMem n k o)
      { (((((b.setX 9 o.sup.e).setX 10 o.sup.dm).setX 11 o.x11).setX 6 o.spEff).setT 6 0x800).setX 2 o.sup.ff with sup := some o.sup } ∧
    completes (.lpsup l t) s fun m => (m.lane l).pc = (s.mod.lane l).pc + 1 ∧ (m.lane l).delay = 2 ∧
      ((laneCycles l 3 m).lane l).target = (if o.sup.path = 0 then none else some t.toNat)) ∧
  (∀ (s : State) (l : Fin 16) (c : OpCtx) (n : Nat) (x : Sup), laneReady s l c (.lpout false) → c.slot = some n →
    (laneBank s.mod l).sup = some x →
    let o := outCompute s.mod n x (laneBank s.mod l)
    let k := s.mod.runKey n c.epoch
    laneLeaves (.lpout false) s l (supOut s.mod c n ((s.mod.lane l).start + (s.mod.lane l).count + 4) (laneBank s.mod l)) (laneBank s.mod l) ∧
    completes (.lpout l false) s fun m =>
      ((laneCycles l 4 m).slotRun k).staged =
        some (mkWord (if x.subst then 0x10 else 0x80) c.group (parityOf c.group c.epoch) (BitVec.ofInt 20 o.o)) ∧
      ((laneCycles l 4 m).slotRun k).finish = some ((s.mod.lane l).start + (s.mod.lane l).count + 4) ∧
      (0x19A, 3, valueCode o.o) ∈ ((laneCycles l 4 m).slotRun k).status)

/-- Mode resolution (R98), setpoint (R89, R90) and limits (R92). -/
def Obligations.LoopModeSetpointAndLimits : Prop :=
  (∀ (lat req : Nat) (casInit innerCas : Bool),
    ((bit lat 1 = true ∨ bit lat 3 = true) → resolveMode lat req casInit innerCas = 4) ∧
    (bit lat 1 = false → bit lat 3 = false → (bit lat 0 = true ∨ bit lat 2 = true ∨ bit lat 4 = true) →
      resolveMode lat req casInit innerCas = 0) ∧
    (bit lat 0 = false → bit lat 1 = false → bit lat 2 = false → bit lat 3 = false → bit lat 4 = false →
      (bit lat 5 = true → req = 2 → resolveMode lat req casInit innerCas = 1) ∧
      (bit lat 5 = false → casInit = true → innerCas = false → (req = 1 ∨ req = 2) → resolveMode lat req casInit innerCas = 3) ∧
      ((casInit = false ∨ innerCas = true) → (bit lat 5 = false ∨ req ≠ 2) → resolveMode lat req casInit innerCas = req))) ∧
  (∀ (pvTrack : Bool) (local_ cas pv prev lo hi ramp : Int), lo ≤ hi →
    effSetpoint 2 pvTrack local_ cas pv prev lo hi ramp = max lo (min cas hi) ∧
    effSetpoint 1 pvTrack local_ cas pv prev lo hi 0 = max lo (min local_ hi) ∧
    (0 < ramp → (effSetpoint 1 pvTrack local_ cas pv prev lo hi ramp - prev).natAbs ≤ ramp.natAbs ∧
      (lo ≤ prev → prev ≤ hi → lo ≤ effSetpoint 1 pvTrack local_ cas pv prev lo hi ramp ∧
        effSetpoint 1 pvTrack local_ cas pv prev lo hi ramp ≤ hi)) ∧
    effSetpoint 0 true local_ cas pv prev lo hi ramp = pv) ∧
  (∀ (un oPrev rate lo hi : Int), lo ≤ hi → lo ≤ limitOut un oPrev rate lo hi ∧ limitOut un oPrev rate lo hi ≤ hi ∧
    (0 < rate → lo ≤ oPrev → oPrev ≤ hi → (limitOut un oPrev rate lo hi - oPrev).natAbs ≤ rate.natAbs) ∧
    (rate ≤ 0 → limitOut un oPrev rate lo hi = max lo (min un hi)))

/-! ### The dispatcher (R157 to R166) -/

/-- Instructions past F have completed on every lane that runs no operation. -/
def Sys2Proof.Machine.idleLanesEmpty (m : Module) : Prop := ∀ l, l < 16 → (m.lane l).op = none → (m.lane l).pipe = []

/-- The consumers a tag addresses: the MASK bits that are set, over the first 16 consumers of its producer (R158, R159). -/
def Sys2Proof.Machine.addressedBy (m : Module) (p : Nat) (t : BitVec 64) : List Nat :=
  (((consumers m p).take 16).zipIdx.filter fun c => bit t.toNat (16 + c.2)).map fun c => c.1.1

/-- An instance of descriptor `c` that takes a tag: waiting, and of the tag's EPOCH field (R159). -/
def Sys2Proof.Machine.takesTag (t : BitVec 64) (c : Nat) (i : Inst) : Bool := i.desc == c && i.st == .waiting && i.epoch % 8192 == bits t.toNat 44 32

/-- A counter after `n` counts (R518). -/
def Sys2Proof.Machine.countedBy (n : Nat) (key : Nat) (m : Module) : Nat := if n = 0 then m.stat key else min (m.stat key + n) (maxOf key)

/-- TAG_ACCEPT (R157 to R160). -/
def Obligations.TagTakenByAddressedInstances : Prop :=
  ∀ (s : State) (p : Nat) (t : BitVec 64), idleLanesEmpty s.mod →
    completes (.tagAccept p t) s fun m => m.pi = s.mod.pi ∧ m.loop = s.mod.loop ∧ m.lanes = s.mod.lanes ∧
      ((∀ x, s.mod.desc p = some x → tagMatches p x t = false) →
        m.disp = { s.mod.disp with tags := s.mod.disp.tags.erase (p, t) } ∧ m.stat Ent.dispTagsDiscarded = countedBy 1 Ent.dispTagsDiscarded s.mod) ∧
      (∀ x, s.mod.desc p = some x → tagMatches p x t = true →
        (∃ v, m.disp = (refreshReady 1 v).disp ∧
          v.disp = { s.mod.disp with
            tags := s.mod.disp.tags.erase (p, t),
            insts := s.mod.disp.insts.map fun i =>
              { i with got := i.got ++ List.replicate (((addressedBy s.mod p t).filter fun c => takesTag t c i).length) p } }) ∧
        m.stat Ent.dispTagsDiscarded =
          countedBy ((addressedBy s.mod p t).filter fun c => !s.mod.disp.insts.any (takesTag t c)).length Ent.dispTagsDiscarded s.mod)

/-- The register bank an operation enters (R115, R132): all registers 0, p1 at the slot's active coefficient set, p2 at 180h, p3 the descriptor's ARG. -/
def Sys2Proof.Machine.enteredBank (m : Module) (c : OpCtx) : RegBank :=
  let p1 : Nat := match c.slot with | some n => (if (m.memB n 0x4B).toNat % 2 = 0 then 0x060 else 0x0F0) | none => 0x060
  ((RegBank.clear.setP 1 (BitVec.ofNat 16 p1)).setP 2 0x180).setP 3 (BitVec.ofNat 16 c.arg)

/-- PREFETCH_POP and OPERATION_ISSUE (R115, R132, R164 to R166). -/
def Obligations.PopAndIssue : Prop :=
  (∀ (s : State) (l : Fin 16) (cycle : Nat), (s.mod.lane l).prefetch = none → s.mod.active fnEngine = true →
    ∀ i c, popChoice (toCycle cycle s.mod) l = some i → opOf s.mod i = some c →
    completes (.prefetchPop l cycle) s fun m =>
      (m.lane l).prefetch = some c ∧ (∀ k : Nat, k ≠ l → m.lane k = s.mod.lane k) ∧
      m.stat Ent.dispPops = countedBy 1 Ent.dispPops s.mod ∧ m.pi = s.mod.pi ∧ m.loop = s.mod.loop ∧
      m.disp.insts = s.mod.disp.insts.map (fun j => if j.desc == i.desc && j.epoch == i.epoch then
        { j with st := .prefetched, popAt := (toCycle cycle s.mod).absCycle } else j) ∧
      ((∃ j ∈ s.mod.disp.insts, j.st = .ready) → i.st = .ready ∧ ∀ j ∈ s.mod.disp.insts, j.st = .ready → i.deadline ≤ j.deadline)) ∧
  (∀ (s : State) (l : Fin 16) (cycle : Nat), ((s.mod.lane l).prefetch ≠ none ∨ ∀ j ∈ s.mod.disp.insts, j.st ≠ .ready ∧ j.st ≠ .late) →
    completes (.prefetchPop l cycle) s fun m => m.disp = s.mod.disp ∧ m.lanes = s.mod.lanes ∧ m.pi = s.mod.pi ∧ m.loop = s.mod.loop) ∧
  (∀ (s : State) (l : Fin 16) (cycle : Nat) (c : OpCtx), (s.mod.lane l).op = none → (s.mod.lane l).halted = false →
    (s.mod.lane l).prefetch = some c →
    completes (.operationIssue l cycle) s fun m =>
      (m.lane l).op = some c ∧ (m.lane l).prefetch = none ∧ (m.lane l).count = 0 ∧ (m.lane l).cur = (!(s.mod.lane l).cur) ∧
      laneBank m l = enteredBank s.mod c ∧ (m.lane l).bank (s.mod.lane l).cur = (s.mod.lane l).bank (s.mod.lane l).cur ∧
      (m.lane l).pc = (if c.kernel = 0 then 0 else 0x8000 + kimgOffset s.mod.kimg c.kernel) ∧
      (∀ k : Nat, k ≠ l → m.lane k = s.mod.lane k) ∧ m.pi = s.mod.pi ∧ m.loop.mem = s.mod.loop.mem ∧
      m.disp.insts = s.mod.disp.insts.map (fun j => if j.desc == c.desc && j.epoch == c.epoch then { j with st := .running } else j) ∧
      m.stat Ent.dispMigrations = (if c.slot.any (fun n => n % 16 == l.val) then s.mod.stat Ent.dispMigrations else countedBy 1 Ent.dispMigrations s.mod))

/-! ### Flint (R206 to R241) -/

/-- The command of a Flint instruction. -/
def Sys2Proof.Machine.flintInstr : FlintOp → Instr
  | .bit .ld n x => .flintLd n x
  | .bit .and n x => .flintAnd n x
  | .bit .or n x => .flintOr n x
  | .bit .xor n x => .flintXor n x
  | .bit .st n x => .flintSt n x
  | .bit .set _ x => .flintSet x
  | .bit .rst _ x => .flintRst x
  | .bit .andb n x => .flintAndb n x
  | .bit .orb n x => .flintOrb n x
  | .bit .xorb n x => .flintXorb n x
  | .pop => .flintPop
  | .not => .flintNot
  | .cmp .gt g f w c => .flintCgt g f w c
  | .cmp .lt g f w c => .flintClt g f w c
  | .cmp .ge g f w c => .flintCge g f w c
  | .cmp .le g f w c => .flintCle g f w c
  | .cmp .eq g f w c => .flintCeq g f w c
  | .cmp .ne g f w c => .flintCne g f w c
  | .movk f c => .flintMovk f c
  | .movi f w => .flintMovi f w
  | .timer k t => if k = 0 then .flintTon t else if k = 1 then .flintTof t else .flintTp t
  | .counter k c => if k = 0 then .flintCtu c else if k = 1 then .flintCtd c else .flintRstc c
  | .edge false e => .flintEdgr e
  | .edge true e => .flintEdgf e
  | .jmp k t => if k = 0 then .flintJmp t else if k = 1 then .flintJmpc t else .flintJmpn t
  | .nop => .flintNop
  | .fend => .flintEnd

/-- Task `k` is the task that executes, and the word at its address is `op`. -/
def Sys2Proof.Machine.flintReady (s : State) (k : Nat) (op : FlintOp) : Prop :=
  s.mod.fcurrent = some k ∧ (s.mod.ftask k).pc < s.mod.flint.img.code.length ∧
    flintDecode (s.mod.flint.img.code.getD (s.mod.ftask k).pc 0) = some op

/-- Cycles that an instruction of task `k` takes: 2 for a taken jump, 1 for any other, and 4 for a switch from another task (R208). -/
def Sys2Proof.Machine.flintCost (m : Module) (k : Nat) (taken : Bool) : Nat :=
  (if taken then 2 else 1) + (match m.flint.running with | some j => if j = k then 0 else 4 | none => 0)

/-- A task whose cycle is under way has waited `n` more cycles. -/
def Sys2Proof.Machine.waited (n : Nat) (t : FlintTask) : FlintTask := if t.active && !t.ended then { t with spent := t.spent + n } else t

/-- The other tasks wait `n` cycles; beyond the tasks and Flint's data the module is as it was. -/
def Sys2Proof.Machine.flintFrame (s : State) (k n : Nat) (m : Module) : Prop :=
  (∀ j, j ≠ k → m.ftask j = if j < 8 then waited n (s.mod.ftask j) else s.mod.ftask j) ∧
    m = { s.mod with flint := { s.mod.flint with tasks := m.flint.tasks, data := m.flint.data, running := some k } }

/-- ACC after a logic, stack, compare or edge instruction (Table 7.4); `x` the operand after N. -/
def Sys2Proof.Machine.flintAccTable (m : Module) (k : Nat) (op : FlintOp) : Bool :=
  let t := m.ftask k
  match op with
  | .bit .ld n x | .bit .andb n x | .bit .orb n x | .bit .xorb n x => flintRead m k x != n
  | .bit .and n x => t.acc && (flintRead m k x != n)
  | .bit .or n x => t.acc || (flintRead m k x != n)
  | .bit .xor n x => t.acc != (flintRead m k x != n)
  | .not => !t.acc
  | .pop => match t.stack with
    | (s, .and) :: _ => s && t.acc
    | (s, .or) :: _ => s || t.acc
    | (s, .xor) :: _ => s != t.acc
    | [] => t.acc
  | .cmp c g flagWord w x =>
    let word := t.image.getD w.val 0
    let v : Int := if flagWord then (t.flag w.val).toInt else (BitVec.extractLsb' 0 20 word).toInt
    let q : Int := (m.flint.img.consts.getD x.val 0).toInt
    let rel := match c with
      | .gt => decide (q < v) | .lt => decide (v < q) | .ge => decide (q ≤ v) | .le => decide (v ≤ q) | .eq => decide (v = q) | .ne => decide (v ≠ q)
    t.acc && rel && (flagWord || !g || word.getLsbD 31)
  | .edge false e => t.acc && !m.flint.data.edge e.val
  | .edge true e => !t.acc && m.flint.data.edge e.val
  | _ => t.acc

/-- The branch stack after an instruction (Table 7.4). -/
def Sys2Proof.Machine.flintStackTable (t : FlintTask) : FlintOp → List (Bool × FStackOp)
  | .bit .andb _ _ => (t.acc, .and) :: t.stack
  | .bit .orb _ _ => (t.acc, .or) :: t.stack
  | .bit .xorb _ _ => (t.acc, .xor) :: t.stack
  | .pop => t.stack.tail
  | _ => t.stack

/-- LD, AND, OR, XOR, ANDB, ORB, XORB, POP, NOT, the compares, EDGR and EDGF. -/
def Sys2Proof.Machine.FlintOp.logic : FlintOp → Bool
  | .bit .st _ _ | .bit .set _ _ | .bit .rst _ _ => false
  | .bit _ _ _ | .pop | .not | .cmp _ _ _ _ _ | .edge _ _ => true
  | _ => false

/-- Flint's logic (Table 7.4). -/
def Obligations.FlintLogic : Prop :=
  ∀ (s : State) (k : Nat) (op : FlintOp), flintReady s k op → op.logic = true → (op = .pop → (s.mod.ftask k).stack ≠ []) →
    completes (flintInstr op) s fun m =>
      flintFrame s k (flintCost s.mod k false) m ∧
      m.ftask k = { s.mod.ftask k with
        acc := flintAccTable s.mod k op, stack := flintStackTable (s.mod.ftask k) op, pc := (s.mod.ftask k).pc + 1,
        spent := (s.mod.ftask k).spent + flintCost s.mod k false } ∧
      (∀ i, m.flint.data.edge i = match op with
        | .edge _ e => if i = e.val then (s.mod.ftask k).acc else s.mod.flint.data.edge i
        | _ => s.mod.flint.data.edge i) ∧
      m.flint.data = { s.mod.flint.data with edges := m.flint.data.edges }

/-- What ST, SET and RST write into their operand: none where they leave it (Table 7.4). -/
def Sys2Proof.Machine.flintStored (acc : Bool) : FlintOp → Option (FOperand × Bool)
  | .bit .st n x => some (x, acc != n)
  | .bit .set _ x => if acc then some (x, true) else none
  | .bit .rst _ x => if acc then some (x, false) else none
  | _ => none

/-- What MOVK and MOVI put into a flag word: none where ACC is 0 (Table 7.4). -/
def Sys2Proof.Machine.flintMoved (m : Module) (k : Nat) : FlintOp → Option (Nat × Q)
  | .movk f c => if (m.ftask k).acc then some (f.val, m.flint.img.consts.getD c.val 0) else none
  | .movi f w => if (m.ftask k).acc then some (f.val, BitVec.extractLsb' 0 20 ((m.ftask k).image.getD w.val 0)) else none
  | _ => none

/-- ST, SET, RST, MOVK and MOVI. -/
def Sys2Proof.Machine.FlintOp.stores : FlintOp → Bool
  | .bit .st _ _ | .bit .set _ _ | .bit .rst _ _ | .movk _ _ | .movi _ _ => true
  | _ => false

/-- Flint's stores (Tables 7.2 and 7.4). -/
def Obligations.FlintStores : Prop :=
  ∀ (s : State) (k : Nat) (op : FlintOp), flintReady s k op → op.stores = true →
    completes (flintInstr op) s fun m =>
      flintFrame s k (flintCost s.mod k false) m ∧
      m.ftask k = { s.mod.ftask k with
        permits := (m.ftask k).permits, flags := (m.ftask k).flags, pc := (s.mod.ftask k).pc + 1,
        spent := (s.mod.ftask k).spent + flintCost s.mod k false } ∧
      m.flint.data = { s.mod.flint.data with markers := m.flint.data.markers } ∧
      (flintMoved s.mod k op = none → ∀ (j : Nat) (y : FOperand), y.ok = true → flintRead m j y =
        match flintStored (s.mod.ftask k).acc op with
        | some (x, v) => if y = x ∧ (j = k ∨ y.space = 2) then v else flintRead s.mod j y
        | none => flintRead s.mod j y) ∧
      (∀ f q, flintMoved s.mod k op = some (f, q) →
        (m.ftask k).permits = (s.mod.ftask k).permits ∧ m.flint.data = s.mod.flint.data ∧
          ∀ g, (m.ftask k).flag g = if g = f then q else (s.mod.ftask k).flag g)

/-- Flint's data but for one timer; but for one counter. -/
def Sys2Proof.Machine.onlyTimer (t : Nat) (d d' : FData) : Prop :=
  d' = { d with timers := d'.timers } ∧ ∀ u, u ≠ t → Sparse.get (fun _ => FTimer.init) d'.timers u = Sparse.get (fun _ => FTimer.init) d.timers u
def Sys2Proof.Machine.onlyCounter (c : Nat) (d d' : FData) : Prop :=
  d' = { d with counters := d'.counters } ∧ ∀ u, u ≠ c → Sparse.get (fun _ => FCounter.init) d'.counters u = Sparse.get (fun _ => FCounter.init) d.counters u

/-- The rows of R224's table: kind 0 TON, 1 TOF, 2 TP; from the timer `a` with input `acc` at the epoch `e` of the cycle's release tick to the timer `b`. -/
def Sys2Proof.Machine.timerRow (kind preset e : Nat) (acc : Bool) (a b : FTimer) : Prop :=
  let elapsed := fun (start : Int) => (preset : Int) ≤ (e : Int) - start
  b.prev = acc ∧
  (kind = 0 → acc = true → b.running = true ∧ b.start = (if a.running then a.start else (e : Int)) ∧ (b.q = true ↔ elapsed b.start)) ∧
  (kind = 0 → acc = false → b.running = false ∧ b.q = false) ∧
  (kind = 1 → acc = true → b.running = false ∧ b.q = true) ∧
  (kind = 1 → acc = false →
    let run := a.running || a.q
    let start := if a.running then a.start else if a.q then (e : Int) else a.start
    (run = true ∧ elapsed start → b.q = false ∧ b.running = false) ∧
    (¬ (run = true ∧ elapsed start) → b.q = a.q ∧ b.running = run ∧ b.start = start)) ∧
  (kind = 2 →
    let begin_ := acc && !a.running && !a.prev
    let run := a.running || begin_
    let start := if begin_ then (e : Int) else a.start
    (run = true ∧ elapsed start → b.q = false ∧ b.running = false) ∧
    (¬ (run = true ∧ elapsed start) → b.q = (begin_ || a.q) ∧ b.running = run ∧ b.start = start))

/-- The timer instructions (R224). -/
def Obligations.FlintTimers : Prop :=
  ∀ (s : State) (k : Nat) (kind : Fin 3) (t : Fin 512), flintReady s k (.timer kind t) →
    completes (flintInstr (.timer kind t)) s fun m =>
      flintFrame s k (flintCost s.mod k false) m ∧ onlyTimer t.val s.mod.flint.data m.flint.data ∧
      timerRow kind.val (s.mod.flint.img.tpre.getD t.val 0) (s.mod.ftask k).epoch (s.mod.ftask k).acc (s.mod.ftimer t.val) (m.ftimer t.val) ∧
      m.ftask k = { s.mod.ftask k with
        acc := (m.ftimer t.val).q, pc := (s.mod.ftask k).pc + 1, spent := (s.mod.ftask k).spent + flintCost s.mod k false }

/-- The counter instructions (R225). -/
def Obligations.FlintCounters : Prop :=
  ∀ (s : State) (k : Nat) (kind : Fin 3) (c : Fin 256), flintReady s k (.counter kind c) → (s.mod.fcounter c.val).cv < 2 ^ 32 →
    completes (flintInstr (.counter kind c)) s fun m =>
      let a := s.mod.fcounter c.val
      let b := m.fcounter c.val
      let acc := (s.mod.ftask k).acc
      let pv := s.mod.flint.img.cpre.getD c.val 0
      let rising := acc && !a.prev
      flintFrame s k (flintCost s.mod k false) m ∧ onlyCounter c.val s.mod.flint.data m.flint.data ∧
      (kind = 0 → b.cv = (if rising ∧ a.cv ≠ 0xFFFFFFFF then a.cv + 1 else a.cv) ∧ b.prev = acc ∧ (b.q = true ↔ pv ≤ b.cv)) ∧
      (kind = 1 → b.cv = (if rising ∧ a.cv ≠ 0 then a.cv - 1 else a.cv) ∧ b.prev = acc ∧ (b.q = true ↔ b.cv = 0)) ∧
      (kind = 2 → b = { a with cv := if acc then (if isDown s.mod.flint.img c.val then pv else 0) else a.cv }) ∧
      m.ftask k = { s.mod.ftask k with
        acc := if kind = 2 then acc else b.q, pc := (s.mod.ftask k).pc + 1, spent := (s.mod.ftask k).spent + flintCost s.mod k false }

/-- The jump is taken: JMP always, JMPC with ACC 1, JMPN with ACC 0 (Table 7.4). -/
def Sys2Proof.Machine.flintJumps (acc : Bool) : FlintOp → Option Nat
  | .jmp k x => if k = 0 ∨ (k = 1 ∧ acc = true) ∨ (k = 2 ∧ acc = false) then some x.val else none
  | _ => none

/-- No other task's cycle is under way. -/
def Sys2Proof.Machine.noOtherCycle (m : Module) (k : Nat) : Prop := ∀ j, j < 8 → j ≠ k → (m.ftask j).active = true → (m.ftask j).ended = true

/-- Jumps, NOP and END. -/
def Obligations.FlintJumpsAndEnd : Prop :=
  (∀ (s : State) (k : Nat) (op : FlintOp), flintReady s k op → (op = .nop ∨ ∃ j t, op = .jmp j t) →
    completes (flintInstr op) s fun m =>
      flintFrame s k (flintCost s.mod k (flintJumps (s.mod.ftask k).acc op).isSome) m ∧ m.flint.data = s.mod.flint.data ∧
      m.ftask k = { s.mod.ftask k with
        pc := (flintJumps (s.mod.ftask k).acc op).getD ((s.mod.ftask k).pc + 1),
        spent := (s.mod.ftask k).spent + flintCost s.mod k (flintJumps (s.mod.ftask k).acc op).isSome }) ∧
  (∀ (s : State) (k : Nat), flintReady s k .fend →
    completes .flintEnd s fun m =>
      let spent := (s.mod.ftask k).spent + flintCost s.mod k false
      (∀ j, j ≠ k → m.ftask j = if j < 8 then waited (flintCost s.mod k false) (s.mod.ftask j) else s.mod.ftask j) ∧
      m.ftask k = { s.mod.ftask k with ended := true, pc := (s.mod.ftask k).pc + 1, spent := spent } ∧
      (noOtherCycle s.mod k → m.flint.running = none ∧ m.fcurrent = none) ∧ (¬ noOtherCycle s.mod k → m.flint.running = some k) ∧
      m.stat (Ent.flintTaskLastExec k) = min spent (2 ^ 32 - 1) ∧
      m.stat (Ent.flintTaskMaxExec k) = max (s.mod.stat (Ent.flintTaskMaxExec k)) (min spent (2 ^ 32 - 1)) ∧
      m.stat (Ent.flintTaskCycles k) = countedBy 1 (Ent.flintTaskCycles k) s.mod ∧
      (∀ key, key ≠ Ent.flintTaskLastExec k → key ≠ Ent.flintTaskMaxExec k → key ≠ Ent.flintTaskCycles k → m.stat key = s.mod.stat key) ∧
      m = { s.mod with
        flint := { s.mod.flint with tasks := m.flint.tasks, running := m.flint.running }, dict := { s.mod.dict with stat := m.dict.stat } })

/-- `m` is the module `v` in which, besides what waited in it, these events were raised and all of them then admitted. -/
def Sys2Proof.Machine.after (evs : List Event) (v m : Module) : Prop :=
  m = settle { v with agate := { v.agate with raised := v.agate.raised ++ evs } }

/-- A hardware event of a source, stamped now. -/
def Sys2Proof.Machine.eventNow (m : Module) (source code : Nat) (body : List Byte) : Event :=
  ⟨source, code, notLocked m, m.now, m.tick.epoch, padTo 28 body⟩

/-- A module of no pair. -/
def Sys2Proof.Machine.solo (m : Module) : Prop := m.red.st = 0

/-- Flint runs in epoch `e`, no change waits for its switch, and of the tasks only `k` can have work at this release: the others have no cycle under way, stop nothing, and are within their tolerance. -/
def Sys2Proof.Machine.flintTurn (m : Module) (e k : Nat) : Prop :=
  solo m ∧ m.tick.epoch = some e ∧ m.tick.cycle ≤ 399 ∧ m.running fnFlint = true ∧ m.flint.change ≠ .pending ∧ k < 8 ∧
    m.running (fnTask k) = true ∧ releaseTick m k e = true ∧ (m.ftask k).active = true ∧
    ∀ j, j < 8 → j ≠ k → (m.ftask j).active = false ∧ (m.fn (fnTask j)).st ≠ .stopping ∧ m.stat (Ent.flintTaskOverrunConsec j) ≤ (m.ftcfg j).tol

/-- Event 0708h of a permit that changes (R241): index, word address, new value. -/
def Sys2Proof.Machine.permitEvent (m : Module) (source q : Nat) (v : Bool) : Event :=
  eventNow m source 0x0708 (leBytes 2 q ++ leBytes 4 (match m.flint.img.ovr[q]? with | some o => o.addr | none => 0) ++ leBytes 1 (b01 v) ++ leBytes 4 0)

/-- Events 0708h for the permits of a list that a function of permits changes, each once. -/
def Sys2Proof.Machine.permitEvents (m : Module) (source : Nat) (qs : List Nat) (v : Nat → Bool) : List Event :=
  (qs.filter fun q => m.permit q != v q).map fun q => permitEvent m source q (v q)

/-- FLINT_RELEASE (R211). -/
def Obligations.FlintReleases : Prop :=
  (∀ (s : State) (e k : Nat), idleLanesEmpty s.mod → flintTurn s.mod e k → (s.mod.ftask k).ended = true → s.mod.stat (Ent.flintTaskFault k) = 0 →
    s.mod.stat (Ent.flintTaskOverrunConsec k) ≤ (s.mod.ftcfg k).tol →
    completes .flintRelease s fun m =>
      (∀ q, m.permit q = if q ∈ taskPermits s.mod.flint.img k then Sparse.get (fun _ => false) (s.mod.ftask k).permits q else s.mod.permit q) ∧
      (∀ f, m.flagVal f = if f ∈ taskFlags s.mod.flint.img k then (s.mod.ftask k).flag f else s.mod.flagVal f) ∧
      raisedIn s.mod (permitEvents (toCycle 399 s.mod) (fnTask k) (taskPermits s.mod.flint.img k) fun q => Sparse.get (fun _ => false) (s.mod.ftask k).permits q) m ∧
      (let late := decide ((s.mod.ftask k).epoch + (s.mod.ftcfg k).period < e)
       m.ftask k = { s.mod.ftask k with active := false, ended := false, released := true, late := late, first := false, switched := false } ∧
       m.stat (Ent.flintTaskOverrunConsec k) = if late then s.mod.stat (Ent.flintTaskOverrunConsec k) else 0) ∧
      m.stat (Ent.flintTaskLastRelease k) = e ∧ (∃ d, JItem.flint d s.mod.flint.img.pid ∈ m.nv.journal ∧ d.counters = s.mod.flint.data.counters ∧ d.edges = s.mod.flint.data.edges) ∧
      m.pi = s.mod.pi ∧ m.loop = s.mod.loop ∧ m.lanes = s.mod.lanes ∧ m.funcs = s.mod.funcs ∧ m.flint.data = s.mod.flint.data ∧ m.tick.cycle = 399) ∧
  (∀ (s : State) (e k : Nat), idleLanesEmpty s.mod → flintTurn s.mod e k → (s.mod.ftask k).ended = false →
    s.mod.stat (Ent.flintTaskOverrunConsec k) < (s.mod.ftcfg k).tol → (s.mod.ftcfg k).tol ≤ 15 →
    ((s.mod.ftcfg k).bound = 0 ∨ e - ((s.mod.ftask k).epoch + (s.mod.ftcfg k).period) ≤ (s.mod.ftcfg k).bound) →
    completes .flintRelease s fun m =>
      m.flint = s.mod.flint ∧ m.stat (Ent.flintTaskOverrunConsec k) = s.mod.stat (Ent.flintTaskOverrunConsec k) + 1 ∧
      m.stat (Ent.flintTaskOverruns k) = countedBy 1 (Ent.flintTaskOverruns k) s.mod ∧
      raisedIn s.mod [eventNow (toCycle 399 s.mod) (fnTask k) 0x0701
        (leBytes 2 0 ++ leBytes 4 0 ++ leBytes 1 0 ++ leBytes 4 (s.mod.stat (Ent.flintTaskOverrunConsec k) + 1))] m ∧
      m.pi = s.mod.pi ∧ m.loop = s.mod.loop ∧ m.lanes = s.mod.lanes ∧ m.funcs = s.mod.funcs ∧ m.nv = s.mod.nv ∧ m.tick.cycle = 399)

/-- FLINT_TASK_FAULT (R228, R229) and SWITCH_TIMEOUT (R237). -/
def Obligations.FlintFaultAndSwitchTimeout : Prop :=
  (∀ (s : State) (e : Nat) (k : Fin 8), s.mod.tick.epoch = some e → s.mod.standby = false → s.mod.active (fnTask k) = true →
    s.mod.stat (Ent.flintTaskFault k) = 0 →
    (let counted := decide ((s.mod.ftcfg k).tol < s.mod.stat (Ent.flintTaskOverrunConsec k))
     let late := decide ((s.mod.ftcfg k).bound ≠ 0 ∧ (s.mod.ftask k).active = true ∧ (s.mod.ftask k).ended = false ∧
       (s.mod.ftask k).epoch + (s.mod.ftcfg k).period + (s.mod.ftcfg k).bound < e)
     ((counted || late) = true → completes (.flintTaskFault k) s fun m =>
        (∀ q, m.permit q = if q ∈ taskPermits s.mod.flint.img k then false else s.mod.permit q) ∧
        m.flint = { s.mod.flint with permits := m.flint.permits, staleFlags := s.mod.flint.staleFlags ++ taskFlags s.mod.flint.img k } ∧
        m.stat (Ent.flintTaskFault k) = 1 ∧ m.stat (Ent.flintTaskFaults k) = countedBy 1 (Ent.flintTaskFaults k) s.mod ∧
        raisedIn s.mod (permitEvents s.mod fnFlint (taskPermits s.mod.flint.img k) (fun _ => false) ++
          [eventNow s.mod (fnTask k) 0x0702
            (leBytes 2 0 ++ leBytes 4 0 ++ leBytes 1 (if counted then 1 else 2) ++ leBytes 4 (s.mod.stat (Ent.flintTaskOverrunConsec k)))]) m ∧
        m.pi = s.mod.pi ∧ m.loop = s.mod.loop ∧ m.lanes = s.mod.lanes ∧ m.funcs = s.mod.funcs ∧ m.tick = s.mod.tick ∧ m.nv = s.mod.nv) ∧
     ((counted || late) = false → completes (.flintTaskFault k) s fun m => after [] s.mod m))) ∧
  (∀ (s : State) (e : Nat), s.mod.tick.epoch = some e →
    ((s.mod.flint.change = .pending ∧ s.mod.flint.switchAt + s.mod.cfg Ent.flintSwitchTimeout ≤ e) → completes .switchTimeout s fun m =>
      m.flint = { s.mod.flint with change := .loaded } ∧ m.stat Ent.flintChangeState = 1 ∧
      after [eventNow s.mod fnFlint 0x0705 (leBytes 2 0 ++ leBytes 4 0 ++ leBytes 1 1 ++ leBytes 4 0)]
        ({ s.mod with flint := { s.mod.flint with change := .loaded } }.setStat Ent.flintChangeState 1) m) ∧
    (¬ (s.mod.flint.change = .pending ∧ s.mod.flint.switchAt + s.mod.cfg Ent.flintSwitchTimeout ≤ e) →
      completes .switchTimeout s fun m => after [] s.mod m))

/-! ### Requests and writes of hosts (R45, R66 to R80, R521, R522) -/

/-- The request that a request row or a row that is a write of one entry stands for. -/
def Sys2Proof.Machine.rowRequest : Instr → Option Req
  | .read r | .write r | .readBlock r | .writeBlock r | .start r | .stop r | .save r | .subscribe r | .close r
  | .domWriteInit r | .domWriteSeg r | .domWriteEnd r | .domReadInit r | .domReadSeg r | .domReadEnd r
  | .exportInit r | .exportSeg r | .exportEnd r => some r
  | .expectedCrcWrite f fn crc => some (hostReq f (keyOf (0x400 + fn.val) 3) (leBytes 4 crc.toNat))
  | .loopModeRequest f n v => some (hostReq f (keyOf (0x2000 + n.val) 0x60) (leBytes 1 v.toNat))
  | .loopSwap f n => some (hostReq f (keyOf (0x2000 + n.val) 0x63) (leBytes 1 1))
  | .overrunClear f g => some (hostReq f (keyOf (0x2818 + g.val) 5) (leBytes 1 1))
  | .recipeRun f r => some (hostReq f (keyOf (0x2C40 + r.val) 2) (leBytes 1 1))
  | .recipeHold f r => some (hostReq f (keyOf (0x2C40 + r.val) 2) (leBytes 1 2))
  | .recipeResume f r => some (hostReq f (keyOf (0x2C40 + r.val) 2) (leBytes 1 3))
  | .recipeAbort f r => some (hostReq f (keyOf (0x2C40 + r.val) 2) (leBytes 1 4))
  | .recipeContinue f r => some (hostReq f (keyOf (0x2C40 + r.val) 2) (leBytes 1 5))
  | .flintFaultClear f k => some (hostReq f (keyOf (0x3010 + k.val) 0x0B) (leBytes 1 1))
  | .flintSwitch f => some (hostReq f Ent.flintChange (leBytes 1 1))
  | .flintDiscard f => some (hostReq f Ent.flintChange (leBytes 1 2))
  | .forceWrite f i v => some (hostReq f (keyOf (0x3020 + i.val / 32) (1 + i.val % 32)) (leBytes 8 v.toNat))
  | .moveAbs f a x => some (hostReq f (keyOf (0x3130 + a.val) 1) (leBytes 8 (axisWord 1 x)))
  | .moveRel f a x => some (hostReq f (keyOf (0x3130 + a.val) 1) (leBytes 8 (axisWord 2 x)))
  | .jog f a x => some (hostReq f (keyOf (0x3130 + a.val) 1) (leBytes 8 (axisWord 3 x)))
  | .axisStop f a x => some (hostReq f (keyOf (0x3130 + a.val) 1) (leBytes 8 (axisWord 4 x)))
  | .halt f a x => some (hostReq f (keyOf (0x3130 + a.val) 1) (leBytes 8 (axisWord 5 x)))
  | .resume f a x => some (hostReq f (keyOf (0x3130 + a.val) 1) (leBytes 8 (axisWord 6 x)))
  | .home f a x => some (hostReq f (keyOf (0x3130 + a.val) 1) (leBytes 8 (axisWord 7 x)))
  | .setPos f a x => some (hostReq f (keyOf (0x3130 + a.val) 1) (leBytes 8 (axisWord 8 x)))
  | .clearFault f a x => some (hostReq f (keyOf (0x3130 + a.val) 1) (leBytes 8 (axisWord 9 x)))
  | .setVmax f a x => some (hostReq f (keyOf (0x3130 + a.val) 1) (leBytes 8 (axisWord 10 x)))
  | .axisEnable f a x => some (hostReq f (keyOf (0x3130 + a.val) 1) (leBytes 8 (axisWord 11 x)))
  | .setGtarget f a x => some (hostReq f (keyOf (0x3130 + a.val) 1) (leBytes 8 (axisWord 12 x)))
  | .groupGo f a x => some (hostReq f (keyOf (0x3130 + a.val) 1) (leBytes 8 (axisWord 13 x)))
  | .limitClear f a x => some (hostReq f (keyOf (0x3130 + a.val) 1) (leBytes 8 (axisWord 14 x)))
  | .doFaultClear f mask => some (hostReq f Ent.doFaultClear (leBytes 4 mask.toNat))
  | .fbCancel f p o => some (hostReq f (keyOf (0x3800 + p.val) 0x19) (leBytes 1 o.toNat))
  | .fbRecover f p => some (hostReq f (keyOf (0x3800 + p.val) 0x18) (leBytes 1 1))
  | .fbSleep f p => some (hostReq f (keyOf (0x3800 + p.val) 0x17) (leBytes 1 1))
  | .fbWake f p => some (hostReq f (keyOf (0x3800 + p.val) 0x17) (leBytes 1 2))
  | .streamAttach f => some (hostReq f Ent.acqStreamAttach (leBytes 1 1))
  | .windowArm f w => some (hostReq f (keyOf (0x3C40 + w.val) 0x13) (leBytes 1 1))
  | .windowDisarm f w => some (hostReq f (keyOf (0x3C40 + w.val) 0x13) (leBytes 1 2))
  | .windowTrigger f w => some (hostReq f (keyOf (0x3C40 + w.val) 0x13) (leBytes 1 3))
  | .windowRelease f w slot => some (hostReq f (keyOf (0x3C40 + w.val) 0x14) (leBytes 1 slot.toNat))
  | .agateClear f v => some (hostReq f Ent.agateClear (leBytes 4 v.toNat))
  | .agateNote f v => some (hostReq f Ent.agateNote (leBytes 8 v.toNat))
  | .acceptStep f => some (hostReq f Ent.timeAcceptStep (leBytes 1 1))
  | .timeSet f t => some (hostReq f Ent.timeSet (leBytes 10 (t80Wire t)))
  | .redHandover f => some (hostReq f Ent.redHandover (leBytes 1 1))
  | .redDemote f => some (hostReq f Ent.redDemote (leBytes 1 1))
  | .redResync f => some (hostReq f Ent.redResync (leBytes 1 1))
  | .gateEnableWrite f b which v => some (hostReq f (keyOf (0x1020 + b.val) (1 + which.val)) (leBytes 1 (b01 v)))
  | .clockDividerWrite f motion v => some (hostReq f (if motion then Ent.clkMotionDiv else Ent.clkMgmtDiv) (leBytes 1 v.toNat))
  | .deepRequest f => some (hostReq f Ent.pwrStateReq (leBytes 1 2))
  | .commitSv f => some (hostReq f Ent.secCommitSv (leBytes 1 1))
  | .lifecycleRequest f target => some (hostReq f Ent.secLifecycleReq (leBytes 1 target.toNat))
  | .anchorUseWrite f k use => some (hostReq f (keyOf (0x1810 + k.val) 2) (leBytes 1 use.toNat))
  | .debugRequestD0 f => some (hostReq f Ent.dbgRequest (leBytes 1 0))
  | .debugRequestD1 f => some (hostReq f Ent.dbgRequest (leBytes 1 1))
  | _ => none

/-- The row carries its request out: a request row its own opcode and part, a row that writes one entry always. -/
def Sys2Proof.Machine.rowServes : Instr → Bool
  | .read r => r.op == 1
  | .write r => r.op == 2
  | .readBlock r => r.op == 3
  | .writeBlock r => r.op == 4
  | .start r => r.op == 5
  | .stop r => r.op == 6
  | .save r => r.op == 7
  | .subscribe r => r.op == 8
  | .close r => r.op == 15
  | .domWriteInit r => r.op == 2 && bit r.flags 1
  | .domWriteSeg r => r.op == 2 && bit r.flags 2
  | .domWriteEnd r => r.op == 2 && bit r.flags 3
  | .domReadInit r => r.op == 1 && bit r.flags 1
  | .domReadSeg r => r.op == 1 && bit r.flags 2
  | .domReadEnd r => r.op == 1 && bit r.flags 3
  | .exportInit r => r.op == 9 && bit r.flags 1
  | .exportSeg r => r.op == 9 && bit r.flags 2
  | .exportEnd r => r.op == 9 && bit r.flags 3
  | c => (rowRequest c).isSome

/-- A frame that R66 drops: no session of its id, a tag that fails, or a sequence number not above the highest accepted and not an unseen one of the 64 below it. -/
def Sys2Proof.Machine.frameDropped (m : Module) (f : Frame) : Bool :=
  match m.odp.sessions.find? (fun x => x.id == f.session) with
  | none => true
  | some x => !f.tagOk || f.seq == 0 ||
      (decide (f.seq ≤ x.rxHigh) && (decide (f.seq + 64 < x.rxHigh) || f.seq == x.rxHigh || x.rxSeen.contains f.seq))

/-- Frames that R66 drops. -/
def Obligations.BadFramesAreDropped : Prop :=
  ∀ (s : State) (c : Instr) (r : Req), rowRequest c = some r → rowServes c = true → idleLanesEmpty s.mod →
    odpUp s.fuses s.mod (frameLink r.fr s.mod) = true → frameDropped s.mod r.fr = true →
    completes c s fun m => after [] (s.mod.setStat Ent.odpDropped (countedBy 1 Ent.odpDropped s.mod)) m

/-- A new request of session `x` is to be handled here: its frame is accepted, its id is new, fewer than 16 requests are outstanding, no sequence number is at its limit; and the module computes as a pair's holder or alone, is not in recovery, has nothing in flight on idle lanes and no event waiting. -/
def Sys2Proof.Machine.requestFit (s : State) (r : Req) (x : Session) : Prop :=
  odpUp s.fuses s.mod (frameLink r.fr s.mod) = true ∧ idleLanesEmpty s.mod ∧ s.mod.agate.raised = [] ∧ s.mod.holder = true ∧
    s.mod.power.recovery = false ∧ s.mod.odp.sessions.find? (fun y => y.id == r.fr.session) = some x ∧ r.fr.session < 2 ^ 32 ∧
    frameDropped s.mod r.fr = false ∧ r.fr.seq < 2 ^ 48 ∧ x.tx + 1 < 2 ^ 48 ∧ (∀ k ∈ x.kept, k.req.fr.id ≠ r.fr.id) ∧ outstanding x < 16

/-- The same of a module of no pair. -/
def Sys2Proof.Machine.requestNew (s : State) (r : Req) (x : Session) : Prop := requestFit s r x ∧ solo s.mod

/-- The module with the request noted in its session (R66, R69): its sequence number taken, its id kept without a response yet. -/
def Sys2Proof.Machine.noted (r : Req) (x : Session) (m : Module) : Module := keepReq r (modSession x.id (seqTaken r.fr.seq) m)

/-- The response that session `x` gets to its request, kept for repeats; its OPERAND is a free value. -/
def Sys2Proof.Machine.answeredWith (s : State) (r : Req) (st : Nat) (data : List Byte) (m : Module) : Prop :=
  ∃ o out, m.out = out ++ [.resp ⟨r.fr.session, r.fr.id, r.op + 0x80, st, r.index, r.sub, o, data⟩] ∧ s.mod.out <+: out ∧
    ∃ y, m.odp.sessions.find? (fun y => y.id == r.fr.session) = some y ∧
      ⟨r, some ⟨r.fr.session, r.fr.id, r.op + 0x80, st, r.index, r.sub, o, data⟩⟩ ∈ y.kept

/-- Rows whose write waits for the sample instant of the entry's owner (R45), with the entry's key and the value written. -/
def Sys2Proof.Machine.waitingWrite : Instr → Option (Nat × Nat)
  | .loopModeRequest _ n v => some (keyOf (0x2000 + n.val) 0x60, v.toNat)
  | .loopSwap _ n => some (keyOf (0x2000 + n.val) 0x63, 1)
  | .overrunClear _ g => some (keyOf (0x2818 + g.val) 5, 1)
  | .recipeRun _ r => some (keyOf (0x2C40 + r.val) 2, 1)
  | .recipeHold _ r => some (keyOf (0x2C40 + r.val) 2, 2)
  | .recipeResume _ r => some (keyOf (0x2C40 + r.val) 2, 3)
  | .recipeAbort _ r => some (keyOf (0x2C40 + r.val) 2, 4)
  | .recipeContinue _ r => some (keyOf (0x2C40 + r.val) 2, 5)
  | .flintFaultClear _ k => some (keyOf (0x3010 + k.val) 0x0B, 1)
  | .flintSwitch _ => some (Ent.flintChange, 1)
  | .flintDiscard _ => some (Ent.flintChange, 2)
  | .forceWrite _ i v => some (keyOf (0x3020 + i.val / 32) (1 + i.val % 32), v.toNat)
  | .moveAbs _ a x => some (keyOf (0x3130 + a.val) 1, 1 * 2 ^ 32 + x.toNat)
  | .moveRel _ a x => some (keyOf (0x3130 + a.val) 1, 2 * 2 ^ 32 + x.toNat)
  | .jog _ a x => some (keyOf (0x3130 + a.val) 1, 3 * 2 ^ 32 + x.toNat)
  | .axisStop _ a x => some (keyOf (0x3130 + a.val) 1, 4 * 2 ^ 32 + x.toNat)
  | .halt _ a x => some (keyOf (0x3130 + a.val) 1, 5 * 2 ^ 32 + x.toNat)
  | .resume _ a x => some (keyOf (0x3130 + a.val) 1, 6 * 2 ^ 32 + x.toNat)
  | .home _ a x => some (keyOf (0x3130 + a.val) 1, 7 * 2 ^ 32 + x.toNat)
  | .setPos _ a x => some (keyOf (0x3130 + a.val) 1, 8 * 2 ^ 32 + x.toNat)
  | .clearFault _ a x => some (keyOf (0x3130 + a.val) 1, 9 * 2 ^ 32 + x.toNat)
  | .setVmax _ a x => some (keyOf (0x3130 + a.val) 1, 10 * 2 ^ 32 + x.toNat)
  | .axisEnable _ a x => some (keyOf (0x3130 + a.val) 1, 11 * 2 ^ 32 + x.toNat)
  | .setGtarget _ a x => some (keyOf (0x3130 + a.val) 1, 12 * 2 ^ 32 + x.toNat)
  | .groupGo _ a x => some (keyOf (0x3130 + a.val) 1, 13 * 2 ^ 32 + x.toNat)
  | .limitClear _ a x => some (keyOf (0x3130 + a.val) 1, 14 * 2 ^ 32 + x.toNat)
  | .doFaultClear _ mask => some (Ent.doFaultClear, mask.toNat)
  | .fbCancel _ p o => some (keyOf (0x3800 + p.val) 0x19, o.toNat)
  | .fbRecover _ p => some (keyOf (0x3800 + p.val) 0x18, 1)
  | .fbSleep _ p => some (keyOf (0x3800 + p.val) 0x17, 1)
  | .fbWake _ p => some (keyOf (0x3800 + p.val) 0x17, 2)
  | .streamAttach _ => some (Ent.acqStreamAttach, 1)
  | .windowArm _ w => some (keyOf (0x3C40 + w.val) 0x13, 1)
  | .windowDisarm _ w => some (keyOf (0x3C40 + w.val) 0x13, 2)
  | .windowTrigger _ w => some (keyOf (0x3C40 + w.val) 0x13, 3)
  | .windowRelease _ w slot => some (keyOf (0x3C40 + w.val) 0x14, slot.toNat)
  | .agateClear _ v => some (Ent.agateClear, v.toNat)
  | .acceptStep _ => some (Ent.timeAcceptStep, 1)
  | .redHandover _ => some (Ent.redHandover, 1)
  | .redDemote _ => some (Ent.redDemote, 1)
  | .redResync _ => some (Ent.redResync, 1)
  | .gateEnableWrite _ b which v => some (keyOf (0x1020 + b.val) (1 + which.val), b01 v)
  | .clockDividerWrite _ motion v => some (if motion then Ent.clkMotionDiv else Ent.clkMgmtDiv, v.toNat)
  | .commitSv _ => some (Ent.secCommitSv, 1)
  | .debugRequestD0 _ => some (Ent.dbgRequest, 0)
  | .debugRequestD1 _ => some (Ent.dbgRequest, 1)
  | _ => none

/-- Rows whose entry is readable: the value read back by a shadow READ is the value written. -/
def Sys2Proof.Machine.writesReadable : Instr → Bool
  | .loopModeRequest _ _ _ | .forceWrite _ _ _ | .gateEnableWrite _ _ _ _ | .clockDividerWrite _ _ _ => true
  | _ => false

/-- The commands of an axis, which wait one behind the other (R245); of any other entry the later write replaces the earlier. -/
def Sys2Proof.Machine.queuedEntry (key : Nat) : Bool := decide (0x3130 ≤ key / 256 ∧ key / 256 ≤ 0x314F)

/-- Writes that wait (R45). -/
def Obligations.HostWritesWait : Prop :=
  ∀ (s : State) (c : Instr) (r : Req) (x : Session) (key v : Nat), rowRequest c = some r → waitingWrite c = some (key, v) →
    requestFit s r x → (solo s.mod ∨ memberLocal key = true) → s.mod.ticking = true → (range 0x1020 0x102D (key / 256) = true → s.mod.stopped fnEngine = false) →
    writeStatus s.fuses ⟨x.id, x.role.rank, false⟩ r.index r.sub r.data (noted r x s.mod) = stOk →
    completes c s fun m =>
      m.odp.pend = (if queuedEntry key then s.mod.odp.pend else s.mod.odp.pend.filter fun w => w.key != key) ++ [⟨key, v, ownerOf key, x.id⟩] ∧
      (∀ j, m.shad j = if writesReadable c = true ∧ j = key then v else s.mod.shad j) ∧
      answeredWith s r stOk [] m ∧ m.odp = { s.mod.odp with sessions := m.odp.sessions, pend := m.odp.pend } ∧
      m = { s.mod with
        odp := m.odp, out := m.out, free := s.mod.free + 1, dict := { s.mod.dict with shadow := m.dict.shadow } }

/-- The request's checks pass (R522). -/
def Sys2Proof.Machine.checksPass (s : State) (r : Req) (x : Session) : Prop :=
  writeStatus s.fuses ⟨x.id, x.role.rank, false⟩ r.index r.sub r.data (noted r x s.mod) = stOk

/-- Bytes 34 to 39 of a management record: session, role and link (R490). -/
def Sys2Proof.Machine.sessionBytes (x : Session) : List Byte := leBytes 4 x.id ++ leBytes 1 x.role.rank ++ leBytes 1 x.link

/-- A software event of a session (R376, R490): function or key, qualifier, result, session, version. -/
def Sys2Proof.Machine.mgmtRecord (s : State) (source code num qual res : Nat) (sess : List Byte) (version : Nat) : Event :=
  ⟨source, code, 1 + notLocked s.mod, s.mod.now, s.mod.tick.epoch,
    padTo 28 (leBytes 2 num ++ leBytes 1 qual ++ leBytes 1 res ++ sess ++ leBytes 4 version)⟩

/-- Besides the session's frames and what recording changes, the fields named by `keep` are all that differ. -/
def Sys2Proof.Machine.servedOnly (s : State) (m : Module) : Prop :=
  m.pi = s.mod.pi ∧ m.loop = s.mod.loop ∧ m.lanes = s.mod.lanes ∧ m.disp = s.mod.disp ∧ m.slate = s.mod.slate ∧ m.flint = s.mod.flint ∧
    m.motion = s.mod.motion ∧ m.io = s.mod.io ∧ m.ports = s.mod.ports ∧ m.tick = s.mod.tick

/-- Writes that act at acceptance. -/
def Obligations.HostWritesAtOnce : Prop :=
  ∀ (s : State) (f : Frame) (x : Session),
    (∀ (fn : Fin 2048) (crc : BitVec 32) (r : Req), rowRequest (.expectedCrcWrite f fn crc) = some r → requestNew s r x → checksPass s r x →
      completes (.expectedCrcWrite f fn crc) s fun m => servedOnly s m ∧ answeredWith s r stOk [] m ∧ m.agate = s.mod.agate ∧ m.dict = s.mod.dict ∧
        ∀ g, m.fn g = if g = fn.val then { s.mod.fn g with expectedCrc := crc.toNat, armed := true } else s.mod.fn g) ∧
    (∀ (b : Fin 14) (which : Fin 3) (v : Bool) (r : Req), rowRequest (.gateEnableWrite f b which v) = some r → requestNew s r x → checksPass s r x →
      s.mod.stopped fnEngine = true →
      completes (.gateEnableWrite f b which v) s fun m => servedOnly s m ∧ answeredWith s r stOk [] m ∧ m.agate = s.mod.agate ∧ m.funcs = s.mod.funcs ∧
        ∀ j, m.cfg j = (if j = keyOf (0x1020 + b.val) (1 + which.val) then b01 v else s.mod.cfg j) ∧
          m.shad j = if j = keyOf (0x1020 + b.val) (1 + which.val) then b01 v else s.mod.shad j) ∧
    (∀ (t : T80) (r : Req), rowRequest (.timeSet f t) = some r → requestNew s r x → checksPass s r x → t.sec < 2 ^ 48 → t.ns < 1000000000 →
      completes (.timeSet f t) s fun m => servedOnly s m ∧ answeredWith s r stOk [] m ∧ m.time.st = .free ∧ m.time.seeded = true ∧ m.time.source = 3 ∧
        m.time.ctr / 2 ^ 32 = t.toNs ∧ m.funcs = s.mod.funcs) ∧
    (∀ (k : Fin 8) (use : BitVec 8) (r : Req), rowRequest (.anchorUseWrite f k use) = some r → requestNew s r x → checksPass s r x →
      completes (.anchorUseWrite f k use) s fun m => servedOnly s m ∧ answeredWith s r stOk [] m ∧ m.funcs = s.mod.funcs ∧ m.dict.live = s.mod.dict.live ∧
        (∀ j, m.anchor j = if j = k.val then (use.toNat, (s.mod.anchor j).2) else s.mod.anchor j) ∧
        raisedIn s.mod [mgmtRecord s 0x0E00 0x100C k use.toNat 0 (sessionBytes x) 0] m) ∧
    (∀ (v : BitVec 64) (r : Req), rowRequest (.agateNote f v) = some r → requestNew s r x → checksPass s r x →
      completes (.agateNote f v) s fun m => servedOnly s m ∧ answeredWith s r stOk [] m ∧ m.funcs = s.mod.funcs ∧ m.dict.live = s.mod.dict.live ∧
        raisedIn s.mod [⟨0x0E03, 0x0C07, 1 + notLocked s.mod, s.mod.now, s.mod.tick.epoch,
          padTo 28 (leBytes 2 (v.toNat / 2 ^ 48) ++ leBytes 4 (v.toNat % 2 ^ 32))⟩] m) ∧
    (∀ (target : BitVec 8) (r : Req), rowRequest (.lifecycleRequest f target) = some r → requestNew s r x → checksPass s r x →
      ∃ t, exec (.lifecycleRequest f target) s = .next t ∧ t.pending = s.pending ∧
        t.fuses = { s.fuses with rows := target.toNat :: s.fuses.rows, eraseDue := true } ∧ servedOnly s t.mod ∧ answeredWith s r stOk [] t.mod ∧
        t.mod.sec = { s.mod.sec with lifecycleDue := true } ∧ t.mod.nv = s.mod.nv ∧
        raisedIn s.mod [mgmtRecord s 0x0E00 0x1003 0 s.fuses.lifecycle target.toNat (sessionBytes x) 0] t.mod) ∧
    (∀ (r : Req), rowRequest (.deepRequest f) = some r → requestNew s r x → checksPass s r x →
      completes (.deepRequest f) s fun m => m.odp.sessions = [] ∧ m.odp.subs.all (fun u => s.mod.odp.sessions.all fun y => y.id != u.session) = true ∧
        m.power.deepEntry = true ∧ m.pi = s.mod.pi ∧ m.loop = s.mod.loop ∧ m.lanes = s.mod.lanes ∧ m.flint = s.mod.flint ∧ m.tick = s.mod.tick)

/-! ### The dictionary server (R45, R51 to R57, R60, R63 to R79) -/

/-- What answering a request changes besides its effect: the session that asked, the frames sent, and the free value of the operand. -/
def Sys2Proof.Machine.answerOnly (s : State) (m : Module) : Prop :=
  m = { s.mod with odp := m.odp, out := m.out, free := s.mod.free + 1 } ∧ m.odp = { s.mod.odp with sessions := m.odp.sessions }

/-- The four wire bytes of each of `n` words from an address, in order. -/
def Sys2Proof.Machine.imageBytes (m : Module) (a n : Nat) : List Byte := ((List.range n).map fun i => leBytes 4 (m.word (a + i)).toNat).flatten

/-- A request names words of the process image with a plain byte of flags. -/
def Sys2Proof.Machine.imageReq (r : Req) : Prop := 0x8000 ≤ r.index ∧ r.index ≤ 0x83FF ∧ r.sub < 256

/-- READ, READ_BLOCK, WRITE and WRITE_BLOCK of process-image words. -/
def Obligations.ImageRequests : Prop :=
  ∀ (s : State) (r : Req) (x : Session), requestNew s r x → s.mod.ticking = true → imageReq r →
    (r.op = 1 → r.flags ≤ 1 → completes (.read r) s fun m =>
      answerOnly s m ∧ answeredWith s r stOk (imageBytes s.mod (imageAddr r.index r.sub) 1) m) ∧
    (r.op = 3 → r.flags ≤ 1 → 1 ≤ r.operand → r.operand ≤ 349 → imageAddr r.index r.sub + r.operand ≤ 2 ^ 18 →
      completes (.readBlock r) s fun m => answerOnly s m ∧ answeredWith s r stOk (imageBytes s.mod (imageAddr r.index r.sub) r.operand) m) ∧
    (r.op = 2 → r.flags = 0 → 1 ≤ x.role.rank → r.data.length = 4 → s.mod.stopped fnEngine = false →
      (owned (noted r x s.mod) (imageAddr r.index r.sub) = false → completes (.write r) s fun m =>
        answeredWith s r stOk [] m ∧ m.odp.pendWords = s.mod.odp.pendWords ++ [(imageAddr r.index r.sub, BitVec.ofNat 20 (leNat r.data))] ∧
        m = { s.mod with odp := { s.mod.odp with sessions := m.odp.sessions, pendWords := m.odp.pendWords }, out := m.out, free := s.mod.free + 1 }) ∧
      (owned (noted r x s.mod) (imageAddr r.index r.sub) = true → completes (.write r) s fun m =>
        answeredWith s r stReadOnly [] m ∧ answerOnly s m)) ∧
    (∀ qs : List Nat, r.op = 4 → r.flags = 0 → 1 ≤ x.role.rank → r.operand = qs.length → 1 ≤ qs.length → qs.length ≤ 349 →
      r.data = (qs.map (leBytes 4)).flatten → imageAddr r.index r.sub + qs.length ≤ 2 ^ 18 → s.mod.stopped fnEngine = false →
      ((∀ i, i < qs.length → owned (noted r x s.mod) (imageAddr r.index r.sub + i) = false) → completes (.writeBlock r) s fun m =>
        answeredWith s r stOk [] m ∧
        m.odp.pendWords = s.mod.odp.pendWords ++ qs.zipIdx.map (fun q => (imageAddr r.index r.sub + q.2, BitVec.ofNat 20 q.1)) ∧
        m = { s.mod with odp := { s.mod.odp with sessions := m.odp.sessions, pendWords := m.odp.pendWords }, out := m.out, free := s.mod.free + 1 }) ∧
      (∀ i, i < qs.length → owned (noted r x s.mod) (imageAddr r.index r.sub + i) = true →
        (∀ j, j < i → owned (noted r x s.mod) (imageAddr r.index r.sub + j) = false) → completes (.writeBlock r) s fun m =>
        m = { s.mod with odp := { s.mod.odp with sessions := m.odp.sessions }, out := m.out } ∧
        ∃ out, m.out = out ++ [.resp ⟨r.fr.session, r.fr.id, 0x84, stReadOnly, r.index, r.sub, i, []⟩]))

/-- A START or STOP that an ENGINEER session may give now: of a function that exists, after Ready, with no flags. -/
def Sys2Proof.Machine.fnReq (s : State) (r : Req) (x : Session) : Prop :=
  requestNew s r x ∧ isFn r.operand = true ∧ 2 ≤ x.role.rank ∧ s.mod.stat Ent.bootReady ≠ 0 ∧ r.flags = 0 ∧ s.mod.ticking = true

/-- Function `f`'s record is `a` and every other function's is as it was. -/
def Sys2Proof.Machine.onlyFn (s : State) (m : Module) (f : Nat) (a : FuncRec) : Prop := ∀ g, m.fn g = if g = f then a else s.mod.fn g

/-- An accepted START, STOP or SAVE is recorded with 1006h (R490), last of what the request raises. -/
def Sys2Proof.Machine.recorded1006 (s : State) (m : Module) (num op res : Nat) (x : Session) : Prop :=
  ∃ evs e, raisedIn s.mod (evs ++ [e]) m ∧ e.source = 0x0E01 ∧ e.code = 0x1006 ∧
    e.body = padTo 28 (leBytes 2 num ++ leBytes 1 op ++ leBytes 1 res ++ sessionBytes x ++ leBytes 4 0)

/-- START and STOP. -/
def Obligations.StartAndStop : Prop :=
  ∀ (s : State) (r : Req) (x : Session), fnReq s r x →
    let f := r.operand
    let a := s.mod.fn f
    (r.op = 5 →
      (a.st = .stopped → range 0x548 0x549 f = false → (startChecks f (noted r x s.mod)).1 = stOk → completes (.start r) s fun m =>
        (m.fn f).st = .starting ∧ (m.fn f).armed = false ∧ (∀ g, g ≠ f → m.fn g = s.mod.fn g) ∧ m.pi = s.mod.pi ∧
          answeredWith s r stOk [1] m ∧ recorded1006 s m f 5 1 x) ∧
      ((a.st = .starting ∨ a.st = .running) → completes (.start r) s fun m =>
        onlyFn s m f { a with ignored := min (a.ignored + 1) 0xFFFFFFFF } ∧ m.pi = s.mod.pi ∧
          answeredWith s r stOkNochange [if a.st = .starting then 1 else 2] m ∧ recorded1006 s m f 5 (if a.st = .starting then 1 else 2) x) ∧
      (a.st = .stopping → completes (.start r) s fun m =>
        onlyFn s m f (if a.restart then { a with ignored := min (a.ignored + 1) 0xFFFFFFFF } else { a with restart := true }) ∧ m.pi = s.mod.pi ∧
          answeredWith s r (if a.restart then stOkNochange else stOk) [3] m ∧ recorded1006 s m f 5 3 x)) ∧
    (r.op = 6 →
      (a.st = .stopped → completes (.stop r) s fun m =>
        m.funcs = s.mod.funcs ∧ m.pi = s.mod.pi ∧ answeredWith s r stOkNochange [0] m ∧ recorded1006 s m f 6 0 x) ∧
      (a.st = .stopping → completes (.stop r) s fun m =>
        onlyFn s m f { a with restart := false } ∧ m.pi = s.mod.pi ∧
          answeredWith s r (if a.restart then stOk else stOkNochange) [3] m ∧ recorded1006 s m f 6 3 x) ∧
      (a.st = .starting → hasChild (noted r x s.mod) f = false → stopRefused (noted r x s.mod) f = false → completes (.stop r) s fun m =>
        onlyFn s m f { a with st := .stopped, cancelled := min (a.cancelled + 1) 0xFFFFFFFF, lastChange := s.mod.tick.epoch } ∧ m.pi = s.mod.pi ∧
          answeredWith s r stOk [0] m ∧ recorded1006 s m f 6 0 x) ∧
      (a.st = .running → hasChild (noted r x s.mod) f = false → stopRefused (noted r x s.mod) f = false → completes (.stop r) s fun m =>
        onlyFn s m f { a with st := .stopping } ∧ m.pi = s.mod.pi ∧ answeredWith s r stOk [3] m ∧ recorded1006 s m f 6 3 x))

/-- SAVE and SAVE_COMPLETE. -/
def Obligations.SaveAndItsEnd : Prop :=
  (∀ (s : State) (r : Req) (x : Session) (b : Nat), requestNew s r x → r.op = 7 → r.flags = 0 → 2 ≤ x.role.rank → s.mod.stat Ent.bootReady ≠ 0 →
    s.mod.odp.save = none → b < 2 → s.mod.stat Ent.cfgActiveBank = b →
    completes (.save r) s fun m =>
      let seq := (s.mod.stat Ent.cfgActiveSequence + 1) % 2 ^ 32
      (saveTooLong (noted r x s.mod) = false → m.out = s.mod.out ∧
        (∃ y : SaveRun, m.odp.save = some y ∧ y.session = x.id ∧ y.req = r ∧ y.bank = 1 - b ∧ y.seq = seq) ∧
        (∃ k : Bank, m.bank (1 - b) = some k ∧ k.header = false ∧ k.seq = seq ∧ k.body = snapshot s.mod) ∧
        m.stat Ent.cfgSaveState = 2 ∧ ∀ j, j ≠ Ent.cfgSaveState → m.stat j = s.mod.stat j) ∧
      (saveTooLong (noted r x s.mod) = true → answeredWith s r stNvFull [] m ∧ m.odp.save = none ∧ m.nv = s.mod.nv) ∧
      m.bank b = s.mod.bank b ∧ m.nv.ptr = s.mod.nv.ptr ∧
      m.pi = s.mod.pi ∧ m.funcs = s.mod.funcs ∧ m.dict.live = s.mod.dict.live ∧ m.dict.shadow = s.mod.dict.shadow) ∧
  (∀ (s : State) (y : SaveRun) (x : Session) (k : Bank), s.mod.odp.save = some y → y.bank < 2 → s.mod.bank y.bank = some k → solo s.mod →
    s.mod.agate.raised = [] → y.session = y.req.fr.session → 0 < y.session → y.session < 2 ^ 32 →
    s.mod.odp.sessions.find? (fun z => z.id == y.session) = some x → x.tx + 1 < 2 ^ 48 →
    (completes (.saveComplete true) s fun m =>
      m.bank y.bank = some { k with header := true } ∧ m.bank (1 - y.bank) = s.mod.bank (1 - y.bank) ∧ m.odp.save = none ∧
      m.stat Ent.cfgActiveBank = y.bank ∧ m.stat Ent.cfgActiveSequence = y.seq ∧ m.stat Ent.cfgSaveState = 0 ∧ m.stat Ent.cfgLastResult = stOk ∧
      (∃ o out, m.out = out ++ [.resp ⟨y.session, y.req.fr.id, y.req.op + 0x80, stOk, y.req.index, y.req.sub, o, leBytes 1 y.bank ++ leBytes 4 y.seq⟩]) ∧
      recorded1006 s m 0xFFFF 7 y.bank x ∧ m.pi = s.mod.pi ∧ m.funcs = s.mod.funcs ∧ m.dict.live = s.mod.dict.live ∧ m.dict.shadow = s.mod.dict.shadow) ∧
    (completes (.saveComplete false) s fun m =>
      m.nv.bank0 = s.mod.nv.bank0 ∧ m.nv.bank1 = s.mod.nv.bank1 ∧ m.nv.ptr = s.mod.nv.ptr ∧ m.odp.save = none ∧
      m.stat Ent.cfgActiveBank = s.mod.stat Ent.cfgActiveBank ∧ m.stat Ent.cfgActiveSequence = s.mod.stat Ent.cfgActiveSequence ∧
      m.stat Ent.cfgLastResult = stNvFail ∧
      (∃ o out, m.out = out ++ [.resp ⟨y.session, y.req.fr.id, y.req.op + 0x80, stNvFail, y.req.index, y.req.sub, o, []⟩]) ∧
      m.pi = s.mod.pi ∧ m.funcs = s.mod.funcs)) ∧
  (∀ (s : State) (good : Bool), s.mod.odp.save = none → completes (.saveComplete good) s fun m => after [] s.mod m)

/-- A session is gone with its subscriptions and its transfers; every other session keeps its own (R66). -/
def Sys2Proof.Machine.sessionGone (s : State) (id : Nat) (m : Module) : Prop :=
  m.odp.sessions = s.mod.odp.sessions.filter (fun x => x.id != id) ∧ m.odp.subs = s.mod.odp.subs.filter (fun x => x.session != id) ∧
    m.odp.domWrites = s.mod.odp.domWrites.filter (fun x => x.session != id) ∧ m.odp.domReads = s.mod.odp.domReads.filter (fun x => x.session != id) ∧
    m.odp.exports = s.mod.odp.exports.filter (fun x => x.session != id) ∧ m.odp.pend = s.mod.odp.pend ∧ m.odp.save = s.mod.odp.save

/-- The event 100Ah of a session's end (R490), with its cause. -/
def Sys2Proof.Machine.closedEvent (s : State) (x : Session) (cause : Nat) : Event := mgmtRecord s 0x0E02 0x100A 0 0 cause (sessionBytes x) 0

/-- Sessions. -/
def Obligations.HandshakesAndSessions : Prop :=
  (∀ (s : State) (h : Hello), odpUp s.fuses s.mod h.link = true → s.mod.agate.raised = [] → s.mod.standby = false →
    let others := s.mod.odp.handshakes.filter fun y => y.peer != h.peer
    (s.mod.odp.sessions.length < 8 → others.length < 2 → completes (.clientHello h) s fun m =>
      (∃ hs, m.odp.handshakes = others ++ [hs] ∧ hs.peer = h.peer ∧ hs.link = h.link ∧ hs.chain = h.chain ∧ hs.clientNonce = h.nonce ∧ hs.serverNonce.length = 32 ∧
        ∃ bs, m.out = s.mod.out ++ [.serverHello h.peer bs]) ∧
      m = { s.mod with odp := { s.mod.odp with handshakes := m.odp.handshakes }, out := m.out, sec := m.sec }) ∧
    ((8 ≤ s.mod.odp.sessions.length ∨ 2 ≤ others.length) → completes (.clientHello h) s fun m =>
      m.odp = s.mod.odp ∧ m.out = s.mod.out ++ [.reject h.peer stBusy] ∧
      m.stat Ent.odpRejectedHandshakes = countedBy 1 Ent.odpRejectedHandshakes s.mod ∧ m.pi = s.mod.pi ∧ m.funcs = s.mod.funcs ∧
      ∃ e, raisedIn s.mod [e] m ∧ e.code = 0x100B)) ∧
  (∀ (s : State) (peer : Nat) (bs : List Byte) (hs : Handshake), s.mod.odp.handshakes.find? (fun y => y.peer == peer) = some hs →
    odpUp s.fuses s.mod hs.link = true → s.mod.agate.raised = [] → s.mod.standby = false → s.mod.odp.sessions.length < 8 →
    completes (.clientFinish peer bs) s fun m =>
      let ok := (clientOk s.fuses hs bs { s.mod with odp := { s.mod.odp with handshakes := m.odp.handshakes } }).1
      m.odp.handshakes = s.mod.odp.handshakes.filter (fun y => y.peer != peer) ∧ m.pi = s.mod.pi ∧ m.funcs = s.mod.funcs ∧
      (ok = true → (∃ x, m.odp.sessions = s.mod.odp.sessions ++ [x] ∧ x.id = s.mod.odp.lastId + 1 ∧ x.role = hs.role ∧ x.link = hs.link ∧ x.kept = [] ∧
          x.rxHigh = 0 ∧ x.tx = 0 ∧ m.odp.lastId = x.id ∧ m.out = s.mod.out ++ [.serverFinish peer x.id (s.mod.cfg Ent.odpIdleTimeout)]) ∧
        ∃ e, raisedIn s.mod [e] m ∧ e.code = 0x1009) ∧
      (ok = false → m.odp.sessions = s.mod.odp.sessions ∧ m.odp.lastId = s.mod.odp.lastId ∧ m.out = s.mod.out ++ [.reject peer stRole] ∧
        ∃ e, raisedIn s.mod [e] m ∧ e.code = 0x100B)) ∧
  (∀ (s : State) (peer : Nat), completes (.handshakeTimeout peer) s fun m =>
    m = { s.mod with odp := { s.mod.odp with handshakes := m.odp.handshakes } } ∧ ∀ y, y ∈ m.odp.handshakes ↔ y ∈ s.mod.odp.handshakes ∧ y.peer ≠ peer) ∧
  (∀ (s : State) (x : Session), s.mod.odp.sessions.find? (fun y => y.id == x.id) = some x → s.mod.acq.session ≠ x.id →
    completes (.sessionIdleTimeout x.id) s fun m =>
      sessionGone s x.id m ∧ raisedIn s.mod [closedEvent s x 2] m ∧ m.pi = s.mod.pi ∧ m.funcs = s.mod.funcs ∧ m.dict.shadow = s.mod.dict.shadow) ∧
  (∀ (s : State) (r : Req) (x : Session), requestNew s r x → r.op = 15 → r.flags = 0 → s.mod.acq.session ≠ x.id → completes (.close r) s fun m =>
    sessionGone s x.id m ∧ raisedIn s.mod [closedEvent s x 1] m ∧ m.pi = s.mod.pi ∧ m.funcs = s.mod.funcs ∧ m.dict.shadow = s.mod.dict.shadow ∧
      ∃ o out, m.out = out ++ [.resp ⟨r.fr.session, r.fr.id, 0x8F, stOk, r.index, r.sub, o, []⟩])

/-- The wire form of a subscription list of process-image words (R77): period, on-change, count, and four bytes for each word. -/
def Sys2Proof.Machine.imageList (period : Nat) (onChange : Bool) (words : List Nat) : List Byte :=
  leBytes 4 period ++ [BitVec.ofNat 8 (b01 onChange), BitVec.ofNat 8 words.length, 0, 0] ++
    (words.map fun a => leBytes 2 (0x8000 + a / 256) ++ [BitVec.ofNat 8 (a % 256), 0]).flatten

/-- SUBSCRIBE and SUBSCRIPTION_PASS. -/
def Obligations.Subscriptions : Prop :=
  (∀ (s : State) (r : Req) (x : Session) (period : Nat) (onChange : Bool) (words : List Nat), requestNew s r x → r.op = 8 → r.flags = 0 → r.operand = 0 →
    r.data = imageList period onChange words → 1 ≤ words.length → words.length ≤ 64 → (∀ a ∈ words, a < 2 ^ 18) → 50 ≤ period → period ≤ 50000000 →
    (s.mod.odp.subs.filter fun y => y.session == x.id).length < 16 → s.mod.odp.subs.length < 64 →
    completes (.subscribe r) s fun m =>
      ∃ h, 1 ≤ h ∧ h ≤ 65535 ∧ (∀ y ∈ s.mod.odp.subs, y.handle ≠ h) ∧
        m.odp.subs = s.mod.odp.subs ++ [⟨h, x.id, period, onChange, words.map fun a => keyOf (0x8000 + a / 256) (a % 256), none, 0⟩] ∧
        answeredWith s r stOk (leBytes 2 h) m ∧
        m = { s.mod with odp := { s.mod.odp with sessions := m.odp.sessions, subs := m.odp.subs, lastHandle := h }, out := m.out, free := s.mod.free + 1 }) ∧
  (∀ (s : State) (e : Nat) (y : Subscription) (x : Session) (words : List Nat), idleLanesEmpty s.mod → s.mod.tick.epoch = some e → s.mod.tick.cycle ≤ 3920 →
    s.mod.ticking = true → s.mod.power.recovery = false → s.mod.agate.raised = [] → (s.mod.odp.subs.filter fun y => e % y.period == 0) = [y] → y.onChange = false →
    (s.mod.odp.subs.filter fun z => z.handle == y.handle) = [y] →
    y.keys = words.map (fun a => keyOf (0x8000 + a / 256) (a % 256)) → (∀ a ∈ words, a < 2 ^ 18) →
    s.mod.odp.sessions.find? (fun z => z.id == y.session) = some x → x.tx + 1 < 2 ^ 48 → completes .subscriptionPass s fun m =>
      m.out = s.mod.out ++ [.notify y.session y.handle ((y.count + 1) % 2 ^ 32) e (words.map fun a => leBytes 4 (s.mod.word a).toNat).flatten] ∧
      (m.odp.subs.filter fun z => z.handle == y.handle).map Subscription.count = [(y.count + 1) % 2 ^ 32] ∧
      (m.odp.subs.filter fun z => z.handle != y.handle) = (s.mod.odp.subs.filter fun z => z.handle != y.handle) ∧ m.tick.cycle = 3920 ∧
      m = { s.mod with odp := { s.mod.odp with sessions := m.odp.sessions, subs := m.odp.subs }, out := m.out, tick := m.tick, time := m.time }) ∧
  (∀ (s : State) (e : Nat), idleLanesEmpty s.mod → s.mod.tick.epoch = some e → s.mod.tick.cycle ≤ 3920 → s.mod.agate.raised = [] →
    (∀ y ∈ s.mod.odp.subs, e % y.period ≠ 0) → completes .subscriptionPass s fun m =>
      m.tick.cycle = 3920 ∧ m = { s.mod with tick := m.tick, time := m.time })

/-- The request names a DOM entry that stands. -/
def Sys2Proof.Machine.domReq (s : State) (r : Req) (row : Row) : Prop :=
  isImage r.index = false ∧ entryStatus s.mod r.index r.sub = stOk ∧ rowAt r.index r.sub = some row ∧ row.ty = .dom

/-- An open transfer of an entry other than this one's is as it was. -/
def Sys2Proof.Machine.otherTransfers (s m : Odp) (key : Nat) : Prop := m.domWrites.filter (fun y => y.key != key) = s.domWrites.filter (fun y => y.key != key)

/-- DOM_WRITE_INIT, DOM_WRITE_SEG, DOM_WRITE_END, DOM_WRITE_TIMEOUT. -/
def Obligations.DomWriteTransfers : Prop :=
  (∀ (s : State) (r : Req) (x : Session) (row : Row), requestNew s r x → domReq s r row → r.op = 2 →
    let key := keyOf r.index r.sub
    needRank s.fuses key 0 ≤ x.role.rank → row.access r.index r.sub = .rws → (∀ f, ownerOf key = some f → s.mod.stopped f = true) →
    key ≠ Ent.flintLoad → range 0x1810 0x1817 r.index = false →
    (∀ y ∈ s.mod.odp.domWrites, y.key = key → y.session = x.id) →
    let same := fun (m : Module) => m.pi = s.mod.pi ∧ m.funcs = s.mod.funcs ∧ m.dict.live = s.mod.dict.live ∧ m.dict.liveB = s.mod.dict.liveB ∧
      otherTransfers s.mod.odp m.odp key
    (r.flags = 2 → r.operand ≤ row.max → completes (.domWriteInit r) s fun m =>
      same m ∧ openDom m key = some ⟨key, x.id, r.operand, [], none⟩ ∧ m.dict = s.mod.dict ∧ answeredWith s r stOk [] m) ∧
    (∀ w : DomWrite, openDom s.mod key = some w → r.flags = 4 → completes (.domWriteSeg r) s fun m =>
      same m ∧ m.dict = s.mod.dict ∧
      (w.last = some (r.operand, r.data) → openDom m key = some w ∧ answeredWith s r stOk [] m) ∧
      (w.last ≠ some (r.operand, r.data) → r.operand = w.data.length → w.data.length + r.data.length ≤ w.total →
        openDom m key = some { w with data := w.data ++ r.data, last := some (r.operand, r.data) } ∧ answeredWith s r stOk [] m) ∧
      (w.last ≠ some (r.operand, r.data) → r.operand ≠ w.data.length → openDom m key = some w ∧ answeredWith s r stSegOrder [] m)) ∧
    (∀ w : DomWrite, openDom s.mod key = some w → r.flags = 8 → row.acc = .rws → signedKind key = none → key ≠ Ent.dispGraph →
      completes (.domWriteEnd r) s fun m =>
      same m ∧ openDom m key = none ∧ m.dict.shadow = s.mod.dict.shadow ∧
      (w.data.length = w.total → r.operand = crc32c w.data → answeredWith s r stOk [] m ∧
        ∀ j, m.shadB j = if j = key then w.data else s.mod.shadB j) ∧
      (¬ (w.data.length = w.total ∧ r.operand = crc32c w.data) → answeredWith s r stSegCrc [] m ∧ m.dict = s.mod.dict))) ∧
  (∀ (s : State) (session key : Nat), completes (.domWriteTimeout session key) s fun m =>
    m = { s.mod with odp := { s.mod.odp with domWrites := m.odp.domWrites } } ∧
    ∀ y, y ∈ m.odp.domWrites ↔ y ∈ s.mod.odp.domWrites ∧ ¬ (y.session = session ∧ y.key = key))

/-- The bytes of an offset's segment: at most 1,396 (R76). -/
def Sys2Proof.Machine.segment (bs : List Byte) (off : Nat) : List Byte := (bs.drop off).take 1396

/-- DOM reads and exports. -/
def Obligations.DomReadsAndExports : Prop :=
  (∀ (s : State) (r : Req) (x : Session) (row : Row), requestNew s r x → domReq s r row → r.op = 1 → row.access r.index r.sub ≠ .wo →
    let key := keyOf r.index r.sub
    let only := fun (m : Module) => m = { s.mod with
        odp := { s.mod.odp with sessions := m.odp.sessions, domReads := m.odp.domReads }, out := m.out, free := s.mod.free + 1 }
    let others := fun (m : Module) => m.odp.domReads.filter (fun y => !(y.session == x.id && y.key == key)) =
      s.mod.odp.domReads.filter (fun y => !(y.session == x.id && y.key == key))
    ((r.flags = 2 ∨ r.flags = 3) → key ≠ Ent.dbgChallenge → (range 0x3800 0x3807 r.index = true → r.sub ≠ 0x1B) → completes (.domReadInit r) s fun m =>
      let bs := blockVal (noted r x s.mod) (bit r.flags 0) key row
      only m ∧ others m ∧ heldDom m x.id key = some ⟨key, x.id, bs⟩ ∧ answeredWith s r stOk (leBytes 4 bs.length ++ leBytes 4 (crc32c bs)) m) ∧
    (∀ y : DomRead, heldDom s.mod x.id key = some y → r.flags = 4 → r.operand ≤ y.data.length → completes (.domReadSeg r) s fun m =>
      only m ∧ others m ∧ answeredWith s r stOk (segment y.data r.operand) m ∧
      (r.operand < y.data.length → y.data.length ≤ r.operand + 1396 → heldDom m x.id key = none) ∧
      (r.operand + 1396 < y.data.length → heldDom m x.id key = some y)) ∧
    (∀ y : DomRead, heldDom s.mod x.id key = some y → r.flags = 8 → completes (.domReadEnd r) s fun m =>
      only m ∧ others m ∧ answeredWith s r stOk [] m ∧ heldDom m x.id key = none) ∧
    (heldDom s.mod x.id key = none → r.flags = 4 → completes (.domReadSeg r) s fun m => only m ∧ m.odp.domReads = s.mod.odp.domReads ∧ answeredWith s r stSegOrder [] m) ∧
    (heldDom s.mod x.id key = none → r.flags = 8 → completes (.domReadEnd r) s fun m => only m ∧ m.odp.domReads = s.mod.odp.domReads ∧ answeredWith s r stSegOrder [] m)) ∧
  (∀ (s : State) (r : Req) (x : Session) (bs : List Byte), requestNew s r x → r.op = 9 →
    let kind := r.operand / 2 ^ 24 % 256
    let inst := r.operand % 2 ^ 24
    let only := fun (m : Module) => m = { s.mod with
        odp := { s.mod.odp with sessions := m.odp.sessions, exports := m.odp.exports }, out := m.out, free := s.mod.free + 1 }
    (r.flags = 2 → exportObject (noted r x s.mod) kind inst = .ok bs → completes (.exportInit r) s fun m =>
      only m ∧ answeredWith s r stOk (leBytes 8 bs.length) m ∧ m.odp.exports.find? (sameExport x.id kind inst) = some ⟨x.id, kind, inst, bs, s.mod.now⟩ ∧
      m.odp.exports.filter (fun y => !sameExport x.id kind inst y) = s.mod.odp.exports.filter (fun y => !sameExport x.id kind inst y)) ∧
    (∀ y : Export, s.mod.odp.exports.find? (sameExport x.id kind inst) = some y →
      (r.flags = 4 → r.data.length = 8 → leNat r.data ≤ y.data.length → completes (.exportSeg r) s fun m =>
        only m ∧ m.odp.exports = s.mod.odp.exports ∧ answeredWith s r stOk (segment y.data (leNat r.data)) m) ∧
      (r.flags = 8 → completes (.exportEnd r) s fun m =>
        only m ∧ m.odp.exports = s.mod.odp.exports.filter (fun z => !sameExport x.id kind inst z) ∧ answeredWith s r stOk (exportProof s.mod y) m))) ∧
  (∀ (s : State) (session key : Nat), completes (.domReadTimeout session key) s fun m =>
    m = { s.mod with odp := { s.mod.odp with domReads := m.odp.domReads } } ∧
    ∀ y, y ∈ m.odp.domReads ↔ y ∈ s.mod.odp.domReads ∧ ¬ (y.session = session ∧ y.key = key)) ∧
  (∀ (s : State) (session : Nat), completes (.exportTimeout session) s fun m =>
    m = { s.mod with odp := { s.mod.odp with exports := m.odp.exports } } ∧
    ∀ y, y ∈ m.odp.exports ↔ y ∈ s.mod.odp.exports ∧ y.session ≠ session)

/-! ### The test access port, tokens and lifecycle (R475, R482 to R486) -/

/-- What the port's instruction leaves: instruction, data register, pins driven or not, boundary register. -/
def Sys2Proof.Machine.scanned (ir : JtagInstr) (dr : Nat) (pins : Bool) (boundary : Nat) (m : Module) : Module :=
  { m with sec := { m.sec with ir := ir, dr := dr, pinsDriven := pins, boundary := boundary } }

/-- The rows of the port. -/
def Sys2Proof.Machine.portRow : Instr → Bool
  | .jtagBypass | .jtagIdcode | .jtagSamplePreload _ | .jtagExtest _ | .jtagIntest _ | .jtagClamp | .jtagHighz
  | .jtagTraceRead _ | .jtagHalt _ | .jtagStep _ | .jtagResume _ | .jtagRegisterAccess _ _ _ => true
  | _ => false

/-- Boundary scan. -/
def Obligations.BoundaryScan : Prop :=
  (∀ (s : State) (c : Instr), portRow c = true → jtagOn s.mod = false → s.mod.agate.raised = [] →
    completes c s (· = s.mod)) ∧
  (∀ s : State, jtagOn s.mod = true →
    let b := s.mod.sec.boundary
    let byp := scanned .bypass 0 false b s.mod
    completes .jtagBypass s (· = byp) ∧
    completes .jtagIdcode s (· = scanned .idcode (Config.idcode % 2 ^ 32) false b s.mod) ∧
    (∀ v : Nat, completes (.jtagSamplePreload v) s fun m =>
      if s.fuses.lifecycle = 4 then m = byp else ∃ x, m = { scanned .sample x false v s.mod with free := s.mod.free + 1 }) ∧
    (s.mod.sec.level = 3 →
      (∀ v : Nat, completes (.jtagExtest v) s fun m => ∃ x, m = { scanned .extest x true v s.mod with free := s.mod.free + 1 }) ∧
      (∀ v : Nat, completes (.jtagIntest v) s fun m => ∃ x, m = { scanned .intest x false v s.mod with free := s.mod.free + 1 }) ∧
      completes .jtagClamp s (· = scanned .clamp 0 true b s.mod) ∧ completes .jtagHighz s (· = scanned .highz 0 false b s.mod)) ∧
    (s.mod.sec.level ≠ 3 → ∀ c : Instr, (c = .jtagClamp ∨ c = .jtagHighz ∨ (∃ v, c = .jtagExtest v) ∨ ∃ v, c = .jtagIntest v) →
      completes c s fun m => m = byp.setStat Ent.dbgScanBlocked (countedBy 1 Ent.dbgScanBlocked s.mod))) ∧
  ∀ (s : State) (c : Instr), portRow c = true → s.mod.sec.level = 0 → s.mod.agate.raised = [] →
    completes c s fun m => m = { s.mod with
      sec := m.sec, free := m.free, dict := m.dict } ∧ m.dict = { s.mod.dict with stat := m.dict.stat } ∧
      (∀ k, k ≠ Ent.dbgScanBlocked → m.stat k = s.mod.stat k) ∧
      m.sec = { s.mod.sec with ir := m.sec.ir, dr := m.sec.dr, pinsDriven := m.sec.pinsDriven, boundary := m.sec.boundary }


/-- Width of a register or memory byte of a lane, as the port reaches it. -/
def Sys2Proof.Machine.targetWidth : DbgTarget → Nat
  | .x _ _ => 20
  | .t _ _ => 12
  | .a _ _ => 48
  | .p _ _ | .pc => 16
  | _ => 8

/-- A register of a lane, or a byte of its loop memory. -/
def Sys2Proof.Machine.laneTarget : DbgTarget → Bool
  | .coreWord _ => false
  | .mem a => decide (a < 524288)
  | _ => true

/-- Debug access. -/
def Obligations.DebugAccess : Prop :=
  ∀ s : State, jtagOn s.mod = true → s.mod.agate.raised = [] →
    let b := s.mod.sec.boundary
    let byp := scanned .bypass 0 false b s.mod
    let v := scanned .vendor s.mod.sec.dr false b s.mod
    let onlyLane := fun (l : Nat) (m : Module) => m = { v with lanes := m.lanes } ∧ ∀ j : Nat, j ≠ l → m.lane j = s.mod.lane j
    (∀ u : DbgUnit, completes (.jtagTraceRead u) s fun m =>
      if s.mod.sec.level = 0 then m = byp else ∃ x, m = { scanned .vendor x false b s.mod with free := s.mod.free + 1 }) ∧
    (s.mod.sec.level < 2 → ∀ (c : Instr) (u : DbgUnit), (c = .jtagHalt u ∨ c = .jtagStep u ∨ c = .jtagResume u ∨ ∃ x w, c = .jtagRegisterAccess u x w) →
      completes c s (· = byp)) ∧
    (2 ≤ s.mod.sec.level →
      (s.mod.stopped fnEngine = true → (s.mod.red.st = 0 ∨ s.mod.red.st = 5) →
        (∀ k : Nat, k < 4 → completes (.jtagHalt (.core k)) s fun m =>
          m = { v with sec := { v.sec with cores := m.sec.cores } } ∧ ∀ j : Nat, j ∈ m.sec.cores ↔ j = k ∨ j ∈ s.mod.sec.cores) ∧
        (∀ l : Fin 16, completes (.jtagHalt (.lane l)) s fun m => onlyLane l m ∧ m.lane l = { s.mod.lane l with halted := true })) ∧
      (¬ (s.mod.stopped fnEngine = true ∧ (s.mod.red.st = 0 ∨ s.mod.red.st = 5)) → ∀ u : DbgUnit,
        completes (.jtagHalt u) s fun m => m = v.setStat Ent.dbgRefused (countedBy 1 Ent.dbgRefused s.mod)) ∧
      (∀ k : Nat, completes (.jtagResume (.core k)) s fun m =>
        m = { v with sec := { v.sec with cores := m.sec.cores, coreMem := m.sec.coreMem } } ∧ ∀ j : Nat, j ∈ m.sec.cores ↔ j ≠ k ∧ j ∈ s.mod.sec.cores) ∧
      (∀ l : Fin 16, completes (.jtagResume (.lane l)) s fun m => onlyLane l m ∧ m.lane l = { s.mod.lane l with halted := false }) ∧
      (∀ u : DbgUnit, unitHalted s.mod u = false → completes (.jtagStep u) s (· = v) ∧ ∀ (x : DbgTarget) (w : Option Nat),
        completes (.jtagRegisterAccess u x w) s (· = v)) ∧
      (∀ (l : Fin 16) (x : DbgTarget), (s.mod.lane l).halted = true → laneTarget x = true →
        completes (.jtagRegisterAccess (.lane l) x none) s (fun m => m = { v with sec := { v.sec with dr := (dbgRead (.lane l) x s.mod).1 } }) ∧
        ∀ n : Nat, completes (.jtagRegisterAccess (.lane l) x (some n)) s fun m =>
          (dbgRead (.lane l) x m).1 = n % 2 ^ targetWidth x ∧
          (∀ y, laneTarget y = true → y ≠ x → (dbgRead (.lane l) y m).1 = (dbgRead (.lane l) y s.mod).1) ∧
          (∀ j : Nat, j ≠ l → m.lane j = s.mod.lane j) ∧ m = { v with lanes := m.lanes, loop := { s.mod.loop with mem := m.loop.mem } }) ∧
      (∀ (k a n : Nat), k ∈ s.mod.sec.cores → completes (.jtagRegisterAccess (.core k) (.coreWord a) (some n)) s fun m =>
        m = { v with sec := { v.sec with coreMem := m.sec.coreMem } } ∧ dbgRead (.core k) (.coreWord a) m = (n, m)) ∧
      (∀ k : Nat, k ∈ s.mod.sec.cores → completes (.jtagStep (.core k)) s fun m => m = { v with sec := { v.sec with coreMem := m.sec.coreMem } }) ∧
      (∀ (l : Fin 16) (c : OpCtx) (w : Nat) (op : LaneOp), (s.mod.lane l).halted = true → (s.mod.lane l).op = some c →
        pcIn s.mod (s.mod.lane l).pc = .image w → laneDecode w = some op → op.romOnly = false →
        completes (.jtagStep (.lane l)) s fun m =>
          ∃ t, exec (laneInstr l op) { s with mod := modLane l (fun x => { x with halted := false }) v } = .next t ∧
            m = modLane l (fun x => { x with halted := true }) t.mod))

/-! ### Tokens, lifecycle and boot (R62, R385, R475, R479, R482, R485, R511 to R516) -/

/-- Ids of the sessions whose role is SERVICE. -/
def Sys2Proof.Machine.serviceIds (m : Module) (id : Nat) : Bool := m.odp.sessions.any fun x => x.id == id && x.role == .service

/-- TOKEN_EXPIRY and LIFECYCLE_RESET. -/
def Obligations.TokensAndLifecycleReset : Prop :=
  (∀ (s : State) (k : Fin 4),
    (k = 1 → s.mod.sec.debugTok.isSome = true → s.mod.sec.level ≠ 0 → (∀ y ∈ s.mod.odp.sessions, y.id ≠ 0) → Sparse.risesFrom none s.mod.lanes = true →
      completes (.tokenExpiry k) s fun m => raisedIn s.mod [mgmtRecord s 0x0E00 0x1004 0 0 0 (leBytes 4 0 ++ [0xFF#8, 0xFF#8]) 0] m ∧
      m.sec = { s.mod.sec with level := 0, cores := [], coreMem := [], debugTok := none, pinsDriven := false } ∧
      (∀ l : Nat, (m.lane l).halted = false ∧ m.lane l = { s.mod.lane l with halted := false }) ∧ m.pi = s.mod.pi ∧ m.loop = s.mod.loop ∧
      m.funcs = s.mod.funcs ∧ m.odp = s.mod.odp ∧ m.nv = s.mod.nv) ∧
    (k = 2 → s.mod.sec.serviceTok.isSome = true → completes (.tokenExpiry k) s fun m =>
      m.sec = { s.mod.sec with serviceTok := none } ∧ m.odp.sessions = s.mod.odp.sessions.filter (fun x => !serviceIds s.mod x.id) ∧
      m.odp.subs = s.mod.odp.subs.filter (fun x => !serviceIds s.mod x.session) ∧
      m.odp.domWrites = s.mod.odp.domWrites.filter (fun x => !serviceIds s.mod x.session) ∧
      m.odp.domReads = s.mod.odp.domReads.filter (fun x => !serviceIds s.mod x.session) ∧
      m.odp.exports = s.mod.odp.exports.filter (fun x => !serviceIds s.mod x.session) ∧ m.pi = s.mod.pi ∧ m.funcs = s.mod.funcs ∧ m.lanes = s.mod.lanes) ∧
    (k = 3 → completes (.tokenExpiry k) s fun m => after [] { s.mod with sec := { s.mod.sec with rmaTok := none } } m) ∧
    (k = 0 ∨ (k = 1 ∧ s.mod.sec.debugTok = none) ∨ (k = 2 ∧ s.mod.sec.serviceTok = none) →
      completes (.tokenExpiry k) s fun m => after [] s.mod m)) ∧
  (∀ s : State, s.mod.sec.lifecycleDue = true → ∃ t, exec .lifecycleReset s = .next t ∧ t.pending = s.pending ∧
    t.fuses = { s.fuses with eraseDue := false, keys := s.fuses.keys && !(s.fuses.eraseDue && s.fuses.lifecycle == 4) } ∧
    t.mod.funcs = [] ∧ t.mod.pi = [] ∧ t.mod.odp = Odp.reset ∧ t.mod.sec = Sec.reset ∧ t.mod.lanes = [] ∧ t.mod.power.stage = .off ∧
    t.mod.power.nextCause = 5 ∧ t.mod.power.outputs = false ∧ t.mod.agate = Agate.reset ∧
    (s.fuses.eraseDue = true → (s.fuses.lifecycle = 3 ∨ s.fuses.rows.tail.headD 0 = 3 ∨ s.fuses.lifecycle = 4) →
      t.mod.nv.anchors = [] ∧ t.mod.nv.bank0 = none ∧ t.mod.nv.bank1 = none ∧ t.mod.nv.ptr = none ∧ t.mod.nv.journal = [] ∧
      (s.fuses.lifecycle = 4 → t.mod.nv.store = [])) ∧
    (s.fuses.eraseDue = false → t.mod.nv = { s.mod.nv with powerUps := s.mod.nv.powerUps + 1 }) ∧
    t.mod.nv.flash0 = s.mod.nv.flash0 ∧ t.mod.nv.flash1 = s.mod.nv.flash1) ∧
  ∀ s : State, s.mod.sec.lifecycleDue = false → exec .lifecycleReset s = .next s

/-- A runtime slot passes the boot ROM's check (R475, R478). -/
def Sys2Proof.Machine.slotPasses (s : State) (k : Nat) : Prop := (sigCheck s.fuses 1 (s.mod.flash k) s.mod).1 = 0

/-- What boot leaves of the running machine. -/
def Sys2Proof.Machine.bootKeeps (s : State) (m : Module) : Prop :=
  m.pi = s.mod.pi ∧ m.odp = s.mod.odp ∧ m.loop = s.mod.loop ∧ m.disp = s.mod.disp ∧ m.slate = s.mod.slate ∧ m.flint = s.mod.flint ∧
    m.motion = s.mod.motion ∧ m.io = s.mod.io ∧ m.ports = s.mod.ports ∧ m.acq = s.mod.acq ∧ m.tick = s.mod.tick

/-- Boot phases 0 to 2. -/
def Obligations.RuntimeAndBootScan : Prop :=
  (∀ s : State, s.mod.power.stage = .run → s.mod.stat Ent.bootPhase = 0 → s.mod.power.recovery = false → s.fuses.lifecycle ≠ 4 → s.mod.nv.slotPref < 2 →
    ∃ t, exec .runtimeStart s = .next t ∧ t.pending = s.pending ∧ t.fuses = { s.fuses with eraseDue := false } ∧
      bootKeeps s t.mod ∧ t.mod.funcs = s.mod.funcs ∧ (s.fuses.lifecycle = 0 → t.mod.sec.level = 3) ∧
      (s.fuses.lifecycle ≠ 0 → t.mod.sec.level = s.mod.sec.level) ∧
      ((slotPasses s 0 ∨ slotPasses s 1) → ∃ k, k < 2 ∧ slotPasses s k ∧
        (∀ j, j < 2 → slotPasses s j → sigVersion (s.mod.flash j) ≤ sigVersion (s.mod.flash k)) ∧
        (slotPasses s 0 → slotPasses s 1 → sigVersion (s.mod.flash 0) = sigVersion (s.mod.flash 1) → k = s.mod.nv.slotPref) ∧
        t.mod.sec.slot = k ∧ t.mod.sec.runtimeSv = sigVersion (s.mod.flash k) ∧ t.mod.sec.measurement = sha384 (s.mod.flash k) ∧
        t.mod.stat Ent.bootPhase = 2 ∧ t.mod.power = s.mod.power) ∧
      (¬ slotPasses s 0 → ¬ slotPasses s 1 → t.mod.stat Ent.bootPhase = 1 ∧ t.mod.power = { s.mod.power with recovery := true })) ∧
  (∀ s : State, s.mod.stat Ent.bootPhase ≠ 0 ∨ s.mod.power.stage ≠ .run ∨ s.fuses.lifecycle = 4 ∨ s.mod.power.recovery = true →
    completes .runtimeStart s fun m => after [] s.mod m) ∧
  (∀ (s : State) (ok : Bool), s.mod.power.stage = .run → s.mod.stat Ent.bootPhase = 2 → s.mod.power.recovery = false →
    completes (.agateBootScan ok) s fun m => ∃ v, m = settle v ∧ bootKeeps s v ∧ v.funcs = s.mod.funcs ∧ v.stat Ent.bootPhase = 3 ∧ v.nv.clean = none ∧
      v.power = { s.mod.power with dramFault := !ok } ∧ (ok = true → v.stat Ent.bootFaults = s.mod.stat Ent.bootFaults) ∧
      (ok = false → v.stat Ent.bootFaults = Nat.lor (s.mod.stat Ent.bootFaults) 32) ∧
      (∃ e, e.source = fnAgate ∧ e.code = 0x0C04 ∧ v.agate.queue.map Rec.ev = e :: s.mod.agate.queue.map Rec.ev) ∧
      ∀ (i : Nat) (x : Rec), v.agate.queue[i]? = some x → x.seq = (v.agate.descr.base + v.agate.used + i) % 2 ^ 32) ∧
  ∀ (s : State) (ok : Bool), s.mod.stat Ent.bootPhase ≠ 2 → completes (.agateBootScan ok) s fun m => after [] s.mod m

/-- A bank that the pointer names well (R60, R62). -/
def Sys2Proof.Machine.pointsTo (m : Module) (k : Nat) : Prop :=
  ∃ p, m.nv.ptr = some p ∧ p.byte0 = k ∧ k ≤ 1 ∧ p.byte1 = 255 - k ∧ bankGood (m.bank k) = true

/-- One bank's sequence number is the newer, modulo 2^32 (R62). -/
def Sys2Proof.Machine.newerSeq (a b : Nat) : Prop := 0 < (a + 2 ^ 32 - b % 2 ^ 32) % 2 ^ 32 ∧ (a + 2 ^ 32 - b % 2 ^ 32) % 2 ^ 32 < 2 ^ 31

/-- Boot phases 3 to 6. -/
def Obligations.BankImagesStartsReady : Prop :=
  (∀ s : State, s.mod.power.stage = .run → s.mod.power.recovery = false →
    (s.mod.stat Ent.bootPhase = 3 → completes .configBankSelect s fun m =>
      bootKeeps s m ∧ m.stat Ent.bootPhase = 4 ∧ m.stat Ent.cfgBank0Valid = b01 (bankGood s.mod.nv.bank0) ∧
      m.stat Ent.cfgBank1Valid = b01 (bankGood s.mod.nv.bank1) ∧ m.nv = { s.mod.nv with saveOpen := false } ∧
      (s.mod.nv.saveOpen = true → m.stat Ent.cfgLastResult = stNvFail ∧ bit (m.stat Ent.bootFaults) 2 = true) ∧
      (∀ (k : Nat) (b : Bank), s.mod.bank k = some b → k ≤ 1 → bankGood (some b) = true →
        (pointsTo s.mod k ∨ ((∀ j, ¬ pointsTo s.mod j) ∧ ∀ (c : Bank), s.mod.bank (1 - k) = some c → bankGood (some c) = true →
          newerSeq b.seq c.seq ∨ (k = 0 ∧ ¬ newerSeq c.seq b.seq))) →
        m.stat Ent.cfgActiveBank = k ∧ m.stat Ent.cfgActiveSequence = b.seq ∧ m.bootRunning = b.body.running ∧
        (Sparse.risesFrom none b.body.rw = true → Sparse.risesFrom none b.body.rws = true →
          ∀ (j v : Nat), ((j, v) ∈ b.body.rw → m.cfg j = v ∧ m.shad j = v) ∧
            ((j, v) ∈ b.body.rws → (∀ e ∈ b.body.rw, e.1 ≠ j) → m.shad j = v ∧ m.cfg j = s.mod.cfg j))) ∧
      (bankGood s.mod.nv.bank0 = false → bankGood s.mod.nv.bank1 = false →
        m.stat Ent.cfgActiveBank = 0xFF ∧ bit (m.stat Ent.bootFaults) 1 = true ∧ m.bootRunning = s.mod.bootRunning ∧
        m.dict.live = s.mod.dict.live ∧ m.dict.shadow = s.mod.dict.shadow ∧ m.dict.liveB = s.mod.dict.liveB ∧ m.dict.shadowB = s.mod.dict.shadowB)) ∧
    (s.mod.stat Ent.bootPhase = 4 → completes .imageReverify s fun m =>
      bootKeeps s m ∧ m.stat Ent.bootPhase = 5 ∧ (∀ f, (m.fn f).st = (s.mod.fn f).st) ∧ m.dict.shadowB = s.mod.dict.shadowB ∧ m.dict.liveB = s.mod.dict.liveB ∧
      (∀ (f key kind : Nat), (f, key) ∈ bankImages → signedKind key = some kind → s.mod.shadB key ≠ [] →
        (sigCheck s.fuses kind (s.mod.shadB key) s.mod).1 ≠ 0 → (m.fn f).lastError = stSigFail ∧ bit (m.stat Ent.bootFaults) 3 = true) ∧
      ((∀ (f key kind : Nat), (f, key) ∈ bankImages → signedKind key = some kind → s.mod.shadB key ≠ [] →
        (sigCheck s.fuses kind (s.mod.shadB key) s.mod).1 = 0) → m.funcs = s.mod.funcs ∧ m.stat Ent.bootFaults = s.mod.stat Ent.bootFaults)) ∧
    (s.mod.stat Ent.bootPhase = 5 → s.mod.power.booted = false → ∀ rd : Fin 3, completes (.bootStartFunctions rd) s fun m =>
      m.power.booted = true ∧
      (rd = 1 → s.mod.red.hold = false → m.red.hold = false ∧ m.red.computing = false ∧ m.funcs = s.mod.funcs ∧ m.pi = s.mod.pi ∧ m.odp = s.mod.odp ∧
        m.tick = s.mod.tick ∧ m.sec = s.mod.sec ∧ m.stat Ent.bootPhase = 5) ∧
      (rd ≠ 1 → m.red.hold = true ∧ m.red.computing = true ∧
        (s.mod.power.dramFault = true ∨ s.mod.bootRunning.filter isFn = [] → m.funcs = s.mod.funcs ∧ m.stat Ent.bootStarted = 0 ∧ m.stat Ent.bootRefused = 0 ∧
          m.pi = s.mod.pi ∧ m.odp = s.mod.odp ∧ m.tick = s.mod.tick ∧ m.sec = s.mod.sec ∧ m.stat Ent.bootPhase = 5) ∧
        (s.mod.power.dramFault = false → m.stat Ent.bootStarted + m.stat Ent.bootRefused = (s.mod.bootRunning.filter isFn).length))) ∧
    (s.mod.stat Ent.bootPhase = 5 → s.mod.power.booted = true → ∀ ms : Nat, ms < 2 ^ 32 → completes (.ready ms) s fun m =>
      after [⟨0x0E00, 0x1201, 1 + notLocked s.mod, s.mod.now, s.mod.tick.epoch, padTo 28 (leBytes 4 ms ++ leBytes 2 (s.mod.stat Ent.bootFaults) ++
          leBytes 2 (s.mod.stat Ent.bootStarted) ++ leBytes 2 (s.mod.stat Ent.bootRefused) ++ leBytes 1 (s.mod.stat Ent.bootCause) ++ leBytes 1 s.mod.redState)⟩]
        (((s.mod.setStat Ent.bootReady 1).setStat Ent.bootReadyMs ms).setStat Ent.bootPhase 6) m)) ∧
  ∀ s : State,
    (s.mod.stat Ent.bootPhase ≠ 3 → completes .configBankSelect s fun m => after [] s.mod m) ∧
    (s.mod.stat Ent.bootPhase ≠ 4 → completes .imageReverify s fun m => after [] s.mod m) ∧
    (s.mod.stat Ent.bootPhase ≠ 5 ∨ s.mod.power.booted = true → ∀ rd : Fin 3, completes (.bootStartFunctions rd) s fun m => after [] s.mod m) ∧
    (s.mod.stat Ent.bootPhase ≠ 5 ∨ s.mod.power.booted = false → ∀ ms : Nat, completes (.ready ms) s fun m => after [] s.mod m)

/-! ### Clocks, power and insertion (chapters 15 and 17) -/

/-- A platform event with the bank energy of the last measurement and a free input voltage (R472). -/
def Sys2Proof.Machine.platformEvent (m : Module) (code detail step since mv : Nat) (v : Nat) : Event :=
  eventNow m 0xF00 code (leBytes 1 detail ++ leBytes 1 step ++ leBytes 4 (energyUj mv) ++ leBytes 4 v ++ leBytes 4 since)

/-- An event of the module's body (R510). -/
def Sys2Proof.Machine.bodyEvent (m : Module) (code detail charge : Nat) : Event :=
  eventNow m 0xF00 code (leBytes 1 detail ++ leBytes 4 (m.stat Ent.modPlateTemp) ++ leBytes 4 (m.stat Ent.modSocTemp) ++ leBytes 1 (m.stat Ent.modSlot) ++ leBytes 2 charge)

/-- The module with its clock stage at `st`. -/
def Sys2Proof.Machine.atStage (st : ClkStage) (m : Module) : Module := { m with power := { m.power with stage := st } }

/-- The monitor is armed when all four PLLs have locked and the management island runs from its own (R454). -/
def Sys2Proof.Machine.armedWhenDone (m : Module) : Prop :=
  (m.stat Ent.clkPllLock = 15 ∧ m.power.onPll.contains .mgmt = true → m.power.stage = .run ∧ m.stat Ent.clkMonitorArmed = 1 ∧ m.stat Ent.clkSource = 1) ∧
  (¬ (m.stat Ent.clkPllLock = 15 ∧ m.power.onPll.contains .mgmt = true) → m.power.stage = .plls)

/-- The clock rows. -/
def Obligations.ClocksStartAndTrip : Prop :=
  ∀ s : State,
    (s.mod.power.stage = .off → s.mod.power.insertion = .released → s.mod.power.pwrOk = true → completes .powerOn s fun m =>
      after (if range 1 3 s.mod.power.nextCause then [bodyEvent s.mod 0x1104 s.mod.power.nextCause (s.mod.stat Ent.modChargeMs)] else [])
        ((atStage .rcCount s.mod).setStat Ent.bootCause s.mod.power.nextCause) m) ∧
    (s.mod.power.stage ≠ .off ∨ s.mod.power.insertion ≠ .released ∨ s.mod.power.pwrOk = false → completes .powerOn s fun m => after [] s.mod m) ∧
    completes .rcCountComplete s (fun m => m = if s.mod.power.stage = .rcCount then (atStage .tcxoCount s.mod).setStat Ent.clkTcxoAttempts 1 else s.mod) ∧
    completes .tcxoCountComplete s (fun m => m = if s.mod.power.stage = .tcxoCount then atStage .plls s.mod else s.mod) ∧
    (s.mod.power.stage = .tcxoCount → completes .tcxoAttemptFail s fun m =>
      let n := s.mod.stat Ent.clkTcxoAttempts
      let ev := fun (code d v : Nat) => platformEvent s.mod code d (s.mod.stat Ent.clkStep) 0 (s.mod.stat Ent.pwrBankMv) v
      (n < 4 → ∃ v, after [ev 0x0F06 n v] ({ s.mod with free := s.mod.free + 1 }.setStat Ent.clkTcxoAttempts (n + 1)) m) ∧
      (4 ≤ n → (∃ v w, raisedIn s.mod [ev 0x0F06 n v, ev 0x0F05 1 w] m) ∧ m.power = { s.mod.power with stage := .run } ∧ m.stat Ent.clkFault = 1 ∧
        m.stat Ent.clkSource = 0 ∧ m.tick = { s.mod.tick with periodPs := 62500 } ∧ bit (m.stat Ent.bootFaults) 0 = true ∧ m.funcs = s.mod.funcs ∧ m.pi = s.mod.pi)) ∧
    (s.mod.power.stage ≠ .tcxoCount → completes .tcxoAttemptFail s fun m => after [] s.mod m) ∧
    (∀ p : Fin 4, s.mod.power.stage = .plls → bit (s.mod.stat Ent.clkPllLock) p = false → completes (.pllLock p) s fun m =>
      m.stat Ent.clkPllLock = s.mod.stat Ent.clkPllLock + 2 ^ p.val ∧ armedWhenDone m ∧
      m.power.onPll = s.mod.power.onPll ++ pllIslands p ∧
      m.power.switching = s.mod.power.switching ++ (if p = 0 then [.mgmt] else []) ∧
      m = { s.mod with power := m.power, dict := { s.mod.dict with stat := m.dict.stat } }) ∧
    (∀ p : Fin 4, s.mod.power.stage ≠ .plls ∨ bit (s.mod.stat Ent.clkPllLock) p = true → completes (.pllLock p) s (· = s.mod)) ∧
    (∀ i : Island, s.mod.power.switching.contains i = true → completes (.domainSwitchComplete i) s fun m =>
      m.power.switching = s.mod.power.switching.filter (· != i) ∧ m.stat Ent.clkSwitches = countedBy 1 Ent.clkSwitches s.mod ∧
      (i = .mgmt → s.mod.power.stage = .plls → armedWhenDone m) ∧
      (i = .loop → s.mod.cfault = false → m.tick = { s.mod.tick with periodPs := 5000 * 2 ^ s.mod.stat Ent.clkStep } ∧
        m.time = { s.mod.time with ctr := s.mod.time.ctr + (3 * s.mod.tick.periodPs + 5 * m.tick.periodPs) * s.mod.time.incr / 8000 }) ∧
      m.pi = s.mod.pi ∧ m.funcs = s.mod.funcs ∧ m.agate = s.mod.agate ∧ m.red = s.mod.red) ∧
    (∀ i : Island, s.mod.power.switching.contains i = false → completes (.domainSwitchComplete i) s (· = s.mod)) ∧
    (∀ pll : Bool, s.mod.stat Ent.clkMonitorArmed ≠ 0 → s.mod.cfault = false → completes (.clockMonitorTrip pll) s fun m =>
      let k := s.mod.stat Ent.clkStep
      m.stat Ent.clkFault = 1 ∧ m.stat Ent.clkSource = 2 ∧ m.stat Ent.clkPllLock = 0 ∧ m.tick.disc = .stretched ∧
      5828 * 2 ^ k ≤ m.tick.periodPs ∧ m.tick.periodPs ≤ 7122 * 2 ^ k ∧
      (s.mod.time.st = .locked ∨ s.mod.time.st = .acquiring ∨ s.mod.time.st = .master → m.time.st = .holdover) ∧
      (s.mod.time.st ≠ .locked → s.mod.time.st ≠ .acquiring → s.mod.time.st ≠ .master → m.time = s.mod.time) ∧
      (∃ x e, m = settle x ∧ e ∈ x.agate.raised ∧ e.source = 0xF00 ∧ e.code = 0x0F05 ∧ e.body[0]? = some (BitVec.ofNat 8 (if pll then 2 else 1))) ∧
      m.pi = s.mod.pi ∧ m.funcs = s.mod.funcs ∧ m.lanes = s.mod.lanes ∧ m.flint = s.mod.flint ∧ m.motion = s.mod.motion ∧ m.power = s.mod.power) ∧
    (∀ pll : Bool, s.mod.stat Ent.clkMonitorArmed = 0 ∨ s.mod.cfault = true → completes (.clockMonitorTrip pll) s fun m => after [] s.mod m) ∧
    (s.mod.stat Ent.clkRcFault = 0 → completes .rcFault s fun m => ∃ v,
      after [platformEvent s.mod 0x0F05 3 (s.mod.stat Ent.clkStep) 0 (s.mod.stat Ent.pwrBankMv) v] ({ s.mod with free := s.mod.free + 1 }.setStat Ent.clkRcFault 1) m) ∧
    (s.mod.stat Ent.clkRcFault ≠ 0 → completes .rcFault s fun m => after [] s.mod m)

/-- The module in phase PERSIST, entered just now (R468). -/
def Sys2Proof.Machine.persists (s : State) (m : Module) : Prop :=
  m.power.ride = .persist ∧ m.power.outputs = false ∧ m.io.doLatch = 0 ∧ m.acq.trigOut = 0 ∧ m.red.hold = false ∧ m.red.computing = false ∧
    m.tick.disc = .stretched ∧ m.stat Ent.pwrState = 5 ∧ (∀ b, b < 14 → b ≠ 0 → b ≠ 1 → b ≠ 13 → m.stat (Ent.gateGated b) = 1) ∧
    (∀ c, c ∈ upChans s.mod → (m.chan c).stage = false) ∧ m.funcs = s.mod.funcs ∧ m.pi = s.mod.pi ∧ m.flint = s.mod.flint ∧
    m.motion = s.mod.motion ∧ m.slate = s.mod.slate ∧ m.loop = s.mod.loop ∧
    ∃ x e, m = settle x ∧ e ∈ x.agate.raised ∧ e.source = 0xF00 ∧ e.code = 0x0F02

/-- The module after a reset for a cause (R511, R513). -/
def Sys2Proof.Machine.resetFor (cause : Nat) (s : State) (m : Module) : Prop :=
  m.funcs = [] ∧ m.pi = [] ∧ m.odp = Odp.reset ∧ m.sec = Sec.reset ∧ m.lanes = [] ∧ m.power.stage = .off ∧ m.power.ride = .none ∧ m.power.outputs = false ∧
    m.power.nextCause = cause ∧ m.red.hold = false ∧ m.red.driving = true ∧ m.tick.epoch = none ∧ m.nv.powerUps = s.mod.nv.powerUps + 1 ∧
    m.nv.bank0 = s.mod.nv.bank0 ∧ m.nv.bank1 = s.mod.nv.bank1 ∧ m.nv.store = s.mod.nv.store ∧ m.nv.anchors = s.mod.nv.anchors

/-- Step `k` meets R469's test for the work left and the energy. -/
def Sys2Proof.Machine.stepMeets (work e k : Nat) : Prop := (if k = 0 then 120 else if k = 1 then 70 else 45) * work + 2560000 ≤ 128 * e

/-- The ride-through rows. -/
def Obligations.RideThrough : Prop :=
  ∀ s : State,
    (∀ mv : Nat, s.mod.power.ride = .none → completes (.pfail mv) s fun m =>
      (s.mod.stat Ent.pwrState ≠ 2 → s.mod.stat Ent.bootReady ≠ 0 →
        m.power = { s.mod.power with ride := .full, prevState := s.mod.stat Ent.pwrState, sincePfail := 0, inputGood := false } ∧
        m.stat Ent.pwrState = 5 ∧ m.stat Ent.pwrBankMv = mv ∧ m.stat Ent.pwrRidethroughs = countedBy 1 Ent.pwrRidethroughs s.mod ∧ m.odp = { s.mod.odp with save := none } ∧
        m.sec.level = min s.mod.sec.level 1 ∧ m.pi = s.mod.pi ∧ m.funcs = s.mod.funcs ∧ m.loop = s.mod.loop ∧ m.tick = s.mod.tick ∧ m.io = s.mod.io ∧
        (∃ x e, m = settle x ∧ e ∈ x.agate.raised ∧ e.source = 0xF00 ∧ e.code = 0x0F01) ∧
        m.red.releaseDue = (if mayRelease s.mod = true ∧ s.mod.red.releaseDue = none then some 2 else s.mod.red.releaseDue)) ∧
      (s.mod.stat Ent.pwrState = 2 ∨ s.mod.stat Ent.bootReady = 0 → m.power.ride = .persist ∧ m.power.outputs = false ∧ m.red.hold = false ∧ m.tick.disc = .stretched)) ∧
    (∀ mv : Nat, s.mod.power.ride ≠ .none → completes (.pfail mv) s fun m => after [] s.mod m) ∧
    (s.mod.power.ride = .full → completes .fullTimeout s (persists s)) ∧
    (s.mod.power.ride ≠ .full → completes .fullTimeout s fun m => after [] s.mod m) ∧
    (∀ mv : Nat, completes (.bankMeasurement mv) s fun m => m.stat Ent.pwrBankMv = mv ∧ m.stat Ent.pwrBankUj = energyUj mv ∧
      (s.mod.power.ride = .full → energyUj mv ≤ 132500 → persists s m) ∧
      (s.mod.power.ride = .full → 132500 < energyUj mv → m.power = { s.mod.power with sincePfail := s.mod.power.sincePfail + 10 } ∧ m.tick = s.mod.tick ∧
        m.pi = s.mod.pi ∧ m.red = s.mod.red) ∧
      (s.mod.power.ride = .persist → s.mod.stat Ent.clkStep ≤ 2 →
        let d := min 128 s.mod.power.journalBytes
        let k := m.stat Ent.clkStep
        m.power.journalBytes = s.mod.power.journalBytes - d ∧ m.power.workBytes = s.mod.power.workBytes - d ∧ m.power.ride = .persist ∧
        s.mod.stat Ent.clkStep ≤ k ∧ k ≤ 2 ∧ (k = 2 ∨ stepMeets m.power.workBytes (energyUj mv) k) ∧
        (∀ j, s.mod.stat Ent.clkStep ≤ j → j < k → ¬ stepMeets m.power.workBytes (energyUj mv) j) ∧ m.pi = s.mod.pi ∧ m.funcs = s.mod.funcs) ∧
      (s.mod.power.ride = .none ∨ s.mod.power.ride = .held → ∃ v, m = settle v ∧ v = (s.mod.setStat Ent.pwrBankMv mv).setStat Ent.pwrBankUj (energyUj mv))) ∧
    (s.mod.power.ride = .persist → s.mod.agate.queue = [] → s.mod.agate.raised = [] → completes .persistComplete s fun m =>
      m.nv.clean = some ⟨s.mod.now, s.mod.power.nextCause, s.mod.power.persistUs, s.mod.energy, s.mod.stat Ent.pwrLastMinStep⟩ ∧
      (s.mod.power.inputGood = true → s.mod.power.thermalHold = false → s.mod.power.insertion = .released → resetFor 3 s m) ∧
      (¬ (s.mod.power.inputGood = true ∧ s.mod.power.thermalHold = false ∧ s.mod.power.insertion = .released) →
        m.power = { s.mod.power with ride := .held, workBytes := 0, journalBytes := 0 } ∧ ∀ b, b < 14 → m.stat (Ent.gateGated b) = 1)) ∧
    (s.mod.power.ride ≠ .persist ∨ s.mod.agate.queue ≠ [] → completes .persistComplete s fun m => after [] s.mod m) ∧
    completes .inputRestored s (fun m =>
      (s.mod.power.ride = .full → m.power = { s.mod.power with ride := .none, inputGood := true } ∧ m.stat Ent.pwrState = s.mod.power.prevState ∧
        m.pi = s.mod.pi ∧ m.funcs = s.mod.funcs ∧ m.tick = s.mod.tick ∧ m.red.hold = s.mod.red.hold ∧ m.red.st = s.mod.red.st ∧
        ∃ v, raisedIn s.mod [platformEvent s.mod 0x0F04 0 (s.mod.stat Ent.clkStep) s.mod.power.sincePfail (s.mod.stat Ent.pwrBankMv) v] m) ∧
      (s.mod.power.ride = .persist → after [] { s.mod with power := { s.mod.power with inputGood := true } } m) ∧
      (s.mod.power.ride = .held → s.mod.power.thermalHold = false → s.mod.power.insertion = .released → resetFor 3 s m) ∧
      (s.mod.power.ride = .held → (s.mod.power.thermalHold = true ∨ s.mod.power.insertion ≠ .released) →
        after [] { s.mod with power := { s.mod.power with inputGood := true } } m) ∧
      (s.mod.power.ride = .none → after [] s.mod m)) ∧
    completes .bankExhausted s (fun m =>
      (s.mod.power.ride = .persist ∨ s.mod.power.ride = .held → m.power.pwrOk = false ∧ m.power.stage = .off ∧ m.red.driving = false ∧ m.funcs = [] ∧ m.pi = [] ∧
        m.nv = s.mod.nv ∧ m.cal = s.mod.cal) ∧
      (s.mod.power.ride = .none ∨ s.mod.power.ride = .full → m = s.mod)) ∧
    completes .uncorrectableEccError s fun m =>
      m = if mayRelease s.mod = true ∧ s.mod.red.releaseDue = none then { s.mod with red := { s.mod.red with releaseDue := some 4 } } else s.mod

/-- The module with its insertion, charger and ideal diode as named. -/
def Sys2Proof.Machine.bayAt (i : Insertion) (charger diode : Bool) (m : Module) : Module :=
  { m with power := { m.power with insertion := i, charger := charger, diode := diode } }

/-- Gating, DEEP, thermal and insertion rows. -/
def Obligations.GatesDeepThermalInsertion : Prop :=
  ∀ s : State,
    (∀ b : Fin 14, completes (.selfGate b) s fun m =>
      m = if permitted s.mod (s.mod.stat Ent.pwrState) b = true then s.mod.setStat (Ent.gateGated b) 1 else s.mod) ∧
    (∀ (b : Fin 14) (d : Nat), completes (.gateAck b d) s fun m =>
      (s.mod.power.gateReq.contains b.val = true → m.power = { s.mod.power with gateReq := s.mod.power.gateReq.filter (· != b.val) } ∧
        m.stat (Ent.gateGated b) = 1 ∧ m.stat (Ent.gateMaxDefer b) = max (s.mod.stat (Ent.gateMaxDefer b)) (min d 65535) ∧
        m = { s.mod with power := m.power, dict := { s.mod.dict with stat := m.dict.stat } }) ∧
      (s.mod.power.gateReq.contains b.val = false → m = s.mod)) ∧
    (s.mod.power.deepEntry = true → s.mod.stat Ent.pwrState ≠ 2 → completes .deepEntered s fun m =>
      m.power.deepEntry = false ∧ m.stat Ent.pwrState = 2 ∧ m.sec.level = 0 ∧ m.sec.debugTok = none ∧ m.sec.serviceTok = none ∧ m.sec.rmaTok = none ∧
      (∃ x e, m = settle x ∧ e ∈ x.agate.raised ∧ e.source = 0xF00 ∧ e.code = 0x0F07) ∧ m.pi = s.mod.pi ∧ m.funcs = s.mod.funcs ∧ m.nv = s.mod.nv) ∧
    (s.mod.power.deepEntry = false → completes .deepEntered s fun m => after [] s.mod m) ∧
    (∀ k : Fin 5, completes (.wakeSource k) s fun m =>
      (bit (s.mod.cfg Ent.pwrWakeMask) k = true → s.mod.power.deepEntry = true → after [] { s.mod with power := { s.mod.power with deepEntry := false } } m) ∧
      (bit (s.mod.cfg Ent.pwrWakeMask) k = true → s.mod.power.deepEntry = false → s.mod.stat Ent.pwrState = 2 →
        m.stat Ent.pwrState = 1 ∧ m.stat Ent.pwrLastWake = k ∧ m.pi = s.mod.pi ∧ m.funcs = s.mod.funcs ∧
        ∃ x e, m = settle x ∧ e ∈ x.agate.raised ∧ e.source = 0xF00 ∧ e.code = 0x0F07 ∧ e.body.take 2 = leBytes 1 1 ++ leBytes 1 k) ∧
      (bit (s.mod.cfg Ent.pwrWakeMask) k = false ∨ (s.mod.power.deepEntry = false ∧ s.mod.stat Ent.pwrState ≠ 2) → after [] s.mod m)) ∧
    (∀ plate soc : Int, completes (.thermalWarning plate soc) s fun m =>
      let lim := s.mod.cfgI32 Ent.modThermalWarn
      let was := s.mod.stat Ent.modThermal
      (was = 0 → m.stat Ent.modThermal = if lim ≤ plate then 1 else 0) ∧
      (was = 1 → m.stat Ent.modThermal = if plate ≤ lim - 2000 then 0 else 1) ∧
      m.stat Ent.modPlateTemp = uint 32 plate ∧ m.stat Ent.modSocTemp = uint 32 soc ∧
      (∃ evs, raisedIn s.mod evs m ∧ (was ≤ 1 → (evs = [] ↔ m.stat Ent.modThermal = was)) ∧ ∀ e ∈ evs, e.code = 0x1101) ∧
      m.pi = s.mod.pi ∧ m.funcs = s.mod.funcs ∧ m.power = s.mod.power) ∧
    (∀ (j : Bool) (plate soc : Int), s.mod.power.ride = .none ∨ s.mod.power.ride = .full → s.mod.power.thermalHold = false →
      completes (.thermalTrip j plate soc) s fun m => persists s m ∧ m.power.thermalHold = true ∧
        ∃ x e, m = settle x ∧ e ∈ x.agate.raised ∧ e.source = 0xF00 ∧ e.code = 0x1102 ∧ e.body[0]? = some (if j then 2#8 else 1#8)) ∧
    (∀ (j : Bool) (plate soc : Int), s.mod.power.ride = .held ∨ s.mod.power.thermalHold = true → completes (.thermalTrip j plate soc) s fun m => after [] s.mod m) ∧
    (∀ plate soc : Int, s.mod.power.ride = .held → s.mod.power.thermalHold = true → s.mod.power.insertion = .released → plate < 65000 →
      completes (.thermalCooldown plate soc) s (resetFor 2 s)) ∧
    (∀ plate soc : Int, s.mod.power.ride ≠ .held ∨ s.mod.power.thermalHold = false ∨ 65000 ≤ plate → completes (.thermalCooldown plate soc) s fun m => after [] s.mod m) ∧
    ((s.mod.power.insertion = .out ∨ s.mod.power.insertion = .seated ∨ (s.mod.power.insertion = .removed ∧ s.mod.power.ride = .held) →
        completes .chargeStart s (· = bayAt .charging true s.mod.power.diode s.mod)) ∧
      (s.mod.power.insertion = .charging ∨ s.mod.power.insertion = .charged ∨ s.mod.power.insertion = .rails → completes .insertionAbandoned s fun m =>
        m = { bayAt .out false false s.mod with nv := { s.mod.nv with aborted := s.mod.nv.aborted + 1 } }) ∧
      (s.mod.power.insertion = .released → ∀ c : Instr, (c = .chargeStart ∨ c = .insertionAbandoned ∨ c = .resetRelease ∨ (∃ n, c = .bankCharged n) ∨ ∃ k, c = .railsGood k) →
        completes c s (· = s.mod)) ∧
      (∀ ms : Nat, s.mod.power.insertion = .charging → completes (.bankCharged ms) s (· = (bayAt .charged false true s.mod).setStat Ent.modChargeMs (min ms 65535))) ∧
      (∀ k : Fin 16, s.mod.power.insertion = .charged → completes (.railsGood k) s fun m => m.stat Ent.modSlot = k ∧ m.power.insertion = .rails ∧ m.power.gneissMain = true ∧
        m.red = { s.mod.red with driving := true, hold := false } ∧ m.nv = s.mod.nv) ∧
      (s.mod.power.insertion = .rails → completes .resetRelease s fun m => resetFor 1 s m ∧ m.power.insertion = .released ∧ m.power.pwrOk = true ∧
        m.stat Ent.modSlot = s.mod.stat Ent.modSlot)) ∧
    (∀ k : Fin 2, s.mod.power.insertion = .released → s.mod.power.ride = .none ∨ s.mod.power.ride = .full → completes (.removal k) s fun m => persists s m ∧
      m.power.insertion = .removed ∧ m.power.pwrOk = false ∧ m.power.diode = false ∧ m.nv.removals = s.mod.nv.removals + 1 ∧
      bit (m.stat Ent.modPresent) k = false ∧ ∃ x e, m = settle x ∧ e ∈ x.agate.raised ∧ e.source = 0xF00 ∧ e.code = 0x1103) ∧
    (∀ k : Fin 2, s.mod.power.insertion ≠ .released → completes (.removal k) s fun m => after [] s.mod m) ∧
    (∀ k : Fin 2, completes (.presentNGlitch k) s fun m => m = s.mod.setStat Ent.modPresentGlitches (countedBy 1 Ent.modPresentGlitches s.mod))

/-! ### Time, PTP and the calendar (chapter 13) -/

/-- What a row of the time unit may change: the unit, the calendar, the tick's discipline, shown values, and what recording and sending change. -/
def Sys2Proof.Machine.timeKeeps (v m : Module) : Prop :=
  m.pi = v.pi ∧ m.funcs = v.funcs ∧ m.odp = v.odp ∧ m.loop = v.loop ∧ m.lanes = v.lanes ∧ m.disp = v.disp ∧ m.slate = v.slate ∧ m.flint = v.flint ∧
    m.motion = v.motion ∧ m.io = v.io ∧ m.ports = v.ports ∧ m.acq = v.acq ∧ m.power = v.power ∧ m.sec = v.sec ∧ m.nv = v.nv ∧ m.free = v.free ∧
    m.tick = { v.tick with disc := m.tick.disc } ∧ m.dict.liveB = v.dict.liveB ∧ m.dict.shadowB = v.dict.shadowB

/-- An event of the time unit is among those raised. -/
def Sys2Proof.Machine.timeRaised (code detail : Nat) (m : Module) : Prop :=
  ∃ x e, m = settle x ∧ e ∈ x.agate.raised ∧ e.source = fnTime ∧ e.code = code ∧ e.body[1]? = some (BitVec.ofNat 8 detail)

/-- The threshold is the plain one: no HOLDOVER lies behind (R405). -/
def Sys2Proof.Machine.plainThreshold (v : Module) : Prop := v.time.accept = false ∧ v.time.holdSince = none ∧ v.time.holdNs = none

/-- R403's clamp to ±100,000 ppb. -/
def Sys2Proof.Machine.ppb (r : Rat) : Rat := max (-100000) (min 100000 r)

/-- The increment of a rate: rounded half toward +∞, held within R397's limits. -/
def Sys2Proof.Machine.incrOf (r : Rat) : Nat := (max 34356302395 (min 34363174341 (34359738368 * (1 + r / 1000000000) + 1 / 2).floor)).toNat

/-- The counter stepped by `d` ns (R402): its fraction kept, the calendar rewritten, 0D04h. -/
def Sys2Proof.Machine.steppedBy (d : Int) (v m : Module) (detail : Nat) : Prop :=
  (m.time.ctr : Int) = max 0 ((v.time.ctr : Int) + d * 2 ^ 32) ∧ m.cal.lost = false ∧ m.cal.sec = m.nowNs / 1000000000 ∧ timeRaised 0x0D04 detail m

/-- An offset measurement `o` made in module `v` has left `m` (R402, R403, R405, R406). -/
def Sys2Proof.Machine.measuredAs (o : Int) (v m : Module) : Prop :=
  let limit := v.cfg Ent.timeJumpThreshold
  let window := v.cfg Ent.timeLockWindow
  timeKeeps v m ∧ m.time.offset = o ∧ m.time.lastMeas = some m.time.ctr ∧ m.stat Ent.timeOffset = uint 32 (max (-(2 ^ 31)) (min o (2 ^ 31 - 1))) ∧
  (v.time.accept = true → steppedBy (-o) v m 2 ∧ m.time.st = .acquiring ∧ m.time.gmJump = false ∧ m.time.accept = false) ∧
  (plainThreshold v → v.time.st = .locked → o.natAbs ≤ limit → m.time.st = .locked ∧ m.time.ctr = v.time.ctr ∧ m.time.jumpRun = 0 ∧ m.time.gmJump = false ∧
    ∀ c, v.time.lastMeas = some c → c < v.time.ctr →
      let t : Rat := ((v.time.ctr - c : Nat) : Rat) / (2 ^ 32 * 1000000000)
      m.time.acc = ppb (v.time.acc + f32Value (v.cfg Ent.ptpServoKi) * o) ∧
      m.time.rate = ppb (-(f32Value (v.cfg Ent.ptpServoKp) * o / t) - m.time.acc) ∧ m.time.incr = incrOf m.time.rate) ∧
  (plainThreshold v → v.time.st = .locked → limit < o.natAbs → v.time.gmJump = false →
    m.time.acc = v.time.acc ∧ m.time.rate = v.time.rate ∧ m.time.ctr = v.time.ctr ∧ m.time.jumpRun = v.time.jumpRun + 1 ∧
    m.stat Ent.timeOutliers = countedBy 1 Ent.timeOutliers v ∧
    (v.time.jumpRun + 1 < v.cfg Ent.timeJumpCount → m.time.st = .locked ∧ m.time.incr = v.time.incr ∧ m.time.gmJump = false) ∧
    (v.cfg Ent.timeJumpCount ≤ v.time.jumpRun + 1 → m.time.st = .holdover ∧ m.time.gmJump = true ∧ m.time.pendStep = -o ∧ timeRaised 0x0D03 0 m ∧
      m.time.incr = (if v.time.outs = [] then v.time.incr else v.time.outs.sum / v.time.outs.length))) ∧
  (plainThreshold v → v.time.st = .acquiring → v.time.stepped = true → o.natAbs ≤ limit → o.natAbs < window →
    (v.time.lockRun < 15 → m.time.st = .acquiring ∧ m.time.lockRun = v.time.lockRun + 1) ∧
    (v.time.lockRun = 15 → m.time.st = .locked ∧ m.time.source = 4 ∧ timeRaised 0x0D01 0 m)) ∧
  (plainThreshold v → v.time.st = .acquiring → v.time.stepped = false → v.stopped fnEngine = true → ∀ a b, v.time.agree = [a, b] →
    max o (max a b) - min o (min a b) ≤ window → steppedBy (-o) v m 1 ∧ m.time.st = .acquiring ∧ m.time.stepped = true)

/-- The mean path delay (R403). -/
def Sys2Proof.Machine.pathDelay (v : Module) : Int := v.time.delays.sum / v.time.delays.length

/-- A message of the current master, on the active port and in the domain, with the port running. -/
def Sys2Proof.Machine.masterSent (s : State) (x : PtpMsg) : Prop :=
  s.mod.running fnTime = true ∧ x.domain = s.mod.cfg Ent.ptpDomain ∧ s.mod.stat Ent.ptpPortActive = x.link.val ∧
    ∃ a, s.mod.time.master = some a ∧ a.identity = x.identity ∧ a.port = x.port

/-- The module with the message's stamp counted (R398). -/
def Sys2Proof.Machine.stampedOn (link : Nat) (m : Module) : Module := m.setStat (Ent.ptpLinkStamps link) (countedBy 1 (Ent.ptpLinkStamps link) m)

/-- The PTP slave. -/
def Obligations.PtpMeasures : Prop :=
  (∀ (s : State) (x : PtpMsg), masterSent s x → s.mod.agate.raised = [] →
    let t2 : Int := ((s.mod.nowNs : Int) * 1000 - s.mod.cfg (Ent.ptpLinkIngress x.link)) / 1000
    let corr : Int := x.correction / 65536
    (x.twoStep = true → completes (.ptpSync x) s fun m =>
      m.time = { s.mod.time with sync := some ⟨x.seq, t2, corr⟩ } ∧ timeKeeps s.mod m ∧ m.stat Ent.ptpSyncRx = countedBy 1 Ent.ptpSyncRx s.mod) ∧
    (x.twoStep = false → s.mod.time.delays ≠ [] → completes (.ptpSync x) s fun m =>
      ∃ v, measuredAs (t2 - x.origin - corr - pathDelay s.mod) v m ∧ timeKeeps s.mod m ∧
        v.time = { s.mod.time with sync := none, msDiff := some (t2 - x.origin - corr) } ∧ v.dict.live = s.mod.dict.live ∧ v.funcs = s.mod.funcs) ∧
    (x.twoStep = false → s.mod.time.delays = [] → completes (.ptpSync x) s fun m =>
      m.time = { s.mod.time with sync := none, msDiff := some (t2 - x.origin - corr) } ∧ timeKeeps s.mod m) ∧
    (∀ p : PendSync, s.mod.time.sync = some p → p.seq = x.seq → s.mod.time.delays ≠ [] → completes (.ptpFollowUp x) s fun m =>
      measuredAs (p.t2 - x.origin - (p.corr + corr) - pathDelay s.mod)
        { s.mod with time := { s.mod.time with sync := none, msDiff := some (p.t2 - x.origin - (p.corr + corr)) } } m) ∧
    ((∀ p : PendSync, s.mod.time.sync = some p → p.seq ≠ x.seq) → completes (.ptpFollowUp x) s fun m => after [] s.mod m) ∧
    (∀ (seq : Nat) (t3 d : Int), x.toIdentity = Config.clockIdentity → s.mod.time.dreq = some (seq, t3) → s.mod.time.msDiff = some d → x.seq = seq →
      let delay := (d + (x.origin - t3 - corr)) / 2
      completes (.ptpDelayResp x) s fun m =>
        m.time.delays = (delay :: s.mod.time.delays).take 16 ∧ m.time.dreq = none ∧ timeKeeps s.mod m ∧
        (s.mod.time.delays = [] → ∃ v, measuredAs (d - delay) v m ∧ v.time = { s.mod.time with delays := [delay], dreq := none } ∧
          v.dict.live = s.mod.dict.live ∧ v.funcs = s.mod.funcs) ∧
        (s.mod.time.delays ≠ [] → m.time = { s.mod.time with delays := m.time.delays, dreq := none })) ∧
    (x.toIdentity ≠ Config.clockIdentity ∨ s.mod.time.dreq = none → completes (.ptpDelayResp x) s fun m => after [] s.mod m)) ∧
  (∀ (s : State) (x : PtpMsg), ¬ masterSent s x →
    completes (.ptpSync x) s (fun m => after [] (if s.mod.running fnTime then stampedOn x.link s.mod else s.mod) m) ∧
    completes (.ptpFollowUp x) s (fun m => after [] s.mod m) ∧ completes (.ptpDelayResp x) s fun m => after [] s.mod m) ∧
  ∀ s : State,
    (s.mod.running fnTime = true → s.mod.time.master.isSome = true → s.mod.time.st ≠ .master → completes .delayReqTransmit s fun m =>
      let link := s.mod.stat Ent.ptpPortActive
      let t3 : Int := ((s.mod.nowNs : Int) * 1000 + s.mod.cfg (Ent.ptpLinkEgress link)) / 1000
      after [] (stampedOn link { s.mod with
        time := { s.mod.time with dreq := some (s.mod.time.dreqSeq, t3), dreqSeq := (s.mod.time.dreqSeq + 1) % 65536 }
        out := s.mod.out ++ [.ptp link 1 s.mod.time.dreqSeq t3 0] }) m) ∧
    (s.mod.running fnTime = false ∨ s.mod.time.master = none ∨ s.mod.time.st = .master → completes .delayReqTransmit s fun m => after [] s.mod m)

/-- Announces heard within the announce timeout on a link (R401). -/
def Sys2Proof.Machine.freshOn (m : Module) (link : Nat) (l : List (Nat × Announce)) : List Announce :=
  ((l.filter fun x => decide (m.nowNs ≤ x.1 + m.cfg Ent.ptpAnnounceTimeout * 2 ^ (m.cfg Ent.ptpLogAnnounce % 8) * 1000000000)).map Prod.snd).filter fun a => a.link.val == link

/-- The announces heard, with one that arrives now in place of its sender's last. -/
def Sys2Proof.Machine.heardWith (m : Module) (a : Announce) : List (Nat × Announce) :=
  (m.nowNs, a) :: m.time.heard.filter fun x => !(x.2.link == a.link && x.2.identity == a.identity && x.2.port == a.port)

/-- An announce that stands first by the best master clock algorithm. -/
def Sys2Proof.Machine.firstOf (l : List Announce) (b : Option Announce) : Prop :=
  match b with
  | some x => x ∈ l ∧ ∀ y ∈ l, ¬ masterRank y < masterRank x
  | none => l = []

/-- Master selection, grandmaster, calendar and leap. -/
def Obligations.MastersAndCalendar : Prop :=
  (∀ (s : State) (a : Announce), s.mod.running fnTime = true → a.domain = s.mod.cfg Ent.ptpDomain → a.identity ≠ Config.clockIdentity → a.ptpScale = true →
    s.mod.cfg Ent.ptpPortSelect ≤ 2 → completes (.ptpAnnounce a) s fun m =>
      let l := freshOn s.mod (s.mod.cfg Ent.ptpPortSelect) (heardWith s.mod a)
      timeKeeps s.mod m ∧ m.time.heard = heardWith s.mod a ∧ m.stat Ent.ptpPortActive = s.mod.cfg Ent.ptpPortSelect ∧ m.time.ctr = s.mod.time.ctr ∧
      (s.mod.cfg Ent.ptpMode ≠ 1 → firstOf l m.time.master ∧ (s.mod.time.st ≠ .master → m.time.st = s.mod.time.st)) ∧
      (s.mod.cfg Ent.ptpMode = 1 → (∀ b ∈ l, ownRank s.mod < masterRank b) → m.time.st = .master ∧ (s.mod.time.st ≠ .master → m.time.master = none ∧ timeRaised 0x0D0A 0 m)) ∧
      (m.time.master = some a → m.stat Ent.timeUtcValid = b01 a.utcValid ∧ (a.utcValid = true → m.cfg Ent.timeUtcOffset = uint 32 a.utcOffset))) ∧
  (∀ (s : State) (a : Announce),
    (s.mod.running fnTime = true → a.domain = s.mod.cfg Ent.ptpDomain → a.identity ≠ Config.clockIdentity → a.ptpScale = false → completes (.ptpAnnounce a) s fun m =>
      after [] (s.mod.setStat Ent.timeOutliers (countedBy 1 Ent.timeOutliers s.mod)) m) ∧
    (s.mod.running fnTime = false ∨ a.domain ≠ s.mod.cfg Ent.ptpDomain ∨ a.identity = Config.clockIdentity → completes (.ptpAnnounce a) s fun m => after [] s.mod m)) ∧
  (∀ s : State,
    (s.mod.running fnTime = true → s.mod.time.st = .locked ∨ s.mod.time.st = .acquiring → completes .syncTimeout s fun m =>
      timeKeeps s.mod m ∧ m.time.st = .holdover ∧ timeRaised 0x0D02 0 m ∧ m.time.ctr = s.mod.time.ctr ∧
      m.time.incr = (if s.mod.time.outs = [] then s.mod.time.incr else s.mod.time.outs.sum / s.mod.time.outs.length)) ∧
    (s.mod.running fnTime = false ∨ (s.mod.time.st ≠ .locked ∧ s.mod.time.st ≠ .acquiring) → completes .syncTimeout s fun m => after [] s.mod m) ∧
    (s.mod.running fnTime = true → s.mod.cfg Ent.ptpMode ≠ 1 → (∀ x ∈ s.mod.time.heard, ∃ y, s.mod.time.master = some y ∧
      x.2.identity = y.identity ∧ x.2.port = y.port ∧ x.2.link = y.link) → s.mod.time.st = .locked ∨ s.mod.time.st = .acquiring →
      completes .announceTimeout s fun m => timeKeeps s.mod m ∧ m.time.master = none ∧ m.time.heard = [] ∧ m.time.st = .holdover ∧ m.stat Ent.timeUtcValid = 0 ∧
        timeRaised 0x0D02 0 m) ∧
    (s.mod.running fnTime = false → completes .announceTimeout s fun m => after [] s.mod m)) ∧
  (∀ (s : State) (x : PtpMsg), s.mod.running fnTime = true →
    (s.mod.time.st = .master → x.domain = s.mod.cfg Ent.ptpDomain → s.mod.stat Ent.ptpPortActive = x.link.val → completes (.ptpDelayReq x) s fun m =>
      after [] { stampedOn x.link s.mod with
        out := s.mod.out ++ [.ptp x.link 9 x.seq (((s.mod.nowNs : Int) * 1000 - s.mod.cfg (Ent.ptpLinkIngress x.link)) / 1000) x.identity] } m) ∧
    (s.mod.time.st ≠ .master → completes (.ptpDelayReq x) s fun m => after [] (stampedOn x.link s.mod) m) ∧
    (completes (.ptpManagement x.link) s fun m => after [] { s.mod with
      time := { s.mod.time with managed := s.mod.time.managed + 1 }
      out := s.mod.out ++ [.ptp x.link 13 0 0 0] } m)) ∧
  (∀ s : State, s.mod.running fnTime = true → s.mod.time.st = .master →
    let link := s.mod.stat Ent.ptpPortActive
    let t : Int := ((s.mod.nowNs : Int) * 1000 + s.mod.cfg (Ent.ptpLinkEgress link)) / 1000
    (completes (.ptpMasterTransmit true) s fun m => after [] { s.mod with
      time := { s.mod.time with annSeq := (s.mod.time.annSeq + 1) % 65536 }
      out := s.mod.out ++ [.ptp link 11 s.mod.time.annSeq 0 0] } m) ∧
    completes (.ptpMasterTransmit false) s fun m => after [] (stampedOn link { s.mod with
      time := { s.mod.time with syncSeq := (s.mod.time.syncSeq + 1) % 65536 }
      out := s.mod.out ++ (if s.mod.cfgOn Ent.ptpTwoStep then [.ptp link 0 s.mod.time.syncSeq 0 0, .ptp link 8 s.mod.time.syncSeq t 0]
        else [.ptp link 0 s.mod.time.syncSeq t 0]) }) m) ∧
  (∀ (s : State) (ann : Bool), s.mod.running fnTime = false ∨ s.mod.time.st ≠ .master → completes (.ptpMasterTransmit ann) s fun m => after [] s.mod m) ∧
  ∀ s : State,
    (s.mod.time.st = .locked ∨ s.mod.time.st = .master → completes .calendarCheck s fun m => ∃ e : Nat, e < 2 ^ 32 ∧ m.stat Ent.calError = e ∧ m.time = s.mod.time ∧
      ((sint 32 e).natAbs ≤ 61000 → m.cal = s.mod.cal) ∧
      (61000 < (sint 32 e).natAbs → m.cal.lost = false ∧ m.cal.sec = s.mod.nowNs / 1000000000 ∧ m.cal.cyc = s.mod.nowNs % 1000000000 * 32768 / 1000000000 ∧
        timeRaised 0x0D08 0 m) ∧ m.pi = s.mod.pi ∧ m.funcs = s.mod.funcs ∧ m.nv = s.mod.nv) ∧
    (s.mod.time.st ≠ .locked → s.mod.time.st ≠ .master → completes .calendarCheck s fun m => after [] s.mod m) ∧
    (∀ drift : Int, completes (.calendarTrim drift) s fun m => (∀ j, j ≠ Ent.calTrim → m.cfg j = s.mod.cfg j ∧ m.shad j = s.mod.shad j) ∧ m.time = s.mod.time ∧ m.cal = s.mod.cal ∧
      (s.mod.time.st = .locked → s.mod.cfgOn Ent.calAutoTrim = true → m.cfg Ent.calTrim = m.shad Ent.calTrim ∧
        (let was := sint 32 (s.mod.cfg Ent.calTrim)
         let now := sint 32 (m.cfg Ent.calTrim)
         now ≤ 63 ∧ -63 ≤ now ∧ (-63 ≤ was → was ≤ 63 → (drift = 0 → now = was) ∧ (0 ≤ drift → now ≤ was) ∧ (drift ≤ 0 → was ≤ now)))) ∧
      (s.mod.time.st ≠ .locked ∨ s.mod.cfgOn Ent.calAutoTrim = false → m = s.mod)) ∧
    completes .retainedTimeWrite s (fun m => m = { s.mod with nv := { s.mod.nv with retained := some s.mod.now } }) ∧
    completes .leapSecond s fun m =>
      let l := s.mod.stat Ent.timeLeap
      (bit l 0 = bit l 1 → after [] s.mod m) ∧
      (bit l 0 ≠ bit l 1 → m.stat Ent.timeLeap = 0 ∧ m.cfgI32 Ent.timeUtcOffset = sint 32 (uint 32 (s.mod.cfgI32 Ent.timeUtcOffset + (if bit l 0 then 1 else -1))) ∧
        timeRaised 0x0D06 0 m ∧ m.time = s.mod.time ∧ m.pi = s.mod.pi ∧ m.funcs = s.mod.funcs)

/-- CAL_LOST (R411). -/
def Obligations.CalendarLossLatches : Prop :=
  (∀ s : State, completes .calLost s fun m => m = if s.mod.power.gneissMain then s.mod else { s.mod with cal := { s.mod.cal with lost := true } }) ∧
  (∀ (z : Fuses) (m : Module), m.cal.lost = true → roVal z m Ent.calValid = 0) ∧
  (∀ (s : State) (rd : Fin 3), s.mod.cal.lost = true → s.mod.power.stage = .run → s.mod.stat Ent.bootPhase = 5 → s.mod.power.recovery = false →
    s.mod.power.booted = false → s.mod.power.dramFault = true → completes (.bootStartFunctions rd) s fun m =>
      m.time.source = (if s.mod.nv.retained.isSome then 2 else 0) ∧ m.cal = s.mod.cal) ∧
  (∀ (z : Fuses) (m : Module), (calRewrite m).cal.lost = false ∧ roVal z (calRewrite m) Ent.calValid = 1)

/-! ### Field-bus ports (chapter 10) -/

/-- Port `y` is `x`, but for a frame that the port has started: nothing else of the port, no frame's content and no outcome differs, and a frame already on the wire keeps it. -/
def Sys2Proof.Machine.startsOnly (x y : Port) : Prop :=
  y = { x with wire := y.wire, sof := y.sof, objs := y.objs, queue := y.queue } ∧ (y.wire = x.wire ∨ x.wire ≠ .none → y = x) ∧
    y.queue.map PendFrame.msg = x.queue.map PendFrame.msg ∧
    ∀ o : Nat, (y.obj o).status = (x.obj o).status ∧ (y.obj o).next = (x.obj o).next ∧ (y.obj o).cur.map PendFrame.msg = (x.obj o).cur.map PendFrame.msg

/-- The row leaves port `p` as `x`, but for a frame that it may start then; it raises these events; no other port and nothing but shown values, frames sent and free values changes. -/
def Sys2Proof.Machine.busRow (p : Fin 8) (s : State) (evs : List Event) (x : Port) (m : Module) : Prop :=
  ∃ w, m = settle w ∧ w.agate = { s.mod.agate with raised := evs } ∧
    w = { s.mod with ports := w.ports, agate := w.agate, out := w.out, free := w.free, dict := { s.mod.dict with stat := w.dict.stat } } ∧
    (∀ q : Nat, q ≠ p → w.port q = s.mod.port q) ∧ startsOnly x (w.port p)

/-- An event of a port (R338). -/
def Sys2Proof.Machine.busEvent (m : Module) (p : Fin 8) (code which detail : Nat) (x : Port) : Event :=
  eventNow m (fnPort p) code (leBytes 1 p ++ leBytes 1 which ++ leBytes 1 detail ++ leBytes 1 (min 255 x.tec) ++ leBytes 1 x.recv)

/-- Error active and error passive by the counts (R325). -/
def Sys2Proof.Machine.confined (x : Port) : Port :=
  { x with bus := if x.bus = 2 ∧ (128 ≤ x.tec ∨ 128 ≤ x.recv) then 3 else if x.bus = 3 ∧ x.tec < 128 ∧ x.recv < 128 then 2 else x.bus }

/-- Entry to error passive is recorded (R325). -/
def Sys2Proof.Machine.passiveEvents (m : Module) (p : Fin 8) (x : Port) : List Event :=
  if x.bus = 2 ∧ (128 ≤ x.tec ∨ 128 ≤ x.recv) then [busEvent m p 0x0A01 0xFF 0 x] else []

/-- The port on the bus, error active or passive. -/
def Sys2Proof.Machine.onBus (x : Port) : Prop := x.bus = 2 ∨ x.bus = 3

/-- Frames wait nowhere in the port. -/
def Sys2Proof.Machine.quietPort (x : Port) : Prop := x.objs = [] ∧ x.queue = [] ∧ x.wire = .none

/-- Object `o` of the port as `y`. -/
def Sys2Proof.Machine.withObj (x : Port) (o : Nat) (y : TxObj) : Port := { x with objs := Sparse.set (fun _ => TxObj.init) x.objs o y }

/-- Frames, errors, sleep and wake. -/
def Obligations.PortFramesErrorsSleep : Prop :=
  ∀ (s : State) (p : Fin 8), s.mod.agate.raised = [] →
    let X := s.mod.port p
    let C := s.mod.cfg
    (∀ (o age : Nat) (f : PendFrame), s.mod.holder = true → X.wire = .obj o → (X.obj o).cur = some f → f.cancelLate = false → completes (.canFrameSent p age) s fun m =>
      let x := { withObj X o ⟨(X.obj o).next, none, 2⟩ with wire := .none, tec := X.tec - 1, busy := false }
      busRow p s (passiveEvents s.mod p x) (confined x) m ∧ (∃ w, m = settle w ∧ w.out = s.mod.out ++ [.can p f.msg]) ∧
      m.stat (Ent.fbTxFrames p) = countedBy 1 (Ent.fbTxFrames p) s.mod) ∧
    (∀ age : Nat, X.wire = .none → completes (.canFrameSent p age) s (· = s.mod)) ∧
    (∀ (c : CanMsg) (remote esi : Bool) (age : Nat), (onBus X ∧ X.recv ≤ 127 ∧ s.mod.holder = true ∨ X.bus = 7) → X.wire = .none → completes (.canFrameReceived p c remote esi age) s fun m =>
      let low := fun (x : Port) => { x with recv := if X.bus = 7 then X.recv else X.recv - 1, busy := false }
      m.stat (Ent.fbRxFrames p) = countedBy 1 (Ent.fbRxFrames p) s.mod ∧
      (∀ j, stationOf s.mod p c.idw = some j → s.mod.holder = true → C (Ent.fbstInLen p j) ≤ c.data.length →
        let y := { X.station j with data := c.data, fresh := true, inWindow := true }
        let x := low { X with stations := Sparse.set (fun _ => Station.init) X.stations j y }
        busRow p s (passiveEvents s.mod p x) (confined x) m ∧ m.stat (Ent.fbstLastRx p j) = t80Wire (T80.ofNs (s.mod.nowNs - age))) ∧
      (∀ j, stationOf s.mod p c.idw = some j → s.mod.holder = true → c.data.length < C (Ent.fbstInLen p j) →
        busRow p s (passiveEvents s.mod p (low X)) (confined (low X)) m ∧ m.stat (Ent.fbstLengthErrors p j) = countedBy 1 (Ent.fbstLengthErrors p j) s.mod) ∧
      (stationOf s.mod p c.idw = none → remote = true → busRow p s (passiveEvents s.mod p (low X)) (confined (low X)) m ∧
        m.stat (Ent.fbRxRemote p) = countedBy 1 (Ent.fbRxRemote p) s.mod) ∧
      (stationOf s.mod p c.idw = none → remote = false → filterOf s.mod p c.idw = none → busRow p s (passiveEvents s.mod p (low X)) (confined (low X)) m ∧
        m.stat (Ent.fbRxUnmatched p) = countedBy 1 (Ent.fbRxUnmatched p) s.mod) ∧
      (∀ k, stationOf s.mod p c.idw = none → remote = false → filterOf s.mod p c.idw = some k → bit (C (Ent.fbFilter p k)) 59 = false → X.rx.length < 512 →
        let x := low { X with rx := X.rx ++ [rxRecord (T80.ofNs (s.mod.nowNs - age)) c esi k], rxDropping := false }
        busRow p s (passiveEvents s.mod p x) (confined x) m)) ∧
    (∀ (c : CanMsg) (remote esi : Bool) (age : Nat), ¬ onBus X → X.bus ≠ 7 → completes (.canFrameReceived p c remote esi age) s (· = s.mod)) ∧
    (onBus X → s.mod.holder = true → X.wire = .none → X.tec < 256 →
      (completes (.canError p .lostArbitration) s fun m =>
        busRow p s (passiveEvents s.mod p X) (confined { X with busy := true }) m ∧ m.stat (Ent.fbErrorFrames p) = s.mod.stat (Ent.fbErrorFrames p)) ∧
      (∀ e : CanErr, (e = .receive ∨ e = .receiveDominant) → completes (.canError p e) s fun m =>
        let x := { X with recv := min 255 (X.recv + (if e = .receive then 1 else 8)), busy := false }
        busRow p s (passiveEvents s.mod p x) (confined x) m ∧ m.stat (Ent.fbErrorFrames p) = countedBy 1 (Ent.fbErrorFrames p) s.mod)) ∧
    (∀ (o : Nat) (f : PendFrame), onBus X → s.mod.holder = true → X.wire = .obj o → (X.obj o).cur = some f → f.cancelArb = false → f.cancelLate = false →
      let back := { withObj X o { X.obj o with cur := some { f with started := false } } with wire := .none, busy := false }
      (∀ e : CanErr, (e = .transmit ∨ e = .ackPassive) → X.tec + 8 < 256 → completes (.canError p e) s fun m =>
        let x := { back with tec := X.tec + (if e = .transmit then 8 else 0) }
        busRow p s (passiveEvents s.mod p x) (confined x) m ∧ m.stat (Ent.fbErrorFrames p) = countedBy 1 (Ent.fbErrorFrames p) s.mod) ∧
      (256 ≤ X.tec + 8 → X.bus = 3 → completes (.canError p .transmit) s fun m =>
        let x := { back with tec := X.tec + 8 }
        busRow p s [busEvent s.mod p 0x0A02 0xFF 0 x] { x with bus := if C (Ent.fbRecovery p) = 0 then 5 else 4 } m ∧
        m.stat (Ent.fbBusoffs p) = countedBy 1 (Ent.fbBusoffs p) s.mod)) ∧
    (¬ onBus X → X.bus ≠ 7 → ∀ e : CanErr, completes (.canError p e) s (· = s.mod)) ∧
    (X.bus = 7 ∨ (onBus X ∧ s.mod.holder = false) → completes (.canError p .lostArbitration) s (· = s.mod) ∧ ∀ e : CanErr, e ≠ .lostArbitration → completes (.canError p e) s fun m =>
      m = { s.mod with dict := { s.mod.dict with stat := m.dict.stat } } ∧ m.stat (Ent.fbErrorFrames p) = countedBy 1 (Ent.fbErrorFrames p) s.mod) ∧
    (X.bus = 5 → s.mod.holder = true → X.sleepAfter = false → quietPort X → completes (.busOffRecovered p) s fun m =>
      let x := { X with bus := 2, tec := 0, recv := 0 }
      busRow p s [busEvent s.mod p 0x0A03 0xFF 0 x] x m) ∧
    (X.bus ≠ 5 ∨ s.mod.holder = false → completes (.busOffRecovered p) s (· = s.mod)) ∧
    (X.bus = 1 → completes (.busIntegration p) s fun m =>
      busRow p s [] { X with bus := if C (Ent.fbMode p) = 2 ∨ s.mod.holder = false then 7 else 2 } m) ∧
    (X.bus ≠ 1 → completes (.busIntegration p) s (· = s.mod)) ∧
    (X.sleepReq = true → quietPort X → completes (.transceiverAsleep p) s fun m =>
      let x := { X with bus := 6, sleepReq := false, basic := none, window := none, checkDue := [], sends := [] }
      busRow p s [busEvent s.mod p 0x0A07 0xFF 0 x] x m) ∧
    (X.sleepReq = false → completes (.transceiverAsleep p) s (· = s.mod)) ∧
    (∀ (c : Instr) (mode : Nat), ((c = .wakeUpPattern p ∧ mode = 1) ∨ (∃ f, c = .wakeFrame p f ∧ wakeMatch s.mod p f = true ∧ mode = 2)) →
      (C (Ent.fbWakeMode p) = mode → X.bus = 6 → completes c s fun m =>
        let x := { X with bus := 1, basic := none, window := none, sleepReq := false }
        busRow p s [busEvent s.mod p 0x0A08 0xFF mode x] x m ∧ m.stat (Ent.fbWakes p) = countedBy 1 (Ent.fbWakes p) s.mod) ∧
      (C (Ent.fbWakeMode p) = mode → X.bus ≠ 6 → X.sleepReq = true → completes c s fun m =>
        busRow p s [] { X with sleepReq := false } m ∧ m.stat (Ent.fbSleepsAborted p) = countedBy 1 (Ent.fbSleepsAborted p) s.mod) ∧
      (C (Ent.fbWakeMode p) ≠ mode → completes c s (· = s.mod))) ∧
    (∀ (f : PendFrame) (q : List PendFrame), portUp s.mod p = true → X.queue = f :: q → C (Ent.fbFallbackOrder p) = 0 → C (Ent.fbFallbackAge p) ≠ 0 →
      f.started = false → f.tick + C (Ent.fbFallbackAge p) ≤ s.mod.tick.epoch.getD 0 → completes (.fallbackAgeExpiry p) s fun m =>
        busRow p s [] { X with queue := q } m ∧ m.stat (Ent.fbExpired p) = countedBy 1 (Ent.fbExpired p) s.mod) ∧
    (X.queue = [] ∨ C (Ent.fbFallbackAge p) = 0 → completes (.fallbackAgeExpiry p) s fun m => busRow p s [] X m)

/-- Port `p` with station `i` as `y`. -/
def Sys2Proof.Machine.withStation (X : Port) (i : Nat) (y : Station) : Port := { X with stations := Sparse.set (fun _ => Station.init) X.stations i y }

/-- A row of a station leaves port `p` as `x`, shows the station, raises these events, and changes nothing else but shown values. -/
def Sys2Proof.Machine.stationRow (p : Fin 8) (s : State) (evs : List Event) (x : Port) (i : Fin 32) (m : Module) : Prop :=
  (∃ w, m = settle w ∧ w.agate = { s.mod.agate with raised := evs } ∧
    w = { s.mod with ports := w.ports, agate := w.agate, dict := { s.mod.dict with stat := w.dict.stat } }) ∧
  (∀ q : Nat, q ≠ p → m.port q = s.mod.port q) ∧ m.port p = x ∧
  m.stat (Ent.fbstState p i) = (x.station i).st ∧ m.stat (Ent.fbstMisses p i) = (x.station i).misses ∧ m.stat (Ent.fbstGood p i) = (x.station i).good

/-- Core cycle, from epoch 0, at which a window opens in the basic cycle of epoch `e` (R315). -/
def Sys2Proof.Machine.windowAt (bs : List Byte) (e w : Nat) : Nat := e / mxB bs * mxB bs * 4000 + mxStart bs w

/-- Windows and stations. -/
def Obligations.WindowsAndStations : Prop :=
  ∀ (s : State) (p : Fin 8) (i : Fin 32), s.mod.agate.raised = [] →
    let X := s.mod.port p
    let Y := X.station i
    let T := s.mod.cfg (Ent.fbstTimeout p i)
    let J := s.mod.cfg (Ent.fbstRejoin p i)
    let bs := s.mod.cfgB (Ent.fbMatrix p)
    (portUp s.mod p = true → outObject s.mod.cfg p i = none →
      (Y.st ≠ 2 → T ≤ Y.misses → completes (.stationLost p i) s fun m =>
        stationRow p s [busEvent s.mod p 0x0A04 i 0 X] (withStation X i { Y with st := 2 }) i m ∧ m.stat (Ent.fbstDrops p i) = countedBy 1 (Ent.fbstDrops p i) s.mod) ∧
      (Y.st ≠ 1 → J ≤ Y.good → completes (.stationOnline p i) s fun m =>
        stationRow p s [busEvent s.mod p 0x0A05 i 0 X] (withStation X i { Y with st := 1 }) i m) ∧
      (X.bus ≠ 6 → s.mod.holder = true → i.val ∈ X.checkDue → completes (.stationWindowCheck p i) s fun m =>
        let Z := { X with checkDue := X.checkDue.filter (fun j => j != i.val) }
        let good := { Y with misses := 0, good := min 255 (Y.good + 1) }
        let miss := { Y with misses := min 255 (Y.misses + 1), good := 0 }
        (Y.inWindow = true → Y.st ≠ 1 → J ≤ good.good → stationRow p s [busEvent s.mod p 0x0A05 i 0 X] (withStation Z i { good with st := 1 }) i m) ∧
        (Y.inWindow = true → (Y.st = 1 ∨ good.good < J) → stationRow p s [] (withStation Z i good) i m) ∧
        (Y.inWindow = false → Y.st ≠ 2 → T ≤ miss.misses → stationRow p s [busEvent s.mod p 0x0A04 i 0 X] (withStation Z i { miss with st := 2 }) i m) ∧
        (Y.inWindow = false → (Y.st = 2 ∨ miss.misses < T) → stationRow p s [] (withStation Z i miss) i m))) ∧
    (portUp s.mod p = false ∨ Y.st = 2 ∨ Y.misses < T → completes (.stationLost p i) s (· = s.mod)) ∧
    (portUp s.mod p = false ∨ Y.st = 1 ∨ Y.good < J → completes (.stationOnline p i) s (· = s.mod)) ∧
    (portUp s.mod p = false ∨ s.mod.holder = false ∨ X.bus = 6 ∨ i.val ∉ X.checkDue → completes (.stationWindowCheck p i) s (· = s.mod)) ∧
    (∀ (w e r : Nat), portUp s.mod p = true → s.mod.tick.epoch = some e → X.basic = some r → w < mxW bs → w ≠ 0 →
      windowAt bs e w / 4000 = e → s.mod.tick.cycle ≤ windowAt bs e w % 4000 → completes (.windowStart p w) s fun m =>
        let c := mxCell bs r w
        let x := { X with window := some w }
        let y := if mxKind bs w = 0 ∧ cellKind c = 2 then withStation x (bits c 4 0) { X.station (bits c 4 0) with inWindow := false } else x
        startsOnly y (m.port p) ∧ (∀ q : Nat, q ≠ p → m.port q = s.mod.port q) ∧ m.tick.cycle = windowAt bs e w % 4000 ∧
        m = { s.mod with ports := m.ports, tick := m.tick, time := m.time, dict := { s.mod.dict with stat := m.dict.stat } }) ∧
    (∀ w : Nat, portUp s.mod p = false ∨ s.mod.tick.epoch = none ∨ X.basic = none ∨ mxW bs ≤ w → completes (.windowStart p w) s (· = s.mod)) ∧
    (∀ (w r : Nat), X.window = some w → X.basic = some r → X.wire = .none → windowObj bs r w = none → completes (.windowEnd p w) s fun m =>
      let c := mxCell bs r w
      let x := { X with window := none, checkDue := X.checkDue ++ (if s.mod.holder = true ∧ mxKind bs w = 0 ∧ cellKind c = 2 then [bits c 4 0] else []) }
      busRow p s [] x m) ∧
    ∀ w : Nat, X.window ≠ some w ∨ X.basic = none → completes (.windowEnd p w) s (· = s.mod)

/-! ### Onboard I/O and the sample trunk (chapter 9) -/

/-- An event of onboard I/O (R303). -/
def Sys2Proof.Machine.pointEvent (m : Module) (source code num detail : Nat) (reading : Int) : Event :=
  eventNow m source code (leBytes 1 num ++ leBytes 1 detail ++ leBytes 4 (uint 32 reading))

/-- The rows of onboard I/O. -/
def Obligations.OnboardPoints : Prop :=
  ∀ s : State,
    let I := s.mod.io
    let only := fun (m : Module) => ∃ w, m = settle w ∧ w = { s.mod with io := w.io, agate := w.agate, dict := { s.mod.dict with stat := w.dict.stat } }
    (∀ c : Fin 64, s.mod.active (fnChan c) = true → isOutput s.mod c = true → (s.mod.chan c).alarm = false → (s.mod.chan c).complCount ≠ 0 →
      s.mod.cfg (Ent.chanComplTime c) ≤ (s.mod.chan c).complCount → completes (.complianceAlarm c) s fun m =>
        only m ∧ (∀ j : Nat, m.chan j = if j = c.val then { s.mod.chan j with alarm := true } else s.mod.chan j) ∧
        m.stat (Ent.chanComplAlarms c) = countedBy 1 (Ent.chanComplAlarms c) s.mod ∧ bit (m.stat (Ent.chanFlags c)) 5 = true ∧
        raisedIn s.mod [pointEvent s.mod (fnChan c) 0x0902 c 0 (sint 32 (s.mod.stat (Ent.chanReading c)))] m) ∧
    (∀ c : Fin 64, s.mod.active (fnChan c) = false ∨ (s.mod.chan c).alarm = true ∨ (s.mod.chan c).complCount = 0 → completes (.complianceAlarm c) s fun m => after [] s.mod m) ∧
    (∀ (b : Fin 8) (k : Fin 4), k ≠ 0 → Sparse.get (fun _ => 0) I.bankFault b = 0 → completes (.bankFault b k) s fun m =>
      m = (({ s.mod with io := { I with bankFault := m.io.bankFault, bankNote := I.bankNote ++ [(b.val, k.val)] } }.setStat (Ent.bankFault b) k).setStat
        (Ent.bankFaults b) (countedBy 1 (Ent.bankFaults b) s.mod)) ∧
      ∀ j : Nat, Sparse.get (fun _ => 0) m.io.bankFault j = if j = b.val then k.val else Sparse.get (fun _ => 0) I.bankFault j) ∧
    (∀ (b : Fin 8) (k : Fin 4), k = 0 ∨ Sparse.get (fun _ => 0) I.bankFault b ≠ 0 → completes (.bankFault b k) s (· = s.mod)) ∧
    (∀ b : Fin 8, Sparse.get (fun _ => 0) I.bankFault b ≠ 0 → completes (.bankRecovered b) s fun m =>
      m = { s.mod with io := { I with bankFault := m.io.bankFault, bankNote := I.bankNote ++ [(b.val, 0)] } }.setStat (Ent.bankFault b) 0 ∧
      ∀ j : Nat, Sparse.get (fun _ => 0) m.io.bankFault j = if j = b.val then 0 else Sparse.get (fun _ => 0) I.bankFault j) ∧
    (∀ b : Fin 8, Sparse.get (fun _ => 0) I.bankFault b = 0 → completes (.bankRecovered b) s (· = s.mod)) ∧
    (∀ i : Fin 32, s.mod.active fnDi = true → s.mod.cfg (Ent.diFilter i) + 1 ≤ Sparse.get (fun _ => 0) I.diCount i → completes (.diChange i) s fun m =>
      only m ∧ (∀ j : Nat, bit m.io.diState j = if j = i.val then !bit I.diState j else bit I.diState j) ∧ m.stat Ent.diState = m.io.diState ∧
      (∀ j : Nat, Sparse.get (fun _ => 0) m.io.diCount j = if j = i.val then 0 else Sparse.get (fun _ => 0) I.diCount j) ∧ m.io.doLatch = I.doLatch ∧
      raisedIn s.mod (if bit (s.mod.cfg Ent.diEventMask) i then
        [⟨fnDi, 0x0905, notLocked s.mod, T80.ofNs (Sparse.get (fun _ => 0) I.diSince i), s.mod.tick.epoch,
          padTo 28 (leBytes 1 i ++ leBytes 1 (b01 (!bit I.diState i)) ++ leBytes 4 0)⟩] else []) m) ∧
    (∀ i : Fin 32, s.mod.active fnDi = false ∨ Sparse.get (fun _ => 0) I.diCount i < s.mod.cfg (Ent.diFilter i) + 1 → completes (.diChange i) s fun m => after [] s.mod m) ∧
    (∀ (i : Fin 32) (k : Fin 5), k ≠ 0 → s.mod.active fnDo = true → Sparse.get (fun _ => 0) I.doCause i ≠ k.val → completes (.doFault i k) s fun m =>
      only m ∧ (∀ j : Nat, Sparse.get (fun _ => 0) m.io.doCause j = if j = i.val then k.val else Sparse.get (fun _ => 0) I.doCause j) ∧
      (∀ j : Nat, bit m.io.doOff j = if j = i.val ∧ k.val ≤ 2 then true else bit I.doOff j) ∧ m.io.doLatch = I.doLatch ∧
      (∀ j : Nat, bit (m.stat Ent.doFault) j = if j = i.val then true else bit (s.mod.stat Ent.doFault) j) ∧
      m.stat Ent.doFaults = countedBy 1 Ent.doFaults s.mod ∧ raisedIn s.mod [pointEvent s.mod fnDo 0x0906 i k 0] m) ∧
    (∀ (i : Fin 32) (k : Fin 5), k = 0 ∨ s.mod.active fnDo = false ∨ Sparse.get (fun _ => 0) I.doCause i = k.val → completes (.doFault i k) s fun m => after [] s.mod m) ∧
    (∀ i : Fin 32, bit I.doOff i = true → s.mod.cfg Ent.doRetry ≠ 0 → completes (.doRetry i) s fun m =>
      m = { s.mod with io := { I with doCause := m.io.doCause, doOff := m.io.doOff }, dict := { s.mod.dict with stat := m.dict.stat } } ∧
      (∀ j : Nat, Sparse.get (fun _ => 0) m.io.doCause j = if j = i.val then 0 else Sparse.get (fun _ => 0) I.doCause j) ∧
      (∀ j : Nat, bit m.io.doOff j = if j = i.val then false else bit I.doOff j) ∧
      (∀ j : Nat, bit (m.stat Ent.doFault) j = if j = i.val then false else bit (s.mod.stat Ent.doFault) j)) ∧
    (∀ i : Fin 32, bit I.doOff i = false ∨ s.mod.cfg Ent.doRetry = 0 → completes (.doRetry i) s (· = s.mod))

/-- A START of a trunk link from a session waits for its satellite, in a module of no pair with base ticks running and no event waiting. -/
def Sys2Proof.Machine.linkWaits (s : State) (l : Fin 2) (r : Req) (x : Session) : Prop :=
  solo s.mod ∧ s.mod.ticking = true ∧ s.mod.agate.raised = [] ∧ (s.mod.trunk l).waiting = some (r.fr.session, r) ∧ r.fr.session ≠ 0 ∧ r.fr.session < 2 ^ 32 ∧
    s.mod.odp.sessions.find? (fun y => y.id == r.fr.session) = some x ∧ x.tx + 1 < 2 ^ 48

/-- The link's START has been answered with a status, the function's state as data. -/
def Sys2Proof.Machine.linkAnswered (s : State) (l : Fin 2) (r : Req) (st state : Nat) (m : Module) : Prop :=
  (m.trunk l).waiting = none ∧ m.pi = s.mod.pi ∧ m.tick = s.mod.tick ∧ ∃ o, m.out = s.mod.out ++
    [.resp ⟨r.fr.session, r.fr.id, r.op + 0x80, st, r.index, r.sub, o, leBytes 1 state⟩]

/-- The rows of the trunk. -/
def Obligations.TrunkLinks : Prop :=
  (∀ (s : State) (l : Fin 2),
    (∀ (sat : List Byte) (lat out del : Nat), lat < 2 ^ 32 → out < 2 ^ 32 → del < 2 ^ 32 → trunkUp s.mod l = false → completes (.trunkTraining l sat lat out del) s fun m =>
      m.stat (Ent.trunkState l) = 2 ∧ m.stat (Ent.trunkDelay l) = del ∧ m.stat (Ent.trunkSatLatency l) = lat ∧ m.stat (Ent.trunkSatOutMin l) = out ∧
      (m.trunk l) = { s.mod.trunk l with lost := 0, seen := true } ∧ raisedIn s.mod [pointEvent s.mod (fnTrunk l) 0x0909 0 0 0] m ∧ m.pi = s.mod.pi ∧ m.funcs = s.mod.funcs) ∧
    (∀ (sat : List Byte) (lat out del : Nat), trunkUp s.mod l = true → completes (.trunkTraining l sat lat out del) s fun m => after [] s.mod m) ∧
    (trunkUp s.mod l = true → (s.mod.trunk l).seen = false → s.mod.cfg (Ent.trunkLossLimit l) ≤ (s.mod.trunk l).lost + 1 → completes (.trunkLinkDown l) s fun m =>
      m.stat (Ent.trunkState l) = 0 ∧ (m.trunk l) = { s.mod.trunk l with lost := 0 } ∧ m.stat (Ent.trunkDowns l) = countedBy 1 (Ent.trunkDowns l) s.mod ∧
      m.stat (Ent.trunkFramesLost l) = countedBy 1 (Ent.trunkFramesLost l) s.mod ∧
      raisedIn s.mod [pointEvent s.mod (fnTrunk l) 0x0908 0 (min 255 ((s.mod.trunk l).lost + 1)) 0] m ∧ m.pi = s.mod.pi ∧ m.funcs = s.mod.funcs) ∧
    (trunkUp s.mod l = false ∨ (s.mod.trunk l).seen = true ∨ (s.mod.trunk l).lost + 1 < s.mod.cfg (Ent.trunkLossLimit l) → completes (.trunkLinkDown l) s fun m => after [] s.mod m)) ∧
  (∀ (s : State) (l : Fin 2) (b : Fin 16) (f : List Byte) (e : Nat), solo s.mod → s.mod.tick.epoch = some e → completes (.trunkBlockLanded l b f) s fun m =>
    (trunkUp s.mod l = false ∨ frameOk f e = false → after [] s.mod m) ∧
    (trunkUp s.mod l = true → frameOk f e = true → s.mod.active (fnTrunk l) = true → blockOk f b = false →
      m.stat (Ent.trunkCrcErrors l) = countedBy 1 (Ent.trunkCrcErrors l) s.mod ∧ m.pi = s.mod.pi ∧ m.disp = s.mod.disp ∧ m.trunk l = { s.mod.trunk l with seen := true }) ∧
    (trunkUp s.mod l = true → frameOk f e = true → s.mod.active (fnTrunk l) = true → blockOk f b = true → linkLanding s.mod l b ≤ 1200 → s.mod.tick.cycle ≤ 1200 →
      b.val ∉ (s.mod.trunk l).landed → s.mod.forces = [] → isAddr (s.mod.cfg (Ent.trunkRbBase l)) = false →
      (m.trunk l).landed = (s.mod.trunk l).landed ++ [b.val] ∧ (m.trunk l).seen = true ∧ m.tick.cycle = max s.mod.tick.cycle (linkLanding s.mod l b) ∧
      (∀ (k v : Nat), (k, v) ∈ trunkMap s.mod l → k / 8 = b.val → mapOut v = false →
        (∀ i ∈ m.disp.insts, ¬ (i.desc = inNumber l k ∧ i.epoch = e)) ∧
        (samples (mapGroup v) e = true → (∀ x ∈ trunkMap s.mod l, x.1 ≠ k → mapOut x.2 = false → mapWord x.2 ≠ mapWord v) →
          m.word (mapWord v) = recordWord (leAt f (8 + 26 * b + 3 * (k % 8)) 3) (mapGroup v) e)) ∧
      (∀ a, (∀ x ∈ trunkMap s.mod l, x.1 / 8 = b.val → mapOut x.2 = false → mapWord x.2 ≠ a) → m.word a = s.mod.word a) ∧
      m.funcs = s.mod.funcs ∧ m.loop = s.mod.loop ∧ m.flint = s.mod.flint ∧ m.dict.live = s.mod.dict.live)) ∧
  (∀ (s : State) (l : Fin 2) (k : Fin 128) (e : Nat), s.mod.tick.epoch = some e →
    let v := s.mod.cfg (Ent.trunkChan l k)
    let waits := s.mod.active (fnTrunk l) = true ∧ mapUsed v = true ∧ mapOut v = false ∧ ∃ i ∈ s.mod.disp.insts, i.desc = inNumber l k ∧ i.epoch = e
    (waits → completes (.inTagTimeout l k) s fun m => m.tick.cycle = max s.mod.tick.cycle 1200 ∧
      m.disp.insts = s.mod.disp.insts.filter (fun i => !(i.desc == inNumber l k && i.epoch == e)) ∧
      (samples (mapGroup v) e = true → s.mod.forces = [] →
        m.word (mapWord v) = mkWord sSTALE (mapGroup v) (parityOf (mapGroup v) e) (wValue (s.mod.word (mapWord v))) ∧ ∀ a, a ≠ mapWord v → m.word a = s.mod.word a) ∧
      (samples (mapGroup v) e = false → m.pi = s.mod.pi)) ∧
    (¬ waits → completes (.inTagTimeout l k) s (· = s.mod))) ∧
  ∀ (s : State) (l : Fin 2),
    ((s.mod.trunk l).waiting = none → (∀ a : Bool, completes (.satelliteAccept l a) s fun m => after [] s.mod m) ∧
      completes (.satelliteConfigTimeout l) s fun m => after [] s.mod m) ∧
    ∀ (r : Req) (x : Session), linkWaits s l r x →
      (completes (.satelliteAccept l true) s fun m => linkAnswered s l r stOk 1 m ∧
        ∀ f, m.fn f = if f = fnTrunk l then { s.mod.fn f with st := .starting } else s.mod.fn f) ∧
      (completes (.satelliteAccept l false) s fun m => linkAnswered s l r stBadValue (s.mod.fn (fnTrunk l)).st.code m ∧
        ∀ f, m.fn f = if f = fnTrunk l then { s.mod.fn f with lastError := stBadValue } else s.mod.fn f) ∧
      completes (.satelliteConfigTimeout l) s fun m => linkAnswered s l r stBusy (s.mod.fn (fnTrunk l)).st.code m ∧
        ∀ f, m.fn f = if f = fnTrunk l then { s.mod.fn f with lastError := stBusy } else s.mod.fn f

/-! ### The base tick, its strobes, and Slate's and the loop engine's own events (chapters 1, 3 and 6) -/

/-- Nothing but the loop engine has a record, and nothing but host words waits for the sample instant of a module of no pair. -/
def Sys2Proof.Machine.engineAlone (m : Module) (r : FuncRec) : Prop :=
  solo m ∧ m.red.computing = true ∧ m.red.suspended = 0 ∧ m.red.changes = [] ∧ m.odp.pend = [] ∧ m.forces = [] ∧ m.funcs = [(fnEngine, r)] ∧
    m.time.runStep = 0 ∧ upPorts m = [] ∧ trunkUp m 0 = false ∧ trunkUp m 1 = false ∧ m.motion.axes = [] ∧ idleLanesEmpty m

/-- The tick's discipline after a sample instant, from that before it (R36). -/
def Sys2Proof.Machine.nextDiscipline (m : Module) (d : Discipline) : Prop :=
  match m.tick.disc, reportsLock m with
  | .locked, false => d = .holdover
  | .aligning, false => d = .holdover
  | .aligning, true => d = .aligning ∨ d = .locked
  | .free, true => d = .aligning ∨ d = .locked
  | .holdover, true => d = .aligning ∨ d = .locked
  | x, _ => d = x

/-- The next base tick of a running epoch: `len` cycles after the last, with the host's word written (R34, R37). -/
def Sys2Proof.Machine.nextTick (s : State) (len e : Nat) (m : Module) : Prop :=
  m.tick.cycle = 0 ∧ m.tick.abs = s.mod.tick.abs + len ∧ m.tick.epoch = some (e + 1) ∧ m.tick.lastEpoch = e + 1 ∧ m.funcs = s.mod.funcs ∧
    m.stat Ent.tickLastLength = len ∧ m.odp.pendWords = [] ∧
    (s.mod.odp.pendWords = [] → m.pi = s.mod.pi) ∧
    ∀ a v, s.mod.odp.pendWords = [(a, v)] → a < 2 ^ 18 →
      (owned s.mod a = false → m.word a = mkWord sVALID 0 (bit (e + 1) 0) v ∧ ∀ b, b ≠ a → m.word b = s.mod.word b) ∧
      (owned s.mod a = true → m.pi = s.mod.pi)

/-- Only loop slots, windows and the stream can have work at a strobe. -/
def Sys2Proof.Machine.loopsAlone (m : Module) : Prop :=
  solo m ∧ (∀ c, c < 64 → m.active (fnChan c) = false) ∧ m.active fnDo = false ∧ (∀ l, l < 2 → m.active (fnTrunk l) = false ∧ trunkUp m l = false) ∧
    upPorts m = [] ∧ m.slate.runs = [] ∧ idleLanesEmpty m

/-- The word that the writer puts at an address: the interlock's override first, then the force, then the staged word (R22, R233). -/
def Sys2Proof.Machine.writtenWord (m : Module) (g se a : Nat) (w : Word) : Word :=
  match overrideOf m g a with
  | some o => mkWord (sVALID + sINTLK) g (parityOf g se) o.val
  | none => match m.forceOf a with
    | some q => forced w q
    | none => w

/-- The group's strobe is due at a cycle of the running tick. -/
def Sys2Proof.Machine.strobeAt (m : Module) (g e c : Nat) : Prop :=
  m.tick.epoch = some e ∧ marshalled m g (sampleEpoch g e) = true ∧ strobed m g (sampleEpoch g e) = false ∧ periodCycle m g (m.cfg (Ent.groupPhase g)) = some c

/-- The tick's own commands. -/
def Obligations.TickCommands : Prop :=
  (∀ (s : State) (c : Capture), s.mod.ticking = false → completes (.sampleInstant c) s (after [] s.mod) ∧ completes (.missedStrobe c) s (after [] s.mod)) ∧
  (∀ (s : State) (c : Capture), s.mod.tick.disc ≠ .locked → completes (.missedStrobe c) s (after [] s.mod)) ∧
  (∀ (s : State) (c : Capture) (r : FuncRec), engineAlone s.mod r → s.mod.ticking = true →
    (∀ e, s.mod.tick.epoch = some e → r.st = .running →
      (strobeLost s.mod = false → completes (.sampleInstant c) s fun m => nextTick s (max (tickLength s.mod) (s.mod.tick.cycle + 1)) e m ∧
        nextDiscipline s.mod m.tick.disc ∧ m.stat Ent.tickStrobeMiss = s.mod.stat Ent.tickStrobeMiss) ∧
      (strobeLost s.mod = true → completes (.sampleInstant c) s fun m => nextTick s (max 4002 (s.mod.tick.cycle + 1)) e m ∧
        m.tick.disc = .holdover ∧ m.stat Ent.tickStrobeMiss = countedBy 1 Ent.tickStrobeMiss s.mod) ∧
      (s.mod.tick.disc = .locked → completes (.missedStrobe c) s fun m => nextTick s (max 4002 (s.mod.tick.cycle + 1)) e m ∧
        m.stat Ent.tickStrobeMiss = countedBy 1 Ent.tickStrobeMiss s.mod ∧ m.tick.disc = .holdover)) ∧
    (∀ e, s.mod.tick.epoch = some e → r.st = .stopping → r.restart = false → s.mod.odp.pendWords = [] → completes (.sampleInstant c) s fun m =>
      m.tick.cycle = 0 ∧ m.tick.epoch = none ∧ m.tick.lastEpoch = s.mod.tick.lastEpoch ∧ (m.fn fnEngine).st = .stopped ∧ m.disp.insts = [] ∧ m.pi = s.mod.pi) ∧
    (s.mod.tick.epoch = none → r.st = .starting → s.mod.shad Ent.tickAlignStart = 0 → s.mod.odp.pendWords = [] → completes (.sampleInstant c) s fun m =>
      m.tick.cycle = 0 ∧ m.tick.epoch = some 0 ∧ m.tick.abs = 0 ∧ (m.fn fnEngine).st = .running ∧ m.pi = s.mod.pi)) ∧
  (∀ s : State, s.mod.red.takeover = none →
    (s.mod.tick.epoch = none ∨ 400 < s.mod.tick.cycle ∨ s.mod.disp.released = s.mod.tick.epoch → completes .inputTagRelease s (after [] s.mod)) ∧
    ∀ e, solo s.mod → s.mod.red.owed = [] → s.mod.slate.runs = [] → idleLanesEmpty s.mod → s.mod.tick.epoch = some e → s.mod.tick.cycle ≤ 400 →
      s.mod.disp.released ≠ some e → s.mod.disp.insts.Nodup →
      completes .inputTagRelease s fun m =>
        let meets := canReady { s.mod with disp := { s.mod.disp with released := some e } }
        m.tick.cycle = 400 ∧ m.disp.released = some e ∧ m.pi = s.mod.pi ∧ m.lanes = s.mod.lanes ∧ m.funcs = s.mod.funcs ∧
        (∀ i ∈ s.mod.disp.insts, meets i = true → i ∉ m.disp.insts) ∧ (∀ i ∈ s.mod.disp.insts, meets i = false → i ∈ m.disp.insts) ∧
        ∀ k, k < 8 → m.ftask k =
          if releaseTick s.mod k e = true ∧ s.mod.running (fnTask k) = true ∧ (s.mod.ftask k).active = false then
            { s.mod.ftask k with active := true, ended := false, acc := false, stack := [], pc := (s.mod.ftcfg k).entry, image := s.mod.flint.img.inputs.map s.mod.word, epoch := e, spent := 0 }
          else s.mod.ftask k) ∧
  (∀ (s : State) (g : Fin 8) (e : Nat), s.mod.tick.epoch = some e → solo s.mod → idleLanesEmpty s.mod → s.mod.slate.runs = [] →
    let se := sampleEpoch g e
    (marshalled s.mod g se = true ∨ periodCycle s.mod g (s.mod.cfg (Ent.groupPhase g) - 80) = none → completes (.marshallingStart g) s (after [] s.mod)) ∧
    ∀ c, marshalled s.mod g se = false → periodCycle s.mod g (s.mod.cfg (Ent.groupPhase g) - 80) = some c → completes (.marshallingStart g) s fun m =>
      m.tick.cycle = max s.mod.tick.cycle c ∧ (∀ h, marshalled m h se = if h = g.val then true else marshalled s.mod h se) ∧ m.pi = s.mod.pi ∧ m.lanes = s.mod.lanes ∧
      m.overridesOf g = activeOverrides s.mod ∧
      (∀ n, m.slotRun n = if n ∈ groupSlots s.mod g se ∧ slotFinal s.mod g (s.mod.slotRun n) = false then { s.mod.slotRun n with late := true } else s.mod.slotRun n) ∧
      (∀ i ∈ m.disp.insts, i.group = g.val → i.epoch = se → i.st ≠ .ready) ∧
      ∀ i ∈ s.mod.disp.insts, ¬ (i.group = g.val ∧ i.epoch = se) →
        (∀ j ∈ s.mod.disp.insts, j.desc = i.desc → j.epoch = i.epoch → j = i) → i ∈ m.disp.insts) ∧
  ∀ (s : State) (g : Fin 8) (e : Nat), loopsAlone s.mod → s.mod.tick.epoch = some e →
    let se := sampleEpoch g e
    let ws := groupWrites s.mod g se
    ((∀ c, ¬ strobeAt s.mod g e c) → completes (.outputStrobe g) s (after [] s.mod)) ∧
    ∀ c, strobeAt s.mod g e c → (∀ w ∈ ws, w.1 < 2 ^ 18) → completes (.outputStrobe g) s fun m =>
      m.tick.cycle = max s.mod.tick.cycle c ∧ strobed m g se = true ∧ m.funcs = s.mod.funcs ∧ m.lanes = s.mod.lanes ∧ m.flint.img = s.mod.flint.img ∧
      (∀ a, m.word a = match ws.reverse.find? (fun w => w.1 == a) with
        | some w => writtenWord s.mod g se a w.2
        | none => s.mod.word a) ∧
      (∀ n, groupSlots s.mod g se = [n] → s.mod.running n = true → (s.mod.slotRun n).late = true →
        m.memN n 0x1F2 1 = min 255 (s.mod.memN n 0x1F2 1 + 1) ∧ m.stat Ent.engineOverruns = countedBy 1 Ent.engineOverruns s.mod) ∧
      (∀ n, groupSlots s.mod g se = [n] → (s.mod.slotRun n).late = false → (s.mod.slotRun n).status = [] →
        m.memN n 0x1F2 1 = 0 ∧ m.stat Ent.engineOverruns = s.mod.stat Ent.engineOverruns)

/-- The run evaluates exit `i` by its hook, signalled for the period's epoch, at a cycle counted from the sample instant. -/
def Sys2Proof.Machine.hookDue (m : Module) (r i cycle e now k : Nat) : Prop :=
  solo m ∧ m.tick.epoch = some now ∧ (m.rrun r).evalEpoch = some e ∧ (m.rrun r).step = some k ∧ (m.rrun r).evaluating = true ∧ (m.rrun r).results[i]? = some none ∧
    i < (m.rrun r).quals.length ∧ (rcExit (m.cfgB (Ent.recipeImage r)) k i).hook ≠ 0xFF ∧ cycle < 4000 ∧
    (rcExit (m.cfgB (Ent.recipeImage r)) k i).hook < 256 ∧ ((rcExit (m.cfgB (Ent.recipeImage r)) k i).hook, rcGroup (m.cfgB (Ent.recipeImage r)), e) ∈ m.disp.hooks

/-- Events of slots, runs and stages. -/
def Obligations.AlarmsHooksAndStages : Prop :=
  (∀ (s : State) (n : Fin 1024),
    let g := s.mod.cfg (Ent.loopGroup n) % 8
    let due := s.mod.active n = true ∧ s.mod.memN n 0x1F2 1 ≠ 0 ∧ s.mod.cfg (Ent.groupOverrunLimit g) ≤ s.mod.memN n 0x1F2 1 ∧
      s.mod.stat (Ent.groupOverrunActive g) = 0 ∧ ∀ d ∈ s.mod.loop.overDue, d.1 ≠ g
    (due → completes (.overrunAction n) s (· = { s.mod with loop := { s.mod.loop with overDue := s.mod.loop.overDue ++ [(g, n.val)] } })) ∧
    (¬ due → completes (.overrunAction n) s (· = s.mod))) ∧
  (∀ (s : State) (n : Fin 1024),
    let r := s.mod.slotRun n
    let fl := s.mod.memN n 0x1F0 2
    let act := s.mod.cfg (Ent.loopFeAction n)
    let due := s.mod.active n = true ∧ s.mod.cfg (Ent.loopKernel n) = 0 ∧ r.epoch ≠ none ∧ (s.mod.memN n 6 1 = 1 ∨ s.mod.memN n 6 1 = 2) ∧
      0 < s.mod.cfgQ (Ent.loopFeLimit n) ∧ s.mod.cfg (Ent.loopFeTime n) ≤ s.mod.memN n 0x1F3 2 ∧ bit fl 6 = false ∧ 0x0303 ∉ r.codes
    (due → completes (.feAlarm n) s fun m =>
      bit (m.memN n 0x1F0 2) 6 = true ∧ (∀ j, j ≠ 6 → bit (m.memN n 0x1F0 2) j = bit fl j) ∧
      (∀ j, j < 8 → bit (m.memN n 7 1) j = (bit (s.mod.memN n 7 1) j || decide ((act = 1 ∧ j = 2) ∨ (act = 2 ∧ j = 3)))) ∧
      (∀ k i, k < 1024 → i < 512 → (k, i) ∉ [(n.val, 0x1F0), (n.val, 0x1F1), (n.val, 7)] → m.memB k i = s.mod.memB k i) ∧
      m.pi = s.mod.pi ∧ m.funcs = s.mod.funcs ∧ m.slotRun n = r ∧
      ∃ x e, m = settle x ∧ x.agate.raised = s.mod.agate.raised ++ [e] ∧ e.source = n.val ∧ e.code = 0x0303 ∧ e.epoch = r.epoch) ∧
    (¬ due → completes (.feAlarm n) s (after [] s.mod))) ∧
  (∀ (s : State) (r : Fin 64) (i : Fin 8) (cycle e now k : Nat), hookDue s.mod r i cycle e now k →
    let bs := s.mod.cfgB (Ent.recipeImage r)
    let ex := rcExit bs k i
    let x := s.mod.rrun r
    let c := (now - e) * 4000 + cycle
    let n := if exitTerm s.mod x (rcGroup bs) e ex = true then min 65535 (x.quals.getD i 0 + 1) else 0
    (c + 82 ≤ s.mod.cfg (Ent.groupPhase (rcGroup bs)) → completes (.hookExitEvaluation r i cycle) s fun m =>
      (m.rrun r).quals = x.quals.set i n ∧ (m.rrun r).results = x.results.set i (some (decide (ex.qual ≤ n))) ∧ m.pi = s.mod.pi ∧ m.funcs = s.mod.funcs ∧
      (∀ q, q ≠ r.val → m.rrun q = s.mod.rrun q) ∧ m.stat (Ent.recipeLateHooks r) = s.mod.stat (Ent.recipeLateHooks r)) ∧
    (s.mod.cfg (Ent.groupPhase (rcGroup bs)) < c + 82 → completes (.hookExitEvaluation r i cycle) s fun m =>
      (m.rrun r).quals = x.quals.set i 0 ∧ m.pi = s.mod.pi ∧ m.funcs = s.mod.funcs ∧
      (∀ q, q ≠ r.val → m.rrun q = s.mod.rrun q) ∧ m.stat (Ent.recipeLateHooks r) = countedBy 1 (Ent.recipeLateHooks r) s.mod)) ∧
  (∀ (s : State) (r : Fin 64) (i : Fin 8) (cycle : Nat),
    (s.mod.tick.epoch = none ∨ (s.mod.rrun r).evaluating = false ∨ (s.mod.rrun r).results[i.val]? ≠ some none ∨ s.mod.disp.hooks = [] →
      completes (.hookExitEvaluation r i cycle) s (after [] (toCycle cycle s.mod)))) ∧
  ∀ s : State,
    (s.mod.slate.building = [] → completes .stageBuildComplete s (· = s.mod)) ∧
    ∀ r st rest, s.mod.slate.building = (r, st) :: rest → completes .stageBuildComplete s fun m =>
      m = { s.mod with slate := m.slate } ∧ m.slate = { s.mod.slate with runs := m.slate.runs, building := rest } ∧
      (∀ q, q ≠ r → m.rrun q = s.mod.rrun q) ∧ m.rrun r = { s.mod.rrun r with stages := (m.rrun r).stages } ∧
      (m.rrun r).stages.length = (s.mod.rrun r).stages.length ∧ (st ∈ (s.mod.rrun r).stages → { st with built := true } ∈ (m.rrun r).stages) ∧
      ∀ y ∈ (s.mod.rrun r).stages, y ≠ st → y ∈ (m.rrun r).stages

/-! ### The axes' own inputs (chapter 8) -/

/-- Every axis but `a`, the process image and the functions are as they were. -/
def Sys2Proof.Machine.onlyAxis (s : State) (a : Nat) (m : Module) : Prop :=
  (∀ b, b ≠ a → m.axis b = s.mod.axis b) ∧ m.pi = s.mod.pi ∧ m.funcs = s.mod.funcs ∧ m.tick = s.mod.tick

/-- One motion event of the axis has been raised. -/
def Sys2Proof.Machine.axisRaised (s : State) (a code : Nat) (m : Module) : Prop :=
  ∃ x e, m = settle x ∧ x.agate.raised = s.mod.agate.raised ++ [e] ∧ e.source = fnAxis a ∧ e.code = code

/-- The axis of no moving group, whose segment of this instant began in a moving state at an emitted position equal to its profile's, its profile unfiltered, comes to rest there in FAULT. -/
def Sys2Proof.Machine.haltedInFault (s : State) (a : Nat) (m : Module) : Prop :=
  (m.axis a).st = .fault ∧ (m.axis a).prof.v = 0 ∧ (m.axis a).prof.p = (s.mod.axis a).before.p ∧ (m.axis a).seg1 = (s.mod.axis a).seg0

/-- A hard stop of the axis acts on a segment that it computes alone. -/
def Sys2Proof.Machine.stopsAlone (m : Module) (a : Nat) : Prop :=
  movingGroup m a = none ∧ axisNj m a = 1 ∧ ((m.axis a).beforeSt = .moving ∨ (m.axis a).beforeSt = .following) ∧ (m.axis a).homePhase = .none ∧
    (m.axis a).seg0 = (m.axis a).before.p

/-- Steps A and B of a forward count: 00, 10, 11, 01 (A before B). -/
def Sys2Proof.Machine.forwardEdge (p q : Nat) : Bool := [(0, 2), (2, 3), (3, 1), (1, 0)].contains (p, q)

/-- What the axes' inputs bring. -/
def Obligations.AxisInputs : Prop :=
  (∀ (s : State) (a : Fin 32) (neg : Bool), (tripDue neg s.mod a = false → completes (.limitTrip a neg) s (after [] s.mod)) ∧
    (tripDue neg s.mod a = true → completes (.limitTrip a neg) s fun m =>
      (m.axis a).latch neg = true ∧ (m.axis a).latch (!neg) = (s.mod.axis a).latch (!neg) ∧
      (∀ b, b ≠ a.val → (m.axis b).latchPos = (s.mod.axis b).latchPos ∧ (m.axis b).latchNeg = (s.mod.axis b).latchNeg) ∧
      (movingGroup s.mod a = none → onlyAxis s a m ∧
        let x := s.mod.axis a
        (x.beforeSt = .homing → refLimit x.homeMode = some neg → ∃ y, m = settle y ∧ y.agate.raised = s.mod.agate.raised) ∧
        (x.beforeSt = .homing → refLimit x.homeMode ≠ some neg → (m.axis a).fault = 4 ∧ (m.axis a).homed = false ∧ axisRaised s a 0x0803 m) ∧
        (x.beforeSt ≠ .homing → x.beforeSt ≠ .fault → axisRaised s a 0x0801 m ∧
          (m.axis a).fault = if x.fault = 0 ∨ x.fault = 3 then (if neg then 2 else 1) else x.fault) ∧
        (limitRamped s.mod a neg = false → stopsAlone s.mod a → haltedInFault s a m)))) ∧
  (∀ (s : State) (a : Fin 32), (stallDue s.mod a = false → completes (.stallFault a) s (after [] s.mod)) ∧
    (stallDue s.mod a = true → movingGroup s.mod a = none → (s.mod.axis a).beforeSt ≠ .fault → (s.mod.axis a).beforeSt ≠ .stepin → completes (.stallFault a) s fun m =>
      onlyAxis s a m ∧ axisRaised s a 0x0802 m ∧ (m.axis a).fault = (if (s.mod.axis a).fault = 0 then 3 else (s.mod.axis a).fault) ∧
      (s.mod.cfg (Ent.axisStallAction a) = 2 → stopsAlone s.mod a → haltedInFault s a m))) ∧
  (∀ (s : State) (a : Fin 32),
    let x := s.mod.axis a
    let far := s.mod.active (fnAxis a) = true ∧ x.st = .homing ∧ (x.homePhase = .search ∨ x.homePhase = .creep ∨ x.homePhase = .index) ∧
      (s.mod.cfg (Ent.axisHomeTravel a) : Int) * 65536 < ((x.prof.p - x.homeFrom).natAbs : Int)
    (far → movingGroup s.mod a = none → completes (.homeNotFound a) s fun m =>
      onlyAxis s a m ∧ axisRaised s a 0x0805 m ∧ (m.axis a) = { x with st := .stopping, fault := 5, toFault := true, stopHard := false, stopDec := s.mod.cfg (Ent.axisDec a), spread := none }) ∧
    (¬ far → completes (.homeNotFound a) s fun m => m.motion = s.mod.motion ∧ m.pi = s.mod.pi ∧ m.funcs = s.mod.funcs)) ∧
  (∀ (s : State) (a : Fin 32) (mc : Nat) (neg : Bool), solo s.mod →
    let x := s.mod.axis a
    let n := s.mod.cfg (Ent.axisMicrosteps a)
    let t := s.mod.motionCycle + mc
    let steps := s.mod.active (fnAxis a) = true ∧ s.mod.cfg (Ent.axisSource a) = 2
    (¬ steps ∨ x.st = .disabled ∨ x.st = .moving ∨ x.st = .homing ∨ x.st = .following → completes (.coarseStep a mc neg) s (after [] s.mod)) ∧
    (steps → x.st = .stopping ∨ x.st = .interrupted ∨ x.st = .fault → completes (.coarseStep a mc neg) s fun m =>
      m.motion = s.mod.motion ∧ m.pi = s.mod.pi ∧ m.stat (Ent.axisStepinDropped a) = countedBy n (Ent.axisStepinDropped a) s.mod) ∧
    (steps → x.st = .standstill ∨ x.st = .stepin → x.siTimes = [] → 1 ≤ n → n ≤ 65535 → completes (.coarseStep a mc neg) s fun m =>
      onlyAxis s a m ∧ (m.axis a).siLast = some t ∧ (m.axis a).siTimes.length = n ∧ ((m.axis a).siTimes.head?.map Prod.fst) = some (stepFree t x (s.mod.motionCycle + 2000)) ∧
      (m.axis a).siTimes.Pairwise (fun p q => p.1 + 25 ≤ q.1) ∧ (∀ y ∈ (m.axis a).siTimes, y.2 = if neg then -1 else 1) ∧
      (m.axis a).prof.p = x.prof.p ∧ (m.axis a).st = x.st)) ∧
  (∀ (s : State) (a : Fin 32) (mc : Nat),
    let used := s.mod.active (fnAxis a) = true ∧ s.mod.cfg (Ent.axisEncMode a) ≠ 0
    (¬ used → completes (.zEdge a mc) s (· = s.mod)) ∧
    (used → completes (.zEdge a mc) s fun m => onlyAxis s a m ∧ (m.axis a) = { s.mod.axis a with zPos := (m.axis a).zPos, zRef := (m.axis a).zRef } ∧
      ((s.mod.axis a).st ≠ .homing → (m.axis a).zPos = posAt (s.mod.axis a) mc ∧ (m.axis a).zRef = (s.mod.axis a).zRef) ∧
      ((s.mod.axis a).zRef ≠ none → (m.axis a).zRef = (s.mod.axis a).zRef))) ∧
  ∀ (s : State) (a : Fin 32) (ab : Fin 4),
    let x := s.mod.axis a
    let used := s.mod.active (fnAxis a) = true ∧ s.mod.cfg (Ent.axisEncMode a) ≠ 0
    let one : BitVec 32 := if bit (s.mod.cfg (Ent.axisOutPolarity a)) 3 then -1 else 1
    (¬ used → completes (.quadratureEdge a ab) s (· = s.mod)) ∧
    (used → x.encAB < 4 → completes (.quadratureEdge a ab) s fun m => onlyAxis s a m ∧ m.agate = s.mod.agate ∧
      (m.axis a) = { x with encAB := ab, encHw := (m.axis a).encHw } ∧
      (forwardEdge x.encAB ab → (m.axis a).encHw = x.encHw + one) ∧ (forwardEdge ab x.encAB → (m.axis a).encHw = x.encHw - one) ∧
      (¬ forwardEdge x.encAB ab → ¬ forwardEdge ab x.encAB → (m.axis a).encHw = x.encHw) ∧
      m.stat (Ent.axisEncErrors a) = countedBy (if x.encAB ≠ ab.val ∧ ¬ forwardEdge x.encAB ab ∧ ¬ forwardEdge ab x.encAB then 1 else 0) (Ent.axisEncErrors a) s.mod)

/-! ### Acquisition (chapter 11) and the recorder's own work (chapter 12) -/

/-- A running sample's place among the copied ones. -/
def Sys2Proof.Machine.copiedAt (m : Module) (key e : Nat) : Option Sample := Sparse.get (fun _ => none) m.acq.copied (key * 2 ^ 64 + e)

/-- The block of group `g` that ends at the running tick is open and due (R343). -/
def Sys2Proof.Machine.blockDue (m : Module) (g now : Nat) : Prop :=
  m.tick.epoch = some now ∧ samples g now = true ∧ divisor g ≤ now ∧ m.tick.cycle ≤ 3840 ∧ m.closedTo g ≤ now - divisor g

/-- A window is the one that pinListens to a pin's edge of this sense. -/
def Sys2Proof.Machine.pinListens (m : Module) (w k : Nat) (falling : Bool) : Prop :=
  m.active (fnWin w) = true ∧ m.cfg (Ent.winTrigSource w) = 2 + k ∧ (m.cfg (Ent.winTrigEdge w) = 1 ↔ falling = true)

/-- Acquisition's own steps. -/
def Obligations.AcquisitionSteps : Prop :=
  (∀ s : State, (s.mod.acq.marks = [] → completes .acquisitionCopy s (after [] s.mod)) ∧
    ∀ a rest, s.mod.acq.marks = a :: rest → completes .acquisitionCopy s fun m =>
      let w := s.mod.word a
      let e := wordEpoch s.mod w
      m.acq.marks = rest.filter (· ≠ a) ∧ m.pi = s.mod.pi ∧ m.funcs = s.mod.funcs ∧
      (e < s.mod.closedTo (wGroup w) → m.acq.copied = s.mod.acq.copied ∧ m.stat Ent.acqLateWrites = countedBy 1 Ent.acqLateWrites s.mod) ∧
      (s.mod.closedTo (wGroup w) ≤ e → copiedAt m a e = some w ∧ (∀ k, k ≠ a * 2 ^ 64 + e → Sparse.get (fun _ => none) m.acq.copied k = Sparse.get (fun _ => none) s.mod.acq.copied k) ∧
        m.stat Ent.acqLateWrites = s.mod.stat Ent.acqLateWrites)) ∧
  (∀ (s : State) (g : Fin 8),
    ((∀ now, ¬ blockDue s.mod g now) → completes (.blockClose g) s (after [] s.mod)) ∧
    ∀ now, blockDue s.mod g now → completes (.blockClose g) s fun m =>
      let e := now - divisor g
      m.tick.cycle = 3840 ∧ m.closedTo g = e + 1 ∧ (∀ h, h ≠ g.val → m.closedTo h = s.mod.closedTo h) ∧ m.pi = s.mod.pi ∧ m.funcs = s.mod.funcs ∧
      (s.mod.acq.marks = [] → (∀ u, u < 16 → s.mod.cfg (Ent.winTrigSource u) ≠ 1) → ∀ w, w < 16 → s.mod.active (fnWin w) = true → s.mod.cfg (Ent.winGroup w) = g →
        (s.mod.win w).st = .armed → (s.mod.win w).armedAt ≤ e → (s.mod.win w).ring.length < s.mod.cfg (Ent.winPre w) →
        let b : Block := ⟨e, g, 0, s.mod.cfg (Ent.winPacking w), (winChans s.mod w).map (fun c => winSample s.mod g c.1 e), []⟩
        (captureBytes ((s.mod.win w).ring ++ [b])).length ≤ slotBytes s.mod w → m.win w = { s.mod.win w with ring := (s.mod.win w).ring ++ [b] })) ∧
  (∀ s : State, solo s.mod →
    let A := s.mod.acq
    let live := s.mod.running fnStream = true ∧ A.session ≠ 0
    let size := fun (n : Nat) => ((A.staging.take n).flatMap stagedBytes).length
    (¬ live ∨ A.staging = [] → completes .streamSend s (· = s.mod)) ∧
    ∀ n, live → 0 < n → n ≤ A.staging.length → size n ≤ 1404 → (n = A.staging.length ∨ 1404 < size (n + 1)) → completes .streamSend s fun m =>
      m.out = s.mod.out ++ [.stream A.session (A.seq + 1) (leBytes 2 n ++ leBytes 2 0 ++ (A.staging.take n).flatMap stagedBytes)] ∧
      m.acq.staging = A.staging.drop n ∧ m.acq.seq = A.seq + 1 ∧ m.acq.wins = A.wins ∧ m.acq.copied = A.copied ∧ m.pi = s.mod.pi ∧ m.funcs = s.mod.funcs) ∧
  (∀ (s : State) (k : Fin 2) (falling : Bool),
    (s.mod.tick.epoch = none ∨ (∀ w, w < 16 → ¬ pinListens s.mod w k falling) → completes (.trigInEdge k falling) s (after [] s.mod)) ∧
    ∀ w e, solo s.mod → s.mod.tick.epoch = some e → w < 16 → pinListens s.mod w k falling → (∀ u, u < 16 → u ≠ w → ¬ pinListens s.mod u k falling) →
      (∀ u, u < 16 → s.mod.cfg (Ent.winTrigSource u) ≠ 4) → completes (.trigInEdge k falling) s fun m =>
        let x := s.mod.win w
        let t : Trig := ⟨2 + k, k, e, s.mod.now⟩
        let first := match x.ring with | b :: _ => b.epoch | [] => x.armedAt
        (∀ u, u ≠ w → m.win u = s.mod.win u) ∧ m.pi = s.mod.pi ∧ m.funcs = s.mod.funcs ∧
        (x.st = .armed → first ≤ e → (m.win w).st = .triggered ∧ (m.win w).trig = some t ∧ (m.win w).missed = x.missed ∧
          ((m.win w).ring ++ (m.win w).post).length = x.ring.length) ∧
        ((x.st = .armed ∧ e < first) ∨ (x.st ≠ .armed ∧ x.st ≠ .triggered) → (m.win w) = { x with missed := min (x.missed + 1) (2 ^ 32 - 1), missedSince := min (x.missedSince + 1) (2 ^ 32 - 1) }) ∧
        (∀ old, x.st = .triggered → x.trig = some old →
          (old.epoch = e → (m.win w) = { x with coinc := x.coinc + 1, trig := some (if t.time.toNs < old.time.toNs ∨ (t.time = old.time ∧ t.source < old.source) then t else old) }) ∧
          (old.epoch ≠ e → (m.win w) = { x with missed := min (x.missed + 1) (2 ^ 32 - 1), missedSince := min (x.missedSince + 1) (2 ^ 32 - 1) }))) ∧
  (∀ (s : State) (w : Fin 16),
    let x := s.mod.win w
    let ready := x.st = .rearm ∧ x.rearm = 0 ∧ s.mod.running (fnWin w) = true
    (¬ ready → completes (.rearmExpiry w) s (after [] s.mod)) ∧
    (ready → completes (.rearmExpiry w) s fun m => (∀ u, u ≠ w.val → m.win u = s.mod.win u) ∧ m.pi = s.mod.pi ∧ m.funcs = s.mod.funcs ∧
      (∀ k, armSlot s.mod w = some k → (m.win w).st = .armed ∧ (m.win w).slot = k ∧ (m.win w).ring = [] ∧ (m.win w).trig = none ∧ (m.win w).armedAt = s.mod.nextEpoch ∧
        Sparse.get (fun _ => none) (m.win w).slots k = none ∧ raisedIn s.mod [] m) ∧
      (armSlot s.mod w = none → (m.win w).st = .waitSlot ∧ (m.win w).slots = x.slots ∧
        (x.waitNoted = false → raisedIn s.mod [eventNow s.mod (fnWin w) 0x0B03 (leBytes 1 w ++ leBytes 1 0xFF ++ leBytes 1 0 ++ leBytes 4 0 ++ leBytes 4 0)] m)))) ∧
  ∀ (s : State) (k : Fin 2), completes (.trigOutPulseEnd k) s fun m => m = { s.mod with acq := { s.mod.acq with trigOut := m.acq.trigOut } } ∧
    ∀ j, bit m.acq.trigOut j = if j = k.val then false else bit s.mod.acq.trigOut j

/-- A module of no pair writes its own records, and nothing lies before them in its ride-through journal. -/
def Sys2Proof.Machine.writesOwn (m : Module) : Prop := solo m ∧ m.agate.raised = [] ∧ (m.power.ride = .persist → m.power.journalBytes = 0)

/-- A record stands in a slot of the store, and every other slot is as it was. -/
def Sys2Proof.Machine.storedAt (s : State) (k : Nat) (b : List Byte) (m : Module) : Prop := m.slotOf k = b ∧ ∀ j, j ≠ k → m.slotOf j = s.mod.slotOf j

/-- The recorder's own steps. -/
def Obligations.RecordsAndWindows : Prop :=
  (∀ s : State, writesOwn s.mod →
    (s.mod.agate.queue = [] → completes .recordWrite s (· = s.mod)) ∧
    ∀ r q, s.mod.agate.queue = r :: q →
      let A := s.mod.agate
      (completes .recordWrite s fun m => m.pi = s.mod.pi ∧ m.funcs = s.mod.funcs ∧ m.power.workBytes = s.mod.power.workBytes - (if s.mod.power.ride = .persist then 64 else 0)) ∧
      (r.clear = false → A.used < 2097151 → completes .recordWrite s fun m => storedAt s A.used (recordBytes r.seq r.rep r.ev) m ∧ m.agate.used = A.used + 1 ∧
        m.agate.descr = A.descr ∧ (A.warned = true ∨ (A.used + 1) * 100 < s.mod.cfg Ent.agateWarnLevel * 2097152 → m.agate.queue = q ∧ m.agate.nextSeq = A.nextSeq) ∧
        (A.warned = false → s.mod.cfg Ent.agateWarnLevel * 2097152 ≤ (A.used + 1) * 100 → ∃ x e, m = settle x ∧ x.agate.raised = [e] ∧ e.source = fnAgate ∧ e.code = 0x0C05)) ∧
      (r.clear = false → A.used = 2097151 → completes .recordWrite s fun m =>
        storedAt s A.used (recordBytes r.seq 0 ⟨fnAgate, 0x0C01, Nat.land r.ev.flags 4, r.ev.time, r.ev.epoch, leBytes 2 r.ev.source ++ leBytes 2 r.ev.code⟩) m ∧
        m.agate.used = A.used + 1 ∧ m.agate.descr = { A.descr with lost := 1, firstLost := r.ev.time, lastLost := r.ev.time } ∧ m.agate.queue = q) ∧
      (r.clear = false → 2097152 ≤ A.used → completes .recordWrite s fun m =>
        (∀ k, m.slotOf k = s.mod.slotOf k) ∧ m.agate.used = A.used ∧ m.agate.descr.lost = min (A.descr.lost + 1) (2 ^ 32 - 1) ∧ m.agate.descr.lastLost = r.ev.time ∧
        (A.descr.lost ≠ 0 → m.agate.descr.firstLost = A.descr.firstLost) ∧
        m.agate.queue = q.map (fun y => { y with seq := (y.seq + 2 ^ 32 - 1) % 2 ^ 32 }) ∧ m.agate.nextSeq = (A.nextSeq + 2 ^ 32 - 1) % 2 ^ 32) ∧
      (r.clear = true → completes .recordWrite s fun m =>
        storedAt s 0 (recordBytes r.seq 0 { r.ev with body := leBytes 4 A.descr.base ++ leBytes 4 s.mod.lastSeq ++ leBytes 4 A.descr.lost ++ r.ev.body.drop 12 }) m ∧
        m.agate.used = 1 ∧ m.agate.descr = ⟨r.seq, r.ev.time, 0, T80.zero, T80.zero⟩ ∧ m.agate.warned = false ∧ m.agate.queue = q ∧
        m.nv.descrA = some m.agate.descr ∧ m.nv.descrB = some m.agate.descr)) ∧
  ∀ s : State, s.mod.agate.raised = [] →
    let run := fun (w : RepWin) => w.opening.time.toNs + w.len * 1000000 ≤ s.mod.nowNs
    completes .repeatWindowClose s fun m =>
      m.agate.windows = s.mod.agate.windows.filter (fun w => !decide (run w)) ∧ m.pi = s.mod.pi ∧ m.funcs = s.mod.funcs ∧ m.nv.store = s.mod.nv.store ∧
      s.mod.agate.queue <+: m.agate.queue ∧
      ((∀ w ∈ s.mod.agate.windows, run w → w.folded = 0) → m.agate.queue = s.mod.agate.queue) ∧
      ∀ w, s.mod.agate.windows.filter (fun w => decide (run w)) = [w] → w.folded ≠ 0 → s.mod.agate.queue.length < 4096 → s.mod.agate.dropRun = none →
        ∃ r, m.agate.queue = s.mod.agate.queue ++ [r] ∧ r.rep = min w.folded 65535 ∧ r.ev = w.lastEv ∧ r.seq = s.mod.agate.nextSeq ∧ m.agate.nextSeq = (s.mod.agate.nextSeq + 1) % 2 ^ 32

/-! ### The redundant pair (chapter 14) -/

/-- Redundancy events have been raised, in this order of codes. -/
def Sys2Proof.Machine.redRaised (v : Module) (codes : List Nat) (m : Module) : Prop :=
  ∃ x es, m = settle x ∧ x.agate.raised = v.agate.raised ++ es ∧ es.map (fun e => (e.source, e.code)) = codes.map fun c => (fnRed, c)

/-- The module with a frame of its partner taken: its SEQ noted and an ACK sent for it (R422). -/
def Sys2Proof.Machine.received (m : Module) : Module :=
  { m with
    out := m.out ++ [.itpel ⟨false, (m.red.txSeq + 1) % 2 ^ 16, m.epochWire, .ack false (rxNext m)⟩]
    red := { m.red with rxSeq := some (rxNext m), txSeq := (m.red.txSeq + 1) % 2 ^ 16 } }

/-- The module with its link UP to a partner. -/
def Sys2Proof.Machine.linkedTo (delay : Nat) (p : Partner) (m : Module) : Module :=
  { m with red := { m.red with link := 2, delay := delay, partner := some p, rxSeq := none, replay := [] } }

/-- RESYNC begins by itself (Table 14.2): the pair is formed, without lockstep and wiring fault, and automatic RESYNC is on and due. -/
def Sys2Proof.Machine.resyncDue (m : Module) : Prop :=
  pairFormed m = true ∧ (m.red.st = 0 ∨ m.red.st = 4 ∨ m.red.st = 5) ∧ m.red.wiring = false ∧ m.cfgOn Ent.redAutoResync = true ∧ m.red.retryDue = true ∧ m.red.verifyFails < 3

/-- RESYNC has begun: what lockstep keeps is dropped, and a holder has sent configuration and history (R444). -/
def Sys2Proof.Machine.resyncBegun (v m : Module) : Prop :=
  m.red.st = 1 ∧ m.red.phase = (if v.red.hold then 3 else 1) ∧ m.red.joined = [] ∧ m.red.mirrors = [] ∧ m.red.hold = v.red.hold ∧ m.pi = v.pi ∧ m.funcs = v.funcs ∧ m.tick = v.tick ∧
    m.stat Ent.redResyncProgress = (if v.red.hold then 98 else 0) ∧ m.dict.live = v.dict.live ∧
    if v.red.hold then ∃ a b : ItFrame, m.out = v.out ++ [.itpel a, .itpel b] ∧ a.body = .bulk (bulkConfig v) ∧ b.body = .bulk (bulkHistory v) ∧
      m.red.replay = v.red.replay ++ [(a, 0), (b, 0)]
    else m.out = v.out

/-- The Itpel link. -/
def Obligations.ItpelLink : Prop :=
  (∀ (s : State) (d : Nat) (p : Partner),
    let L := linkedTo d p s.mod
    (s.mod.red.link = 2 → completes (.itpelLinkUp d p) s (after [] s.mod)) ∧
    (s.mod.red.link ≠ 2 → s.mod.cfgOn Ent.redEnable = false → completes (.itpelLinkUp d p) s fun m =>
      redRaised s.mod [0x0E05] m ∧ m.red.link = 2 ∧ m.red.delay = d ∧ m.red.partner = some p ∧
      m.red.st = s.mod.red.st ∧ m.red.hold = s.mod.red.hold ∧ m.red.reason = (if identityDiffers L then 10 else s.mod.red.reason) ∧ m.pi = s.mod.pi ∧ m.funcs = s.mod.funcs) ∧
    (s.mod.red.link ≠ 2 → resyncDue L → completes (.itpelLinkUp d p) s fun m => resyncBegun L m ∧ redRaised s.mod [0x0E05, 0x0E01, 0x0E08] m)) ∧
  (∀ s : State,
    (s.mod.red.link ≠ 2 → completes .itpelLinkDown s (after [] s.mod)) ∧
    (s.mod.red.link = 2 → s.mod.odp.withheld = [] → s.mod.power.booted = true → s.mod.red.hold = true → s.mod.red.lines = 0 → (s.mod.red.st ≠ 2 ∨ s.mod.red.verifyFails < 2) →
      completes .itpelLinkDown s fun m => m.red.link = 0 ∧ m.red.st = 5 ∧ m.red.reason = 1 ∧ m.red.hold = true ∧ m.red.computing = s.mod.red.computing ∧
        m.red.forwards = [] ∧ m.lockstep = false ∧ m.pi = s.mod.pi ∧ m.funcs = s.mod.funcs ∧ m.tick = s.mod.tick) ∧
    (s.mod.red.link = 2 → s.mod.odp.withheld = [] → s.mod.power.booted = true → s.mod.red.hold = false → s.mod.red.lines = 1 → s.mod.red.st ≠ 4 →
      completes .itpelLinkDown s fun m => m.red.link = 0 ∧ m.red.st = 4 ∧ m.red.hold = false ∧ m.red.computing = false ∧ m.red.forwards = [] ∧
        m.pi = s.mod.pi ∧ m.funcs = s.mod.funcs ∧ m.tick = s.mod.tick)) ∧
  (∀ (s : State) (q : Nat),
    ((∀ x ∈ s.mod.red.replay, x.1.seq ≠ q) → completes (.itpelResendTimeout q) s (after [] s.mod) ∧
      (s.mod.red.link = 2 → completes (.ackNakFrame false q) s (after [] { s.mod with red := { s.mod.red with rxSeq := some (rxNext s.mod) } }))) ∧
    (s.mod.red.link ≠ 2 → ∀ nak, completes (.ackNakFrame nak q) s (after [] s.mod)) ∧
    ∀ l f n r, s.mod.red.replay = l ++ (f, n) :: r → f.seq = q → (∀ x ∈ l, x.1.seq ≠ q) →
      (n < 3 → completes (.itpelResendTimeout q) s (after [] (Module.bump Ent.redLinkResends { s.mod with
        out := s.mod.out ++ [Out.itpel { f with resend := true }]
        red := { s.mod.red with replay := l ++ (f, n + 1) :: r } }))) ∧
      (3 ≤ n → exec (.itpelResendTimeout q) s = exec .itpelLinkDown s) ∧
      (s.mod.red.link = 2 → n < 3 → completes (.ackNakFrame true q) s (after [] (Module.bump Ent.redLinkResends { s.mod with
        out := s.mod.out ++ [Out.itpel { f with resend := true }]
        red := { s.mod.red with replay := l ++ (f, n + 1) :: r, rxSeq := some (rxNext s.mod) } }))) ∧
      (s.mod.red.link = 2 → s.mod.odp.withheld = [] → completes (.ackNakFrame false q) s (after [] { s.mod with red := { s.mod.red with replay := r, rxSeq := some (rxNext s.mod) } }))) ∧
  (∀ (s : State) (r : Req) (role : Role),
    (s.mod.red.link ≠ 2 → ∀ a, completes (.forwardFrame r role a) s (after [] s.mod)) ∧
    (s.mod.red.link = 2 → s.mod.red.hold = false → completes (.forwardFrame r role none) s (after [] (received s.mod))) ∧
    (s.mod.red.link = 2 → s.mod.red.hold = true → s.mod.standby = false → s.mod.agate.raised = [] → s.mod.power.recovery = false → s.mod.ticking = true → r.fr.session < 2 ^ 32 →
      imageReq r → r.op = 1 → r.flags ≤ 1 → completes (.forwardFrame r role none) s fun m => m.pi = s.mod.pi ∧ m.funcs = s.mod.funcs ∧ m.odp.sessions = s.mod.odp.sessions ∧
        ∃ f a, m.out = (received s.mod).out ++ [.itpel f] ∧ (∃ q, f.body = .forward q .service (some a)) ∧ a.session = r.fr.session ∧ a.id = r.fr.id ∧ a.status = stOk ∧
          a.data = imageBytes s.mod (imageAddr r.index r.sub) 1) ∧
    ∀ (a : Resp) (x : Session), s.mod.red.link = 2 → s.mod.agate.raised = [] → r ∈ s.mod.red.forwards → r.fr.session = a.session → r.fr.id = a.id → a.session < 2 ^ 32 →
      s.mod.odp.sessions.find? (fun y => y.id == a.session) = some x → x.tx + 1 < 2 ^ 48 → completes (.forwardFrame r role (some a)) s fun m =>
        m.out = (received s.mod).out ++ [.resp a] ∧ (∀ y ∈ m.red.forwards, ¬ (y.fr.session = a.session ∧ y.fr.id = a.id)) ∧ m.pi = s.mod.pi ∧ m.funcs = s.mod.funcs) ∧
  (∀ (s : State) (e : Event),
    (s.mod.red.link ≠ 2 → completes (.eventFrame e) s (after [] s.mod)) ∧
    (s.mod.red.link = 2 → s.mod.red.hold = false → completes (.eventFrame e) s (after [] (received s.mod))) ∧
    (s.mod.red.link = 2 → s.mod.red.hold = true → s.mod.agate.raised = [] → s.mod.agate.windows = [] → s.mod.agate.dropRun = none → s.mod.agate.queue.length < 4096 →
      completes (.eventFrame e) s fun m => m.out = (received s.mod).out ∧ m.pi = s.mod.pi ∧
        ∃ r, m.agate.queue = s.mod.agate.queue ++ [r] ∧ r.ev = { e with source := (e.source + 0x8000) % 2 ^ 16 } ∧ r.seq = s.mod.agate.nextSeq)) ∧
  ∀ s : State,
    (s.mod.red.link ≠ 2 → completes .healthSend s (after [] s.mod)) ∧
    (s.mod.red.link = 2 →
      let f : ItFrame := ⟨false, (s.mod.red.txSeq + 1) % 2 ^ 16, s.mod.epochWire, .health s.mod.redState s.mod.red.reason s.mod.red.lines s.mod.red.pwrOk (ownPartner s.mod)⟩
      completes .healthSend s (after [] { s.mod with
        out := s.mod.out ++ [.itpel f]
        red := { s.mod.red with txSeq := f.seq, replay := s.mod.red.replay ++ [(f, 0)] } }))

/-- Lockstep has ended (R433, R446): the member reports DEGRADED, a standby computes no more, and the third failed VERIFY in a row gives STANDBY_FAULT. -/
def Sys2Proof.Machine.lockstepEnded (v : Module) (reason : Nat) (m : Module) : Prop :=
  m.red.st = 5 ∧ m.red.reason = (if v.red.st = 2 ∧ 2 ≤ v.red.verifyFails then 8 else reason) ∧ m.red.hold = v.red.hold ∧ m.red.computing = (v.red.hold && v.red.computing) ∧
    m.red.mirrors = [] ∧ m.red.digests = [] ∧ m.red.waiting = false ∧ m.pi = v.pi ∧ m.funcs = v.funcs ∧ m.tick = v.tick ∧
    redRaised v ((if v.red.wiring then [] else [0x0E01]) ++ (if v.red.hold then [] else [0x0E04]) ++ (if v.red.st = 2 then [0x0E09] else [])) m

/-- A member that takes its holder's frames over the link. -/
def Sys2Proof.Machine.hears (m : Module) : Prop := m.red.link = 2 ∧ m.red.hold = false ∧ (m.red.st = 1 ∨ m.red.st = 2 ∨ m.red.st = 3)

/-- Frames of the holder and the comparison. -/
def Obligations.LockstepFrames : Prop :=
  (∀ (s : State) (c : Instr), (match c with
      | .tickFrame _ _ | .mirrorFrame _ _ | .changeFrame _ | .decisionFrame _ _ | .recordFrame _ _ | .bulkFrame _ | .joinFrame _ _ _ => True
      | _ => False) →
    (s.mod.red.link ≠ 2 → completes c s (after [] s.mod)) ∧
    (s.mod.red.link = 2 → ¬ hears s.mod → completes c s (after [] (received s.mod)))) ∧
  (∀ s : State, hears s.mod →
    let R := received s.mod
    (∀ e d, completes (.tickFrame e d) s (after [] { R with
      tick := { R.tick with disc := if s.mod.tick.disc = .stretched then .stretched else d }
      red := { R.red with tickEpoch := some e } })) ∧
    (∀ e l, s.mod.agate.raised = [] → completes (.mirrorFrame e l) s fun m =>
      (∀ k, k ≠ e → mirrorOf m k = mirrorOf s.mod k) ∧ m = { R with red := { R.red with mirrors := m.red.mirrors } } ∧
      (mirrorOf s.mod e = none → ∀ ws vs, l = [.input ws, .outputs vs, .done] → mirrorOf m e = some ⟨e, ws, [], vs, true⟩) ∧
      (∀ x b cy ws, mirrorOf s.mod e = some x → l = [.trunk b cy ws] → mirrorOf m e = some { x with trunk := x.trunk ++ [(b, cy, ws)] })) ∧
    (∀ ch, completes (.changeFrame ch) s (after [] { R with red := { R.red with changes := R.red.changes ++ [ch] } })) ∧
    (∀ e d, (s.mod.standby = false ∨ s.mod.tick.epoch ≠ some e) →
      completes (.decisionFrame e d) s (after [] { R with red := { R.red with decisions := R.red.decisions ++ [(e, d)] } })) ∧
    (∀ e d, s.mod.standby = true → s.mod.tick.epoch = some e → completes (.decisionFrame e d) s
      (after [] (takeDecision d { R with red := { R.red with decisions := R.red.decisions ++ [(e, d)] } }))) ∧
    (∀ e r, (takesRecords s.mod = true → completes (.recordFrame e r) s (after [] { R with red := { R.red with recs := R.red.recs ++ [(e, r)] } })) ∧
      (takesRecords s.mod = false → completes (.recordFrame e r) s (after [] R))) ∧
    (∀ b, s.mod.red.st ≠ 1 → completes (.bulkFrame b) s (after [] R)) ∧
    (∀ slots : List (Nat × List Byte), s.mod.red.st = 1 → s.mod.agate.raised = [] → slots.map Prod.fst = List.range slots.length → completes (.bulkFrame (.history slots)) s fun m =>
      (∀ k b, (k, b) ∈ slots → m.slotOf k = b) ∧ m.agate.used = slots.length ∧ m.agate.queue = [] ∧ m.red.phase = 3 ∧ m.pi = s.mod.pi ∧ m.funcs = s.mod.funcs ∧
      (∀ b t, slots = (0, b) :: t → m.agate.descr.base = leAt b 0 4 ∧ m.agate.nextSeq = (leAt b 0 4 + slots.length) % 2 ^ 32)) ∧
    (∀ sh lv shB lvB run, s.mod.red.st = 1 → Sparse.wf dfltCell lv = true → completes (.bulkFrame (.config sh lv shB lvB run)) s fun m =>
      (∀ k, Sparse.get dfltCell m.dict.live k = if sharedRws k = true then Sparse.get dfltCell lv k else if Sparse.get dfltCell lv k = dfltCell k then Sparse.get dfltCell s.mod.dict.live k else Sparse.get dfltCell lv k) ∧
      m.funcs = s.mod.funcs ∧ m.pi = s.mod.pi ∧ m.red.phase = s.mod.red.phase) ∧
    (∀ f e st, s.mod.red.st ≠ 1 ∨ isFn f = false → completes (.joinFrame f e st) s (after [] R)) ∧
    (∀ (n : Fin 1024) e bs, s.mod.red.st = 1 → s.mod.tick.epoch ≠ none → completes (.joinFrame n e (.slot n bs)) s fun m =>
      m.red.joined = s.mod.red.joined ++ [n.val] ∧ m.red.computing = true ∧ (m.fn n).st = .running ∧ m.tick.epoch = s.mod.tick.epoch ∧
      (∀ i, i < 512 → ∀ b, bs[i]? = some b → m.memB n i = b) ∧ m.pi = s.mod.pi ∧ ∀ g, g ≠ n.val → m.fn g = s.mod.fn g)) ∧
  (∀ (s : State) (d : Digest),
    let same := fun (x : Digest) => x.kind = d.kind ∧ x.which = d.which ∧ x.epoch = d.epoch
    (s.mod.red.link ≠ 2 → completes (.digestFrame d) s (after [] s.mod)) ∧
    (s.mod.red.link = 2 → s.mod.red.hold = false ∨ s.mod.lockstep = false ∨ (∀ x ∈ s.mod.red.digests, ¬ same x) → completes (.digestFrame d) s (after [] (received s.mod))) ∧
    ∀ l x r, s.mod.red.link = 2 → s.mod.red.hold = true → s.mod.lockstep = true → s.mod.odp.withheld = [] → s.mod.red.digests = l ++ x :: r → same x → (∀ y ∈ l ++ r, ¬ same y) →
      (x.value = d.value → completes (.digestFrame d) s (after [] { received s.mod with red := { (received s.mod).red with digests := l ++ r } })) ∧
      (x.value ≠ d.value → completes (.digestFrame d) s fun m => lockstepEnded s.mod 3 m ∧ m.stat Ent.redMismatches = countedBy 1 Ent.redMismatches s.mod)) ∧
  (∀ (s : State) (st reason lines : Nat) (ok : Bool) (p : Partner),
    (s.mod.red.link ≠ 2 → completes (.healthFrame st reason lines ok p) s (after [] s.mod)) ∧
    (s.mod.red.link = 2 → s.mod.red.st = 0 → s.mod.cfgOn Ent.redEnable = false → completes (.healthFrame st reason lines ok p) s fun m =>
      m.red.partner = some p ∧ m.red.partnerState = st ∧ m.red.st = 0 ∧ m.red.hold = s.mod.red.hold ∧ m.pi = s.mod.pi ∧ m.funcs = s.mod.funcs ∧ m.out = (received s.mod).out) ∧
    (s.mod.red.link = 2 → s.mod.lockstep = true → s.mod.odp.withheld = [] → st = 5 → reason ≠ 7 → completes (.healthFrame st reason lines ok p) s fun m => lockstepEnded s.mod reason m ∧ m.red.partnerState = 5) ∧
    (s.mod.red.link = 2 → s.mod.red.st = 2 → s.mod.red.hold = false → st = 3 → completes (.healthFrame st reason lines ok p) s fun m =>
      m.red.st = 3 ∧ m.red.reason = 0 ∧ m.red.partnerState = 3 ∧ m.red.verifyFails = 0 ∧ redRaised s.mod ((if s.mod.red.wiring then [] else [0x0E01]) ++ [0x0E09]) m ∧ m.pi = s.mod.pi)) ∧
  ∀ s : State,
    (s.mod.red.st = 2 → s.mod.red.hold = false ∨ 1000 ≤ s.mod.red.verifyCount → completes .verifyPassed s fun m =>
      m.red.st = 3 ∧ m.red.reason = 0 ∧ m.red.verifyFails = 0 ∧ m.red.hold = s.mod.red.hold ∧ redRaised s.mod ((if s.mod.red.wiring then [] else [0x0E01]) ++ [0x0E09]) m ∧
      m.pi = s.mod.pi ∧ m.funcs = s.mod.funcs) ∧
    (s.mod.red.st ≠ 2 ∨ (s.mod.red.hold = true ∧ s.mod.red.verifyCount < 1000) → completes .verifyPassed s (after [] s.mod)) ∧
    (s.mod.red.suspended = 0 → s.mod.red.waiting = true → s.mod.standby = true → s.mod.lockstep = true → s.mod.odp.withheld = [] → completes .mirrorWaitExpiry s (lockstepEnded s.mod 5)) ∧
    (s.mod.red.suspended = 0 → s.mod.red.waiting = false ∨ s.mod.standby = false → completes .mirrorWaitExpiry s (after [] s.mod)) ∧
    (s.mod.red.suspended ≠ 0 → completes .mirrorWaitExpiry s fun m => m.red.suspended = 0 ∧ m.red.changes = [] ∧ m.red.mirrors = [] ∧ m.red.waiting = false ∧ m.red.st = s.mod.red.st ∧ m.pi = s.mod.pi) ∧
    (s.mod.red.hold = true → s.mod.red.digests ≠ [] → s.mod.lockstep = true → s.mod.odp.withheld = [] → completes .digestLate s (lockstepEnded s.mod 4)) ∧
    (s.mod.red.hold = false ∨ s.mod.red.digests = [] ∨ s.mod.lockstep = false → completes .digestLate s (after [] s.mod)) ∧
    (s.mod.standby = true → s.mod.red.strobeHeld = true → s.mod.lockstep = true → s.mod.odp.withheld = [] → completes .standbyLate s (lockstepEnded s.mod 6)) ∧
    (s.mod.standby = false ∨ s.mod.red.strobeHeld = false ∨ s.mod.lockstep = false → completes .standbyLate s (after [] s.mod)) ∧
    (s.mod.cfgOn Ent.redEnable = false → s.mod.red.partnerState ≠ 1 → completes .resyncRetry s (after [] { s.mod with red := { s.mod.red with retryDue := true } })) ∧
    (resyncDue { s.mod with red := { s.mod.red with retryDue := true } } → completes .resyncRetry s fun m => resyncBegun s.mod m ∧ redRaised s.mod [0x0E01, 0x0E08] m)

/-- A member that has come up and reads nothing of its own in its partner's lines is unchanged but for what recording changes. -/
def Sys2Proof.Machine.readsOnly (s : State) (lines : Nat) (m : Module) : Prop :=
  after [] { s.mod with red := { s.mod.red with lines := lines, fromHold := decide (s.mod.red.lines = 1), claimWait := false } } m

/-- A member may take the token (R435, R437): it has come up, its watchdog has not expired, it is not going down. -/
def Sys2Proof.Machine.tokenOpen (m : Module) : Prop := m.power.booted = true ∧ m.red.dogExpired = false ∧ m.power.ride = .none ∧ m.odp.withheld = []

/-- A takeover from here is cold (Table 14.1), allowed, and finds no function to start. -/
def Sys2Proof.Machine.coldHere (m : Module) : Prop :=
  tokenOpen m ∧ m.red.suspended = 0 ∧ m.red.st ≠ 2 ∧ m.red.st ≠ 3 ∧ m.cfgOn Ent.redColdTakeover = true ∧ 2 ≤ m.stat Ent.cfgActiveBank

/-- The member holds the token after a cold takeover: nothing runs, its words are 0, its configuration stays (R443). -/
def Sys2Proof.Machine.coldTaken (s : State) (m : Module) : Prop :=
  m.red.hold = true ∧ m.red.computing = true ∧ m.red.st = (if partnerHere s.mod then 5 else 0) ∧ m.red.reason = 11 ∧ m.tick.epoch = none ∧
    (∀ a, m.word a = 0) ∧ (∀ f, (m.fn f).st = .stopped) ∧ m.dict.live = s.mod.dict.live ∧ m.dict.shadow = s.mod.dict.shadow ∧ m.nv.ptr = s.mod.nv.ptr ∧
    m.stat Ent.redSwitchovers = countedBy 1 Ent.redSwitchovers s.mod ∧
    ∃ x es e, m = settle x ∧ x.agate.raised = s.mod.agate.raised ++ (es ++ [e]) ∧ e.source = fnRed ∧ e.code = 0x0E02

/-- A standby in SYNCHRONISED would take over hot at cycle `c` of its tick, from cycle 1,200 on. -/
def Sys2Proof.Machine.hotHere (m : Module) (e : Nat) : Prop :=
  tokenOpen m ∧ m.red.st = 3 ∧ m.red.suspended = 0 ∧ m.red.hold = false ∧ m.red.waiting = false ∧ m.red.wiring = false ∧ m.red.lag = 0 ∧ m.tick.epoch = some e ∧ 1200 ≤ m.tick.cycle

/-- The standby holds the token after a hot takeover at T = e + 2: the running tick is retired, and the next computes (R440). -/
def Sys2Proof.Machine.hotTaken (s : State) (e : Nat) (m : Module) : Prop :=
  m.red.hold = true ∧ m.red.computing = true ∧ m.red.st = (if partnerHere s.mod then 5 else 0) ∧ m.red.reason = 11 ∧ m.tick.epoch = some (e + 1) ∧ m.red.lastDone = e - 1 ∧
    m.red.mirrors = [] ∧ m.red.waiting = false ∧ m.stat Ent.redLastTakeover = e + 2 ∧ m.stat Ent.redSwitchovers = countedBy 1 Ent.redSwitchovers s.mod ∧
    (∀ i ∈ m.disp.insts, i.epoch ≤ e - 1 ∨ i.st = .running) ∧ m.dict.live = s.mod.dict.live

/-- The member drives RELEASE and computes nothing. -/
def Sys2Proof.Machine.released (s : State) (m : Module) : Prop :=
  m.red.hold = false ∧ m.red.computing = false ∧ m.red.releaseDue = none ∧ m.red.mirrors = [] ∧ m.pi = s.mod.pi ∧ m.funcs = s.mod.funcs ∧ m.flint = s.mod.flint

/-- Who drives. -/
def Obligations.TokenMoves : Prop :=
  (∀ (s : State) (k : Fin 3),
    (s.mod.red.lines = k.val → completes (.lodestoneQualified k) s (after [] s.mod)) ∧
    (s.mod.red.lines ≠ k.val → s.mod.power.booted = false → completes (.lodestoneQualified k) s (readsOnly s k)) ∧
    (s.mod.red.lines ≠ k.val → s.mod.power.booted = true → s.mod.red.hold = true →
      (k = 1 → s.mod.odp.withheld = [] → completes (.lodestoneQualified k) s fun m =>
        m.stat Ent.redClaimConflicts = countedBy 1 Ent.redClaimConflicts s.mod ∧ m.pi = s.mod.pi ∧ m.funcs = s.mod.funcs ∧
        (∃ x e es, m = settle x ∧ x.agate.raised = s.mod.agate.raised ++ e :: es ∧ e.source = fnRed ∧ e.code = 0x0E07) ∧
        (memberA s.mod = true → m.red.hold = true ∧ m.red.st = s.mod.red.st ∧ m.red.computing = s.mod.red.computing) ∧
        (memberA s.mod = false → released s m)) ∧
      (k = 0 → s.mod.red.link = 2 → completes (.lodestoneQualified k) s (readsOnly s k)) ∧
      (k = 2 → s.mod.red.link ≠ 2 → s.mod.red.pwrOk = false → s.mod.odp.withheld = [] → (s.mod.red.st ≠ 2 ∨ s.mod.red.verifyFails < 2) → completes (.lodestoneQualified k) s fun m =>
        m.red.st = 0 ∧ m.red.reason = 2 ∧ m.red.partner = none ∧ m.red.hold = true ∧ m.red.computing = s.mod.red.computing ∧ m.pi = s.mod.pi ∧ m.funcs = s.mod.funcs)) ∧
    (s.mod.red.lines ≠ k.val → s.mod.power.booted = true → s.mod.red.hold = false → s.mod.odp.withheld = [] →
      (k = 1 → s.mod.red.link = 2 → completes (.lodestoneQualified k) s (readsOnly s k)) ∧
      (k = 2 → (s.mod.red.link = 2 ∨ s.mod.red.pwrOk = true) → completes (.lodestoneQualified k) s fun m =>
        m.red.hold = false ∧ m.red.wiring = true ∧ m.pi = s.mod.pi ∧ m.funcs = s.mod.funcs ∧ m.tick = s.mod.tick) ∧
      (k = 0 → s.mod.red.lines ≠ 1 → memberA s.mod = false → completes (.lodestoneQualified k) s (after [] { s.mod with
        red := { s.mod.red with lines := 0, fromHold := false, claimWait := true } })) ∧
      (k = 0 → (s.mod.red.lines = 1 ∨ memberA s.mod = true) →
        (s.mod.red.dogExpired = true → completes (.lodestoneQualified k) s (readsOnly s k)) ∧
        (coldHere s.mod → completes (.lodestoneQualified k) s (coldTaken s)) ∧
        (∀ e, hotHere s.mod e → completes (.lodestoneQualified k) s (hotTaken s e))))) ∧
  (∀ (s : State) (b : Bool),
    (s.mod.red.pwrOk = b → completes (.partnerPwrOkChange b) s (after [] s.mod)) ∧
    (s.mod.red.pwrOk ≠ b → s.mod.power.booted = false ∨ (s.mod.red.hold = true ∧ s.mod.red.lines = 0 ∧ s.mod.red.link = 2) ∨ (s.mod.red.hold = false ∧ s.mod.red.lines = 1 ∧ s.mod.red.link = 2) →
      completes (.partnerPwrOkChange b) s (after [] { s.mod with red := { s.mod.red with pwrOk := b } })) ∧
    (s.mod.red.pwrOk = true → b = false → s.mod.red.hold = false → s.mod.red.lines = 2 → s.mod.red.link ≠ 2 → (s.mod.red.fromHold = true ∨ memberA s.mod = true) → coldHere s.mod →
      completes (.partnerPwrOkChange b) s (coldTaken s))) ∧
  (∀ s : State,
    (s.mod.red.claimWait = false ∨ s.mod.red.hold = true ∨ s.mod.red.lines = 1 → completes .tokenClaim s (after [] s.mod)) ∧
    (s.mod.red.claimWait = true → s.mod.red.hold = false → s.mod.red.lines ≠ 1 →
      (s.mod.red.dogExpired = true → completes .tokenClaim s (after [] { s.mod with red := { s.mod.red with claimWait := false } })) ∧
      (coldHere s.mod → completes .tokenClaim s (coldTaken s)) ∧ (∀ e, hotHere s.mod e → completes .tokenClaim s (hotTaken s e)))) ∧
  (∀ s : State,
    (s.mod.red.hold = false ∨ s.mod.stopped fnEngine = true → completes .lodestoneWatchdog s (after [] s.mod)) ∧
    (s.mod.red.hold = true → s.mod.stopped fnEngine = false → s.mod.odp.withheld = [] → completes .lodestoneWatchdog s fun m =>
      released s m ∧ m.red.dogExpired = true ∧ m.red.st = (if s.mod.red.partner.isSome then 5 else s.mod.red.st) ∧ raisedIn s.mod [] m)) ∧
  (∀ s : State,
    (s.mod.red.releaseDue = none ∨ s.mod.red.hold = false ∨ (s.mod.tick.epoch ≠ none ∧ 1 < s.mod.tick.cycle) ∨ (s.mod.red.releaseDue = some 1 ∧ strobesDone s.mod = false) →
      completes .tokenRelease s (after [] s.mod)) ∧
    ∀ c, s.mod.red.releaseDue = some c → s.mod.red.hold = true → (s.mod.tick.epoch = none ∨ s.mod.tick.cycle ≤ 1) → (c = 1 → strobesDone s.mod = true) → s.mod.odp.withheld = [] →
      completes .tokenRelease s fun m => released s m ∧ (s.mod.red.partner.isSome = true → m.red.st = 5 ∧ m.red.reason = 11) ∧
        ∃ x es e, m = settle x ∧ x.agate.raised = s.mod.agate.raised ++ (es ++ [e]) ∧ e.source = fnRed ∧ e.code = 0x0E03) ∧
  ∀ s : State,
    (s.mod.red.wiring = false ∨ s.mod.red.lines = 2 → completes .tokenWiringClear s (after [] s.mod)) ∧
    (s.mod.red.wiring = true → s.mod.red.lines ≠ 2 → s.mod.lockstep = false → s.mod.cfgOn Ent.redEnable = false → completes .tokenWiringClear s fun m =>
      m.red = { s.mod.red with wiring := false, txSeq := m.red.txSeq, replay := m.red.replay, recBytes := m.red.recBytes } ∧ redRaised s.mod [0x0E06] m ∧ m.pi = s.mod.pi ∧ m.funcs = s.mod.funcs)
end

