-- ==== Sys2Proof/Laws/Sparse.lean ====
section
/-! SUPPORT. Laws of the sparse maps: what a read gives after a write, and that every operation keeps the canonical form. -/

namespace Sys2Proof.Machine

variable {α : Type}

/-- A lower bound may be lowered, or dropped. -/
theorem Sparse.risesFrom_weaken {lo hi : Option Nat} {m : Sparse α} (h : Sparse.risesFrom hi m = true)
    (w : ∀ a, lo = some a → ∃ b, hi = some b ∧ a ≤ b) : Sparse.risesFrom lo m = true := by
  cases m with
  | nil => rfl
  | cons e l =>
    simp only [Sparse.risesFrom, Bool.and_eq_true] at h ⊢
    refine ⟨?_, h.2⟩
    cases lo with
    | none => rfl
    | some a =>
      obtain ⟨b, rfl, hab⟩ := w a rfl
      have := h.1
      simp only [decide_eq_true_eq] at this ⊢
      omega

/-- Every key of a map that rises from `n` lies above `n`. -/
theorem Sparse.risesFrom_lt {n : Nat} {m : Sparse α} (h : Sparse.risesFrom (some n) m = true) :
    ∀ e ∈ m, n < e.1 := by
  induction m generalizing n with
  | nil => simp
  | cons e l ih =>
    simp only [Sparse.risesFrom, Bool.and_eq_true, decide_eq_true_eq] at h
    intro x hx
    rcases List.mem_cons.mp hx with rfl | hx
    · exact h.1
    · exact Nat.lt_trans h.1 (ih h.2 x hx)

/-- A key that no entry has reads as its default. -/
theorem Sparse.get_absent {d : Nat → α} {m : Sparse α} {k : Nat} (h : ∀ e ∈ m, e.1 ≠ k) : Sparse.get d m k = d k := by
  induction m with
  | nil => rfl
  | cons e l ih =>
    simp only [Sparse.get]
    rw [if_neg (h e (by simp))]
    exact ih fun x hx => h x (by simp [hx])

/-- An erased key has no entry. -/
theorem Sparse.erase_absent (m : Sparse α) (k : Nat) : ∀ e ∈ Sparse.erase m k, e.1 ≠ k := by
  induction m with
  | nil => simp [Sparse.erase]
  | cons e l ih =>
    simp only [Sparse.erase]
    split
    · exact ih
    · intro x hx
      rcases List.mem_cons.mp hx with rfl | hx
      · assumption
      · exact ih x hx

/-- Erasing a key leaves every other key as it was. -/
theorem Sparse.get_erase_ne {d : Nat → α} (m : Sparse α) {k j : Nat} (h : j ≠ k) :
    Sparse.get d (Sparse.erase m k) j = Sparse.get d m j := by
  induction m with
  | nil => rfl
  | cons e l ih =>
    simp only [Sparse.erase]
    split
    · next hk => rw [ih]; simp only [Sparse.get]; rw [if_neg (by omega)]
    · simp only [Sparse.get]
      split
      · rfl
      · exact ih

/-- A key just inserted reads as the value inserted, where no entry had it. -/
theorem Sparse.get_insert_same {d : Nat → α} (m : Sparse α) (k : Nat) (v : α) (h : ∀ e ∈ m, e.1 ≠ k) :
    Sparse.get d (Sparse.insert k v m) k = v := by
  induction m with
  | nil => simp [Sparse.insert, Sparse.get]
  | cons e l ih =>
    simp only [Sparse.insert]
    split
    · simp [Sparse.get]
    · simp only [Sparse.get]
      rw [if_neg (h e (by simp))]
      exact ih fun x hx => h x (by simp [hx])

/-- Inserting a key leaves every other key as it was. -/
theorem Sparse.get_insert_ne {d : Nat → α} (m : Sparse α) {k j : Nat} (v : α) (h : j ≠ k) :
    Sparse.get d (Sparse.insert k v m) j = Sparse.get d m j := by
  induction m with
  | nil => simp [Sparse.insert, Sparse.get, Ne.symm h]
  | cons e l ih =>
    simp only [Sparse.insert]
    split
    · simp only [Sparse.get]; rw [if_neg (by omega)]
    · simp only [Sparse.get]
      split
      · rfl
      · exact ih

variable [DecidableEq α]

/-- A read after a write to the same key gives the value written. -/
@[simp] theorem Sparse.get_set_same (d : Nat → α) (m : Sparse α) (k : Nat) (v : α) :
    Sparse.get d (Sparse.set d m k v) k = v := by
  unfold Sparse.set
  split
  · next h => rw [Sparse.get_absent (Sparse.erase_absent m k), h]
  · exact Sparse.get_insert_same _ k v (Sparse.erase_absent m k)

/-- A write leaves every other key as it was. -/
theorem Sparse.get_set_ne (d : Nat → α) (m : Sparse α) {k j : Nat} (v : α) (h : j ≠ k) :
    Sparse.get d (Sparse.set d m k v) j = Sparse.get d m j := by
  unfold Sparse.set
  split
  · exact Sparse.get_erase_ne m h
  · rw [Sparse.get_insert_ne _ v h, Sparse.get_erase_ne m h]

/-- A read after a write. -/
theorem Sparse.get_set (d : Nat → α) (m : Sparse α) (k j : Nat) (v : α) :
    Sparse.get d (Sparse.set d m k v) j = if j = k then v else Sparse.get d m j := by
  split
  · next h => subst h; exact Sparse.get_set_same d m j v
  · next h => exact Sparse.get_set_ne d m v h

@[simp] theorem Sparse.get_mod_same (d : Nat → α) (m : Sparse α) (k : Nat) (f : α → α) :
    Sparse.get d (Sparse.mod d m k f) k = f (Sparse.get d m k) := Sparse.get_set_same d m k _

theorem Sparse.get_mod_ne (d : Nat → α) (m : Sparse α) {k j : Nat} (f : α → α) (h : j ≠ k) :
    Sparse.get d (Sparse.mod d m k f) j = Sparse.get d m j := Sparse.get_set_ne d m _ h

/-! ### The canonical form -/

omit [DecidableEq α] in
theorem Sparse.rises_erase (lo : Option Nat) (m : Sparse α) (k : Nat) (h : Sparse.risesFrom lo m = true) :
    Sparse.risesFrom lo (Sparse.erase m k) = true := by
  induction m generalizing lo with
  | nil => rfl
  | cons e l ih =>
    simp only [Sparse.risesFrom, Bool.and_eq_true] at h
    simp only [Sparse.erase]
    split
    · refine ih lo (Sparse.risesFrom_weaken h.2 ?_)
      intro a ha
      subst ha
      exact ⟨e.1, rfl, Nat.le_of_lt (of_decide_eq_true h.1)⟩
    · simp only [Sparse.risesFrom, Bool.and_eq_true]
      exact ⟨h.1, ih (some e.1) h.2⟩

omit [DecidableEq α] in
theorem Sparse.rises_insert (lo : Option Nat) (m : Sparse α) (k : Nat) (v : α) (h : Sparse.risesFrom lo m = true)
    (hlo : ∀ a, lo = some a → a < k) (hk : ∀ e ∈ m, e.1 ≠ k) : Sparse.risesFrom lo (Sparse.insert k v m) = true := by
  have low : ∀ (lo : Option Nat), (∀ a, lo = some a → a < k) → (match lo with | none => true | some l => decide (l < k)) = true := by
    intro lo h
    cases lo with
    | none => rfl
    | some a => simpa using h a rfl
  induction m generalizing lo with
  | nil => simp only [Sparse.insert, Sparse.risesFrom, Bool.and_true]; exact low lo hlo
  | cons e l ih =>
    simp only [Sparse.risesFrom, Bool.and_eq_true] at h
    simp only [Sparse.insert]
    split
    · next hlt =>
      simp only [Sparse.risesFrom, Bool.and_eq_true, decide_eq_true_eq]
      exact ⟨low lo hlo, hlt, h.2⟩
    · next hge =>
      simp only [Sparse.risesFrom, Bool.and_eq_true]
      refine ⟨h.1, ih (some e.1) h.2 ?_ fun x hx => hk x (by simp [hx])⟩
      intro a ha
      cases ha
      have := hk e (by simp)
      omega

omit [DecidableEq α] in
theorem Sparse.mem_erase {m : Sparse α} {k : Nat} {e : Nat × α} (h : e ∈ Sparse.erase m k) : e ∈ m := by
  induction m with
  | nil => simp [Sparse.erase] at h
  | cons x l ih =>
    simp only [Sparse.erase] at h
    split at h
    · exact List.mem_cons_of_mem _ (ih h)
    · rcases List.mem_cons.mp h with rfl | h
      · simp
      · exact List.mem_cons_of_mem _ (ih h)

omit [DecidableEq α] in
theorem Sparse.mem_insert {m : Sparse α} {k : Nat} {v : α} {e : Nat × α} (h : e ∈ Sparse.insert k v m) : e = (k, v) ∨ e ∈ m := by
  induction m with
  | nil => simpa [Sparse.insert] using h
  | cons x l ih =>
    simp only [Sparse.insert] at h
    split at h
    · simpa using h
    · rcases List.mem_cons.mp h with rfl | h
      · simp
      · rcases ih h with h | h <;> simp [h]

/-- A write keeps the canonical form. -/
theorem Sparse.wf_set (d : Nat → α) (m : Sparse α) (k : Nat) (v : α) (h : Sparse.wf d m = true) :
    Sparse.wf d (Sparse.set d m k v) = true := by
  simp only [Sparse.wf, Bool.and_eq_true, List.all_eq_true, decide_eq_true_eq] at h ⊢
  unfold Sparse.set
  split
  · exact ⟨Sparse.rises_erase none m k h.1, fun e he => h.2 e (Sparse.mem_erase he)⟩
  · next hv =>
    refine ⟨Sparse.rises_insert none _ k v (Sparse.rises_erase none m k h.1) (by simp) (Sparse.erase_absent m k), ?_⟩
    intro e he
    rcases Sparse.mem_insert he with rfl | he
    · exact hv
    · exact h.2 e (Sparse.mem_erase he)

/-- Changing one value keeps the canonical form. -/
theorem Sparse.wf_mod (d : Nat → α) (m : Sparse α) (k : Nat) (f : α → α) (h : Sparse.wf d m = true) :
    Sparse.wf d (Sparse.mod d m k f) = true := Sparse.wf_set d m k _ h

/-- Dropping a key keeps the canonical form. -/
theorem Sparse.wf_erase (d : Nat → α) (m : Sparse α) (k : Nat) (h : Sparse.wf d m = true) :
    Sparse.wf d (Sparse.erase m k) = true := by
  simp only [Sparse.wf, Bool.and_eq_true, List.all_eq_true] at h ⊢
  exact ⟨Sparse.rises_erase none m k h.1, fun e he => h.2 e (Sparse.mem_erase he)⟩

/-- The empty map is in canonical form. -/
theorem Sparse.wf_nil (d : Nat → α) : Sparse.wf d ([] : Sparse α) = true := rfl

end Sys2Proof.Machine
end

