-- ==== Sys2Proof/Laws/State.lean ====
section
/-! SUPPORT. One lemma per field per named update: what the update leaves alone. -/

namespace Sys2Proof.Machine

@[simp] theorem Module.setCfg_funcs (k v : Nat) (m : Module) : (Module.setCfg k v m).funcs = m.funcs := rfl
@[simp] theorem Module.setCfg_bootRunning (k v : Nat) (m : Module) : (Module.setCfg k v m).bootRunning = m.bootRunning := rfl
@[simp] theorem Module.setCfg_tick (k v : Nat) (m : Module) : (Module.setCfg k v m).tick = m.tick := rfl
@[simp] theorem Module.setCfg_pi (k v : Nat) (m : Module) : (Module.setCfg k v m).pi = m.pi := rfl
@[simp] theorem Module.setCfg_odp (k v : Nat) (m : Module) : (Module.setCfg k v m).odp = m.odp := rfl
@[simp] theorem Module.setCfg_agate (k v : Nat) (m : Module) : (Module.setCfg k v m).agate = m.agate := rfl
@[simp] theorem Module.setCfg_loop (k v : Nat) (m : Module) : (Module.setCfg k v m).loop = m.loop := rfl
@[simp] theorem Module.setCfg_lanes (k v : Nat) (m : Module) : (Module.setCfg k v m).lanes = m.lanes := rfl
@[simp] theorem Module.setCfg_disp (k v : Nat) (m : Module) : (Module.setCfg k v m).disp = m.disp := rfl
@[simp] theorem Module.setCfg_slate (k v : Nat) (m : Module) : (Module.setCfg k v m).slate = m.slate := rfl
@[simp] theorem Module.setCfg_flint (k v : Nat) (m : Module) : (Module.setCfg k v m).flint = m.flint := rfl
@[simp] theorem Module.setCfg_motion (k v : Nat) (m : Module) : (Module.setCfg k v m).motion = m.motion := rfl
@[simp] theorem Module.setCfg_io (k v : Nat) (m : Module) : (Module.setCfg k v m).io = m.io := rfl
@[simp] theorem Module.setCfg_ports (k v : Nat) (m : Module) : (Module.setCfg k v m).ports = m.ports := rfl
@[simp] theorem Module.setCfg_acq (k v : Nat) (m : Module) : (Module.setCfg k v m).acq = m.acq := rfl
@[simp] theorem Module.setCfg_time (k v : Nat) (m : Module) : (Module.setCfg k v m).time = m.time := rfl
@[simp] theorem Module.setCfg_cal (k v : Nat) (m : Module) : (Module.setCfg k v m).cal = m.cal := rfl
@[simp] theorem Module.setCfg_power (k v : Nat) (m : Module) : (Module.setCfg k v m).power = m.power := rfl
@[simp] theorem Module.setCfg_red (k v : Nat) (m : Module) : (Module.setCfg k v m).red = m.red := rfl
@[simp] theorem Module.setCfg_sec (k v : Nat) (m : Module) : (Module.setCfg k v m).sec = m.sec := rfl
@[simp] theorem Module.setCfg_nv (k v : Nat) (m : Module) : (Module.setCfg k v m).nv = m.nv := rfl
@[simp] theorem Module.setCfg_out (k v : Nat) (m : Module) : (Module.setCfg k v m).out = m.out := rfl
@[simp] theorem Module.setCfg_free (k v : Nat) (m : Module) : (Module.setCfg k v m).free = m.free := rfl
@[simp] theorem Module.setCfg_shadow (k v : Nat) (m : Module) : (Module.setCfg k v m).dict.shadow = m.dict.shadow := rfl
@[simp] theorem Module.setCfg_stat (k v : Nat) (m : Module) : (Module.setCfg k v m).dict.stat = m.dict.stat := rfl
@[simp] theorem Module.setCfg_liveB (k v : Nat) (m : Module) : (Module.setCfg k v m).dict.liveB = m.dict.liveB := rfl
@[simp] theorem Module.setCfg_shadowB (k v : Nat) (m : Module) : (Module.setCfg k v m).dict.shadowB = m.dict.shadowB := rfl
@[simp] theorem Module.setCfg_statB (k v : Nat) (m : Module) : (Module.setCfg k v m).dict.statB = m.dict.statB := rfl
@[simp] theorem Module.setShad_funcs (k v : Nat) (m : Module) : (Module.setShad k v m).funcs = m.funcs := rfl
@[simp] theorem Module.setShad_bootRunning (k v : Nat) (m : Module) : (Module.setShad k v m).bootRunning = m.bootRunning := rfl
@[simp] theorem Module.setShad_tick (k v : Nat) (m : Module) : (Module.setShad k v m).tick = m.tick := rfl
@[simp] theorem Module.setShad_pi (k v : Nat) (m : Module) : (Module.setShad k v m).pi = m.pi := rfl
@[simp] theorem Module.setShad_odp (k v : Nat) (m : Module) : (Module.setShad k v m).odp = m.odp := rfl
@[simp] theorem Module.setShad_agate (k v : Nat) (m : Module) : (Module.setShad k v m).agate = m.agate := rfl
@[simp] theorem Module.setShad_loop (k v : Nat) (m : Module) : (Module.setShad k v m).loop = m.loop := rfl
@[simp] theorem Module.setShad_lanes (k v : Nat) (m : Module) : (Module.setShad k v m).lanes = m.lanes := rfl
@[simp] theorem Module.setShad_disp (k v : Nat) (m : Module) : (Module.setShad k v m).disp = m.disp := rfl
@[simp] theorem Module.setShad_slate (k v : Nat) (m : Module) : (Module.setShad k v m).slate = m.slate := rfl
@[simp] theorem Module.setShad_flint (k v : Nat) (m : Module) : (Module.setShad k v m).flint = m.flint := rfl
@[simp] theorem Module.setShad_motion (k v : Nat) (m : Module) : (Module.setShad k v m).motion = m.motion := rfl
@[simp] theorem Module.setShad_io (k v : Nat) (m : Module) : (Module.setShad k v m).io = m.io := rfl
@[simp] theorem Module.setShad_ports (k v : Nat) (m : Module) : (Module.setShad k v m).ports = m.ports := rfl
@[simp] theorem Module.setShad_acq (k v : Nat) (m : Module) : (Module.setShad k v m).acq = m.acq := rfl
@[simp] theorem Module.setShad_time (k v : Nat) (m : Module) : (Module.setShad k v m).time = m.time := rfl
@[simp] theorem Module.setShad_cal (k v : Nat) (m : Module) : (Module.setShad k v m).cal = m.cal := rfl
@[simp] theorem Module.setShad_power (k v : Nat) (m : Module) : (Module.setShad k v m).power = m.power := rfl
@[simp] theorem Module.setShad_red (k v : Nat) (m : Module) : (Module.setShad k v m).red = m.red := rfl
@[simp] theorem Module.setShad_sec (k v : Nat) (m : Module) : (Module.setShad k v m).sec = m.sec := rfl
@[simp] theorem Module.setShad_nv (k v : Nat) (m : Module) : (Module.setShad k v m).nv = m.nv := rfl
@[simp] theorem Module.setShad_out (k v : Nat) (m : Module) : (Module.setShad k v m).out = m.out := rfl
@[simp] theorem Module.setShad_free (k v : Nat) (m : Module) : (Module.setShad k v m).free = m.free := rfl
@[simp] theorem Module.setShad_live (k v : Nat) (m : Module) : (Module.setShad k v m).dict.live = m.dict.live := rfl
@[simp] theorem Module.setShad_stat (k v : Nat) (m : Module) : (Module.setShad k v m).dict.stat = m.dict.stat := rfl
@[simp] theorem Module.setShad_liveB (k v : Nat) (m : Module) : (Module.setShad k v m).dict.liveB = m.dict.liveB := rfl
@[simp] theorem Module.setShad_shadowB (k v : Nat) (m : Module) : (Module.setShad k v m).dict.shadowB = m.dict.shadowB := rfl
@[simp] theorem Module.setShad_statB (k v : Nat) (m : Module) : (Module.setShad k v m).dict.statB = m.dict.statB := rfl
@[simp] theorem Module.setStat_funcs (k v : Nat) (m : Module) : (Module.setStat k v m).funcs = m.funcs := rfl
@[simp] theorem Module.setStat_bootRunning (k v : Nat) (m : Module) : (Module.setStat k v m).bootRunning = m.bootRunning := rfl
@[simp] theorem Module.setStat_tick (k v : Nat) (m : Module) : (Module.setStat k v m).tick = m.tick := rfl
@[simp] theorem Module.setStat_pi (k v : Nat) (m : Module) : (Module.setStat k v m).pi = m.pi := rfl
@[simp] theorem Module.setStat_odp (k v : Nat) (m : Module) : (Module.setStat k v m).odp = m.odp := rfl
@[simp] theorem Module.setStat_agate (k v : Nat) (m : Module) : (Module.setStat k v m).agate = m.agate := rfl
@[simp] theorem Module.setStat_loop (k v : Nat) (m : Module) : (Module.setStat k v m).loop = m.loop := rfl
@[simp] theorem Module.setStat_lanes (k v : Nat) (m : Module) : (Module.setStat k v m).lanes = m.lanes := rfl
@[simp] theorem Module.setStat_disp (k v : Nat) (m : Module) : (Module.setStat k v m).disp = m.disp := rfl
@[simp] theorem Module.setStat_slate (k v : Nat) (m : Module) : (Module.setStat k v m).slate = m.slate := rfl
@[simp] theorem Module.setStat_flint (k v : Nat) (m : Module) : (Module.setStat k v m).flint = m.flint := rfl
@[simp] theorem Module.setStat_motion (k v : Nat) (m : Module) : (Module.setStat k v m).motion = m.motion := rfl
@[simp] theorem Module.setStat_io (k v : Nat) (m : Module) : (Module.setStat k v m).io = m.io := rfl
@[simp] theorem Module.setStat_ports (k v : Nat) (m : Module) : (Module.setStat k v m).ports = m.ports := rfl
@[simp] theorem Module.setStat_acq (k v : Nat) (m : Module) : (Module.setStat k v m).acq = m.acq := rfl
@[simp] theorem Module.setStat_time (k v : Nat) (m : Module) : (Module.setStat k v m).time = m.time := rfl
@[simp] theorem Module.setStat_cal (k v : Nat) (m : Module) : (Module.setStat k v m).cal = m.cal := rfl
@[simp] theorem Module.setStat_power (k v : Nat) (m : Module) : (Module.setStat k v m).power = m.power := rfl
@[simp] theorem Module.setStat_red (k v : Nat) (m : Module) : (Module.setStat k v m).red = m.red := rfl
@[simp] theorem Module.setStat_sec (k v : Nat) (m : Module) : (Module.setStat k v m).sec = m.sec := rfl
@[simp] theorem Module.setStat_nv (k v : Nat) (m : Module) : (Module.setStat k v m).nv = m.nv := rfl
@[simp] theorem Module.setStat_out (k v : Nat) (m : Module) : (Module.setStat k v m).out = m.out := rfl
@[simp] theorem Module.setStat_free (k v : Nat) (m : Module) : (Module.setStat k v m).free = m.free := rfl
@[simp] theorem Module.setStat_live (k v : Nat) (m : Module) : (Module.setStat k v m).dict.live = m.dict.live := rfl
@[simp] theorem Module.setStat_shadow (k v : Nat) (m : Module) : (Module.setStat k v m).dict.shadow = m.dict.shadow := rfl
@[simp] theorem Module.setStat_liveB (k v : Nat) (m : Module) : (Module.setStat k v m).dict.liveB = m.dict.liveB := rfl
@[simp] theorem Module.setStat_shadowB (k v : Nat) (m : Module) : (Module.setStat k v m).dict.shadowB = m.dict.shadowB := rfl
@[simp] theorem Module.setStat_statB (k v : Nat) (m : Module) : (Module.setStat k v m).dict.statB = m.dict.statB := rfl
@[simp] theorem Module.setCfgB_funcs (k : Nat) (v : List Byte) (m : Module) : (Module.setCfgB k v m).funcs = m.funcs := rfl
@[simp] theorem Module.setCfgB_bootRunning (k : Nat) (v : List Byte) (m : Module) : (Module.setCfgB k v m).bootRunning = m.bootRunning := rfl
@[simp] theorem Module.setCfgB_tick (k : Nat) (v : List Byte) (m : Module) : (Module.setCfgB k v m).tick = m.tick := rfl
@[simp] theorem Module.setCfgB_pi (k : Nat) (v : List Byte) (m : Module) : (Module.setCfgB k v m).pi = m.pi := rfl
@[simp] theorem Module.setCfgB_odp (k : Nat) (v : List Byte) (m : Module) : (Module.setCfgB k v m).odp = m.odp := rfl
@[simp] theorem Module.setCfgB_agate (k : Nat) (v : List Byte) (m : Module) : (Module.setCfgB k v m).agate = m.agate := rfl
@[simp] theorem Module.setCfgB_loop (k : Nat) (v : List Byte) (m : Module) : (Module.setCfgB k v m).loop = m.loop := rfl
@[simp] theorem Module.setCfgB_lanes (k : Nat) (v : List Byte) (m : Module) : (Module.setCfgB k v m).lanes = m.lanes := rfl
@[simp] theorem Module.setCfgB_disp (k : Nat) (v : List Byte) (m : Module) : (Module.setCfgB k v m).disp = m.disp := rfl
@[simp] theorem Module.setCfgB_slate (k : Nat) (v : List Byte) (m : Module) : (Module.setCfgB k v m).slate = m.slate := rfl
@[simp] theorem Module.setCfgB_flint (k : Nat) (v : List Byte) (m : Module) : (Module.setCfgB k v m).flint = m.flint := rfl
@[simp] theorem Module.setCfgB_motion (k : Nat) (v : List Byte) (m : Module) : (Module.setCfgB k v m).motion = m.motion := rfl
@[simp] theorem Module.setCfgB_io (k : Nat) (v : List Byte) (m : Module) : (Module.setCfgB k v m).io = m.io := rfl
@[simp] theorem Module.setCfgB_ports (k : Nat) (v : List Byte) (m : Module) : (Module.setCfgB k v m).ports = m.ports := rfl
@[simp] theorem Module.setCfgB_acq (k : Nat) (v : List Byte) (m : Module) : (Module.setCfgB k v m).acq = m.acq := rfl
@[simp] theorem Module.setCfgB_time (k : Nat) (v : List Byte) (m : Module) : (Module.setCfgB k v m).time = m.time := rfl
@[simp] theorem Module.setCfgB_cal (k : Nat) (v : List Byte) (m : Module) : (Module.setCfgB k v m).cal = m.cal := rfl
@[simp] theorem Module.setCfgB_power (k : Nat) (v : List Byte) (m : Module) : (Module.setCfgB k v m).power = m.power := rfl
@[simp] theorem Module.setCfgB_red (k : Nat) (v : List Byte) (m : Module) : (Module.setCfgB k v m).red = m.red := rfl
@[simp] theorem Module.setCfgB_sec (k : Nat) (v : List Byte) (m : Module) : (Module.setCfgB k v m).sec = m.sec := rfl
@[simp] theorem Module.setCfgB_nv (k : Nat) (v : List Byte) (m : Module) : (Module.setCfgB k v m).nv = m.nv := rfl
@[simp] theorem Module.setCfgB_out (k : Nat) (v : List Byte) (m : Module) : (Module.setCfgB k v m).out = m.out := rfl
@[simp] theorem Module.setCfgB_free (k : Nat) (v : List Byte) (m : Module) : (Module.setCfgB k v m).free = m.free := rfl
@[simp] theorem Module.setCfgB_live (k : Nat) (v : List Byte) (m : Module) : (Module.setCfgB k v m).dict.live = m.dict.live := rfl
@[simp] theorem Module.setCfgB_shadow (k : Nat) (v : List Byte) (m : Module) : (Module.setCfgB k v m).dict.shadow = m.dict.shadow := rfl
@[simp] theorem Module.setCfgB_stat (k : Nat) (v : List Byte) (m : Module) : (Module.setCfgB k v m).dict.stat = m.dict.stat := rfl
@[simp] theorem Module.setCfgB_shadowB (k : Nat) (v : List Byte) (m : Module) : (Module.setCfgB k v m).dict.shadowB = m.dict.shadowB := rfl
@[simp] theorem Module.setCfgB_statB (k : Nat) (v : List Byte) (m : Module) : (Module.setCfgB k v m).dict.statB = m.dict.statB := rfl
@[simp] theorem Module.setShadB_funcs (k : Nat) (v : List Byte) (m : Module) : (Module.setShadB k v m).funcs = m.funcs := rfl
@[simp] theorem Module.setShadB_bootRunning (k : Nat) (v : List Byte) (m : Module) : (Module.setShadB k v m).bootRunning = m.bootRunning := rfl
@[simp] theorem Module.setShadB_tick (k : Nat) (v : List Byte) (m : Module) : (Module.setShadB k v m).tick = m.tick := rfl
@[simp] theorem Module.setShadB_pi (k : Nat) (v : List Byte) (m : Module) : (Module.setShadB k v m).pi = m.pi := rfl
@[simp] theorem Module.setShadB_odp (k : Nat) (v : List Byte) (m : Module) : (Module.setShadB k v m).odp = m.odp := rfl
@[simp] theorem Module.setShadB_agate (k : Nat) (v : List Byte) (m : Module) : (Module.setShadB k v m).agate = m.agate := rfl
@[simp] theorem Module.setShadB_loop (k : Nat) (v : List Byte) (m : Module) : (Module.setShadB k v m).loop = m.loop := rfl
@[simp] theorem Module.setShadB_lanes (k : Nat) (v : List Byte) (m : Module) : (Module.setShadB k v m).lanes = m.lanes := rfl
@[simp] theorem Module.setShadB_disp (k : Nat) (v : List Byte) (m : Module) : (Module.setShadB k v m).disp = m.disp := rfl
@[simp] theorem Module.setShadB_slate (k : Nat) (v : List Byte) (m : Module) : (Module.setShadB k v m).slate = m.slate := rfl
@[simp] theorem Module.setShadB_flint (k : Nat) (v : List Byte) (m : Module) : (Module.setShadB k v m).flint = m.flint := rfl
@[simp] theorem Module.setShadB_motion (k : Nat) (v : List Byte) (m : Module) : (Module.setShadB k v m).motion = m.motion := rfl
@[simp] theorem Module.setShadB_io (k : Nat) (v : List Byte) (m : Module) : (Module.setShadB k v m).io = m.io := rfl
@[simp] theorem Module.setShadB_ports (k : Nat) (v : List Byte) (m : Module) : (Module.setShadB k v m).ports = m.ports := rfl
@[simp] theorem Module.setShadB_acq (k : Nat) (v : List Byte) (m : Module) : (Module.setShadB k v m).acq = m.acq := rfl
@[simp] theorem Module.setShadB_time (k : Nat) (v : List Byte) (m : Module) : (Module.setShadB k v m).time = m.time := rfl
@[simp] theorem Module.setShadB_cal (k : Nat) (v : List Byte) (m : Module) : (Module.setShadB k v m).cal = m.cal := rfl
@[simp] theorem Module.setShadB_power (k : Nat) (v : List Byte) (m : Module) : (Module.setShadB k v m).power = m.power := rfl
@[simp] theorem Module.setShadB_red (k : Nat) (v : List Byte) (m : Module) : (Module.setShadB k v m).red = m.red := rfl
@[simp] theorem Module.setShadB_sec (k : Nat) (v : List Byte) (m : Module) : (Module.setShadB k v m).sec = m.sec := rfl
@[simp] theorem Module.setShadB_nv (k : Nat) (v : List Byte) (m : Module) : (Module.setShadB k v m).nv = m.nv := rfl
@[simp] theorem Module.setShadB_out (k : Nat) (v : List Byte) (m : Module) : (Module.setShadB k v m).out = m.out := rfl
@[simp] theorem Module.setShadB_free (k : Nat) (v : List Byte) (m : Module) : (Module.setShadB k v m).free = m.free := rfl
@[simp] theorem Module.setShadB_live (k : Nat) (v : List Byte) (m : Module) : (Module.setShadB k v m).dict.live = m.dict.live := rfl
@[simp] theorem Module.setShadB_shadow (k : Nat) (v : List Byte) (m : Module) : (Module.setShadB k v m).dict.shadow = m.dict.shadow := rfl
@[simp] theorem Module.setShadB_stat (k : Nat) (v : List Byte) (m : Module) : (Module.setShadB k v m).dict.stat = m.dict.stat := rfl
@[simp] theorem Module.setShadB_liveB (k : Nat) (v : List Byte) (m : Module) : (Module.setShadB k v m).dict.liveB = m.dict.liveB := rfl
@[simp] theorem Module.setShadB_statB (k : Nat) (v : List Byte) (m : Module) : (Module.setShadB k v m).dict.statB = m.dict.statB := rfl
@[simp] theorem Module.setStatB_funcs (k : Nat) (v : List Byte) (m : Module) : (Module.setStatB k v m).funcs = m.funcs := rfl
@[simp] theorem Module.setStatB_bootRunning (k : Nat) (v : List Byte) (m : Module) : (Module.setStatB k v m).bootRunning = m.bootRunning := rfl
@[simp] theorem Module.setStatB_tick (k : Nat) (v : List Byte) (m : Module) : (Module.setStatB k v m).tick = m.tick := rfl
@[simp] theorem Module.setStatB_pi (k : Nat) (v : List Byte) (m : Module) : (Module.setStatB k v m).pi = m.pi := rfl
@[simp] theorem Module.setStatB_odp (k : Nat) (v : List Byte) (m : Module) : (Module.setStatB k v m).odp = m.odp := rfl
@[simp] theorem Module.setStatB_agate (k : Nat) (v : List Byte) (m : Module) : (Module.setStatB k v m).agate = m.agate := rfl
@[simp] theorem Module.setStatB_loop (k : Nat) (v : List Byte) (m : Module) : (Module.setStatB k v m).loop = m.loop := rfl
@[simp] theorem Module.setStatB_lanes (k : Nat) (v : List Byte) (m : Module) : (Module.setStatB k v m).lanes = m.lanes := rfl
@[simp] theorem Module.setStatB_disp (k : Nat) (v : List Byte) (m : Module) : (Module.setStatB k v m).disp = m.disp := rfl
@[simp] theorem Module.setStatB_slate (k : Nat) (v : List Byte) (m : Module) : (Module.setStatB k v m).slate = m.slate := rfl
@[simp] theorem Module.setStatB_flint (k : Nat) (v : List Byte) (m : Module) : (Module.setStatB k v m).flint = m.flint := rfl
@[simp] theorem Module.setStatB_motion (k : Nat) (v : List Byte) (m : Module) : (Module.setStatB k v m).motion = m.motion := rfl
@[simp] theorem Module.setStatB_io (k : Nat) (v : List Byte) (m : Module) : (Module.setStatB k v m).io = m.io := rfl
@[simp] theorem Module.setStatB_ports (k : Nat) (v : List Byte) (m : Module) : (Module.setStatB k v m).ports = m.ports := rfl
@[simp] theorem Module.setStatB_acq (k : Nat) (v : List Byte) (m : Module) : (Module.setStatB k v m).acq = m.acq := rfl
@[simp] theorem Module.setStatB_time (k : Nat) (v : List Byte) (m : Module) : (Module.setStatB k v m).time = m.time := rfl
@[simp] theorem Module.setStatB_cal (k : Nat) (v : List Byte) (m : Module) : (Module.setStatB k v m).cal = m.cal := rfl
@[simp] theorem Module.setStatB_power (k : Nat) (v : List Byte) (m : Module) : (Module.setStatB k v m).power = m.power := rfl
@[simp] theorem Module.setStatB_red (k : Nat) (v : List Byte) (m : Module) : (Module.setStatB k v m).red = m.red := rfl
@[simp] theorem Module.setStatB_sec (k : Nat) (v : List Byte) (m : Module) : (Module.setStatB k v m).sec = m.sec := rfl
@[simp] theorem Module.setStatB_nv (k : Nat) (v : List Byte) (m : Module) : (Module.setStatB k v m).nv = m.nv := rfl
@[simp] theorem Module.setStatB_out (k : Nat) (v : List Byte) (m : Module) : (Module.setStatB k v m).out = m.out := rfl
@[simp] theorem Module.setStatB_free (k : Nat) (v : List Byte) (m : Module) : (Module.setStatB k v m).free = m.free := rfl
@[simp] theorem Module.setStatB_live (k : Nat) (v : List Byte) (m : Module) : (Module.setStatB k v m).dict.live = m.dict.live := rfl
@[simp] theorem Module.setStatB_shadow (k : Nat) (v : List Byte) (m : Module) : (Module.setStatB k v m).dict.shadow = m.dict.shadow := rfl
@[simp] theorem Module.setStatB_stat (k : Nat) (v : List Byte) (m : Module) : (Module.setStatB k v m).dict.stat = m.dict.stat := rfl
@[simp] theorem Module.setStatB_liveB (k : Nat) (v : List Byte) (m : Module) : (Module.setStatB k v m).dict.liveB = m.dict.liveB := rfl
@[simp] theorem Module.setStatB_shadowB (k : Nat) (v : List Byte) (m : Module) : (Module.setStatB k v m).dict.shadowB = m.dict.shadowB := rfl
@[simp] theorem Module.bumpBy_funcs (k n : Nat) (m : Module) : (Module.bumpBy k n m).funcs = m.funcs := rfl
@[simp] theorem Module.bumpBy_bootRunning (k n : Nat) (m : Module) : (Module.bumpBy k n m).bootRunning = m.bootRunning := rfl
@[simp] theorem Module.bumpBy_tick (k n : Nat) (m : Module) : (Module.bumpBy k n m).tick = m.tick := rfl
@[simp] theorem Module.bumpBy_pi (k n : Nat) (m : Module) : (Module.bumpBy k n m).pi = m.pi := rfl
@[simp] theorem Module.bumpBy_odp (k n : Nat) (m : Module) : (Module.bumpBy k n m).odp = m.odp := rfl
@[simp] theorem Module.bumpBy_agate (k n : Nat) (m : Module) : (Module.bumpBy k n m).agate = m.agate := rfl
@[simp] theorem Module.bumpBy_loop (k n : Nat) (m : Module) : (Module.bumpBy k n m).loop = m.loop := rfl
@[simp] theorem Module.bumpBy_lanes (k n : Nat) (m : Module) : (Module.bumpBy k n m).lanes = m.lanes := rfl
@[simp] theorem Module.bumpBy_disp (k n : Nat) (m : Module) : (Module.bumpBy k n m).disp = m.disp := rfl
@[simp] theorem Module.bumpBy_slate (k n : Nat) (m : Module) : (Module.bumpBy k n m).slate = m.slate := rfl
@[simp] theorem Module.bumpBy_flint (k n : Nat) (m : Module) : (Module.bumpBy k n m).flint = m.flint := rfl
@[simp] theorem Module.bumpBy_motion (k n : Nat) (m : Module) : (Module.bumpBy k n m).motion = m.motion := rfl
@[simp] theorem Module.bumpBy_io (k n : Nat) (m : Module) : (Module.bumpBy k n m).io = m.io := rfl
@[simp] theorem Module.bumpBy_ports (k n : Nat) (m : Module) : (Module.bumpBy k n m).ports = m.ports := rfl
@[simp] theorem Module.bumpBy_acq (k n : Nat) (m : Module) : (Module.bumpBy k n m).acq = m.acq := rfl
@[simp] theorem Module.bumpBy_time (k n : Nat) (m : Module) : (Module.bumpBy k n m).time = m.time := rfl
@[simp] theorem Module.bumpBy_cal (k n : Nat) (m : Module) : (Module.bumpBy k n m).cal = m.cal := rfl
@[simp] theorem Module.bumpBy_power (k n : Nat) (m : Module) : (Module.bumpBy k n m).power = m.power := rfl
@[simp] theorem Module.bumpBy_red (k n : Nat) (m : Module) : (Module.bumpBy k n m).red = m.red := rfl
@[simp] theorem Module.bumpBy_sec (k n : Nat) (m : Module) : (Module.bumpBy k n m).sec = m.sec := rfl
@[simp] theorem Module.bumpBy_nv (k n : Nat) (m : Module) : (Module.bumpBy k n m).nv = m.nv := rfl
@[simp] theorem Module.bumpBy_out (k n : Nat) (m : Module) : (Module.bumpBy k n m).out = m.out := rfl
@[simp] theorem Module.bumpBy_free (k n : Nat) (m : Module) : (Module.bumpBy k n m).free = m.free := rfl
@[simp] theorem Module.bumpBy_live (k n : Nat) (m : Module) : (Module.bumpBy k n m).dict.live = m.dict.live := rfl
@[simp] theorem Module.bumpBy_shadow (k n : Nat) (m : Module) : (Module.bumpBy k n m).dict.shadow = m.dict.shadow := rfl
@[simp] theorem Module.bumpBy_liveB (k n : Nat) (m : Module) : (Module.bumpBy k n m).dict.liveB = m.dict.liveB := rfl
@[simp] theorem Module.bumpBy_shadowB (k n : Nat) (m : Module) : (Module.bumpBy k n m).dict.shadowB = m.dict.shadowB := rfl
@[simp] theorem Module.bumpBy_statB (k n : Nat) (m : Module) : (Module.bumpBy k n m).dict.statB = m.dict.statB := rfl
@[simp] theorem Module.bump_funcs (k : Nat) (m : Module) : (Module.bump k m).funcs = m.funcs := rfl
@[simp] theorem Module.bump_bootRunning (k : Nat) (m : Module) : (Module.bump k m).bootRunning = m.bootRunning := rfl
@[simp] theorem Module.bump_tick (k : Nat) (m : Module) : (Module.bump k m).tick = m.tick := rfl
@[simp] theorem Module.bump_pi (k : Nat) (m : Module) : (Module.bump k m).pi = m.pi := rfl
@[simp] theorem Module.bump_odp (k : Nat) (m : Module) : (Module.bump k m).odp = m.odp := rfl
@[simp] theorem Module.bump_agate (k : Nat) (m : Module) : (Module.bump k m).agate = m.agate := rfl
@[simp] theorem Module.bump_loop (k : Nat) (m : Module) : (Module.bump k m).loop = m.loop := rfl
@[simp] theorem Module.bump_lanes (k : Nat) (m : Module) : (Module.bump k m).lanes = m.lanes := rfl
@[simp] theorem Module.bump_disp (k : Nat) (m : Module) : (Module.bump k m).disp = m.disp := rfl
@[simp] theorem Module.bump_slate (k : Nat) (m : Module) : (Module.bump k m).slate = m.slate := rfl
@[simp] theorem Module.bump_flint (k : Nat) (m : Module) : (Module.bump k m).flint = m.flint := rfl
@[simp] theorem Module.bump_motion (k : Nat) (m : Module) : (Module.bump k m).motion = m.motion := rfl
@[simp] theorem Module.bump_io (k : Nat) (m : Module) : (Module.bump k m).io = m.io := rfl
@[simp] theorem Module.bump_ports (k : Nat) (m : Module) : (Module.bump k m).ports = m.ports := rfl
@[simp] theorem Module.bump_acq (k : Nat) (m : Module) : (Module.bump k m).acq = m.acq := rfl
@[simp] theorem Module.bump_time (k : Nat) (m : Module) : (Module.bump k m).time = m.time := rfl
@[simp] theorem Module.bump_cal (k : Nat) (m : Module) : (Module.bump k m).cal = m.cal := rfl
@[simp] theorem Module.bump_power (k : Nat) (m : Module) : (Module.bump k m).power = m.power := rfl
@[simp] theorem Module.bump_red (k : Nat) (m : Module) : (Module.bump k m).red = m.red := rfl
@[simp] theorem Module.bump_sec (k : Nat) (m : Module) : (Module.bump k m).sec = m.sec := rfl
@[simp] theorem Module.bump_nv (k : Nat) (m : Module) : (Module.bump k m).nv = m.nv := rfl
@[simp] theorem Module.bump_out (k : Nat) (m : Module) : (Module.bump k m).out = m.out := rfl
@[simp] theorem Module.bump_free (k : Nat) (m : Module) : (Module.bump k m).free = m.free := rfl
@[simp] theorem Module.bump_live (k : Nat) (m : Module) : (Module.bump k m).dict.live = m.dict.live := rfl
@[simp] theorem Module.bump_shadow (k : Nat) (m : Module) : (Module.bump k m).dict.shadow = m.dict.shadow := rfl
@[simp] theorem Module.bump_liveB (k : Nat) (m : Module) : (Module.bump k m).dict.liveB = m.dict.liveB := rfl
@[simp] theorem Module.bump_shadowB (k : Nat) (m : Module) : (Module.bump k m).dict.shadowB = m.dict.shadowB := rfl
@[simp] theorem Module.bump_statB (k : Nat) (m : Module) : (Module.bump k m).dict.statB = m.dict.statB := rfl
@[simp] theorem Module.setStatI_funcs (k n : Nat) (i : Int) (m : Module) : (Module.setStatI k n i m).funcs = m.funcs := rfl
@[simp] theorem Module.setStatI_bootRunning (k n : Nat) (i : Int) (m : Module) : (Module.setStatI k n i m).bootRunning = m.bootRunning := rfl
@[simp] theorem Module.setStatI_tick (k n : Nat) (i : Int) (m : Module) : (Module.setStatI k n i m).tick = m.tick := rfl
@[simp] theorem Module.setStatI_pi (k n : Nat) (i : Int) (m : Module) : (Module.setStatI k n i m).pi = m.pi := rfl
@[simp] theorem Module.setStatI_odp (k n : Nat) (i : Int) (m : Module) : (Module.setStatI k n i m).odp = m.odp := rfl
@[simp] theorem Module.setStatI_agate (k n : Nat) (i : Int) (m : Module) : (Module.setStatI k n i m).agate = m.agate := rfl
@[simp] theorem Module.setStatI_loop (k n : Nat) (i : Int) (m : Module) : (Module.setStatI k n i m).loop = m.loop := rfl
@[simp] theorem Module.setStatI_lanes (k n : Nat) (i : Int) (m : Module) : (Module.setStatI k n i m).lanes = m.lanes := rfl
@[simp] theorem Module.setStatI_disp (k n : Nat) (i : Int) (m : Module) : (Module.setStatI k n i m).disp = m.disp := rfl
@[simp] theorem Module.setStatI_slate (k n : Nat) (i : Int) (m : Module) : (Module.setStatI k n i m).slate = m.slate := rfl
@[simp] theorem Module.setStatI_flint (k n : Nat) (i : Int) (m : Module) : (Module.setStatI k n i m).flint = m.flint := rfl
@[simp] theorem Module.setStatI_motion (k n : Nat) (i : Int) (m : Module) : (Module.setStatI k n i m).motion = m.motion := rfl
@[simp] theorem Module.setStatI_io (k n : Nat) (i : Int) (m : Module) : (Module.setStatI k n i m).io = m.io := rfl
@[simp] theorem Module.setStatI_ports (k n : Nat) (i : Int) (m : Module) : (Module.setStatI k n i m).ports = m.ports := rfl
@[simp] theorem Module.setStatI_acq (k n : Nat) (i : Int) (m : Module) : (Module.setStatI k n i m).acq = m.acq := rfl
@[simp] theorem Module.setStatI_time (k n : Nat) (i : Int) (m : Module) : (Module.setStatI k n i m).time = m.time := rfl
@[simp] theorem Module.setStatI_cal (k n : Nat) (i : Int) (m : Module) : (Module.setStatI k n i m).cal = m.cal := rfl
@[simp] theorem Module.setStatI_power (k n : Nat) (i : Int) (m : Module) : (Module.setStatI k n i m).power = m.power := rfl
@[simp] theorem Module.setStatI_red (k n : Nat) (i : Int) (m : Module) : (Module.setStatI k n i m).red = m.red := rfl
@[simp] theorem Module.setStatI_sec (k n : Nat) (i : Int) (m : Module) : (Module.setStatI k n i m).sec = m.sec := rfl
@[simp] theorem Module.setStatI_nv (k n : Nat) (i : Int) (m : Module) : (Module.setStatI k n i m).nv = m.nv := rfl
@[simp] theorem Module.setStatI_out (k n : Nat) (i : Int) (m : Module) : (Module.setStatI k n i m).out = m.out := rfl
@[simp] theorem Module.setStatI_free (k n : Nat) (i : Int) (m : Module) : (Module.setStatI k n i m).free = m.free := rfl
@[simp] theorem Module.setStatI_live (k n : Nat) (i : Int) (m : Module) : (Module.setStatI k n i m).dict.live = m.dict.live := rfl
@[simp] theorem Module.setStatI_shadow (k n : Nat) (i : Int) (m : Module) : (Module.setStatI k n i m).dict.shadow = m.dict.shadow := rfl
@[simp] theorem Module.setStatI_liveB (k n : Nat) (i : Int) (m : Module) : (Module.setStatI k n i m).dict.liveB = m.dict.liveB := rfl
@[simp] theorem Module.setStatI_shadowB (k n : Nat) (i : Int) (m : Module) : (Module.setStatI k n i m).dict.shadowB = m.dict.shadowB := rfl
@[simp] theorem Module.setStatI_statB (k n : Nat) (i : Int) (m : Module) : (Module.setStatI k n i m).dict.statB = m.dict.statB := rfl
@[simp] theorem Module.modFn_dict (f : Nat) (g : FuncRec → FuncRec) (m : Module) : (Module.modFn f g m).dict = m.dict := rfl
@[simp] theorem Module.modFn_bootRunning (f : Nat) (g : FuncRec → FuncRec) (m : Module) : (Module.modFn f g m).bootRunning = m.bootRunning := rfl
@[simp] theorem Module.modFn_tick (f : Nat) (g : FuncRec → FuncRec) (m : Module) : (Module.modFn f g m).tick = m.tick := rfl
@[simp] theorem Module.modFn_pi (f : Nat) (g : FuncRec → FuncRec) (m : Module) : (Module.modFn f g m).pi = m.pi := rfl
@[simp] theorem Module.modFn_odp (f : Nat) (g : FuncRec → FuncRec) (m : Module) : (Module.modFn f g m).odp = m.odp := rfl
@[simp] theorem Module.modFn_agate (f : Nat) (g : FuncRec → FuncRec) (m : Module) : (Module.modFn f g m).agate = m.agate := rfl
@[simp] theorem Module.modFn_loop (f : Nat) (g : FuncRec → FuncRec) (m : Module) : (Module.modFn f g m).loop = m.loop := rfl
@[simp] theorem Module.modFn_lanes (f : Nat) (g : FuncRec → FuncRec) (m : Module) : (Module.modFn f g m).lanes = m.lanes := rfl
@[simp] theorem Module.modFn_disp (f : Nat) (g : FuncRec → FuncRec) (m : Module) : (Module.modFn f g m).disp = m.disp := rfl
@[simp] theorem Module.modFn_slate (f : Nat) (g : FuncRec → FuncRec) (m : Module) : (Module.modFn f g m).slate = m.slate := rfl
@[simp] theorem Module.modFn_flint (f : Nat) (g : FuncRec → FuncRec) (m : Module) : (Module.modFn f g m).flint = m.flint := rfl
@[simp] theorem Module.modFn_motion (f : Nat) (g : FuncRec → FuncRec) (m : Module) : (Module.modFn f g m).motion = m.motion := rfl
@[simp] theorem Module.modFn_io (f : Nat) (g : FuncRec → FuncRec) (m : Module) : (Module.modFn f g m).io = m.io := rfl
@[simp] theorem Module.modFn_ports (f : Nat) (g : FuncRec → FuncRec) (m : Module) : (Module.modFn f g m).ports = m.ports := rfl
@[simp] theorem Module.modFn_acq (f : Nat) (g : FuncRec → FuncRec) (m : Module) : (Module.modFn f g m).acq = m.acq := rfl
@[simp] theorem Module.modFn_time (f : Nat) (g : FuncRec → FuncRec) (m : Module) : (Module.modFn f g m).time = m.time := rfl
@[simp] theorem Module.modFn_cal (f : Nat) (g : FuncRec → FuncRec) (m : Module) : (Module.modFn f g m).cal = m.cal := rfl
@[simp] theorem Module.modFn_power (f : Nat) (g : FuncRec → FuncRec) (m : Module) : (Module.modFn f g m).power = m.power := rfl
@[simp] theorem Module.modFn_red (f : Nat) (g : FuncRec → FuncRec) (m : Module) : (Module.modFn f g m).red = m.red := rfl
@[simp] theorem Module.modFn_sec (f : Nat) (g : FuncRec → FuncRec) (m : Module) : (Module.modFn f g m).sec = m.sec := rfl
@[simp] theorem Module.modFn_nv (f : Nat) (g : FuncRec → FuncRec) (m : Module) : (Module.modFn f g m).nv = m.nv := rfl
@[simp] theorem Module.modFn_out (f : Nat) (g : FuncRec → FuncRec) (m : Module) : (Module.modFn f g m).out = m.out := rfl
@[simp] theorem Module.modFn_free (f : Nat) (g : FuncRec → FuncRec) (m : Module) : (Module.modFn f g m).free = m.free := rfl
@[simp] theorem advance_dict (n : Nat) (m : Module) : (advance n m).dict = m.dict := rfl
@[simp] theorem advance_funcs (n : Nat) (m : Module) : (advance n m).funcs = m.funcs := rfl
@[simp] theorem advance_bootRunning (n : Nat) (m : Module) : (advance n m).bootRunning = m.bootRunning := rfl
@[simp] theorem advance_tick (n : Nat) (m : Module) : (advance n m).tick = m.tick := rfl
@[simp] theorem advance_pi (n : Nat) (m : Module) : (advance n m).pi = m.pi := rfl
@[simp] theorem advance_odp (n : Nat) (m : Module) : (advance n m).odp = m.odp := rfl
@[simp] theorem advance_agate (n : Nat) (m : Module) : (advance n m).agate = m.agate := rfl
@[simp] theorem advance_loop (n : Nat) (m : Module) : (advance n m).loop = m.loop := rfl
@[simp] theorem advance_lanes (n : Nat) (m : Module) : (advance n m).lanes = m.lanes := rfl
@[simp] theorem advance_disp (n : Nat) (m : Module) : (advance n m).disp = m.disp := rfl
@[simp] theorem advance_slate (n : Nat) (m : Module) : (advance n m).slate = m.slate := rfl
@[simp] theorem advance_flint (n : Nat) (m : Module) : (advance n m).flint = m.flint := rfl
@[simp] theorem advance_motion (n : Nat) (m : Module) : (advance n m).motion = m.motion := rfl
@[simp] theorem advance_io (n : Nat) (m : Module) : (advance n m).io = m.io := rfl
@[simp] theorem advance_ports (n : Nat) (m : Module) : (advance n m).ports = m.ports := rfl
@[simp] theorem advance_acq (n : Nat) (m : Module) : (advance n m).acq = m.acq := rfl
@[simp] theorem advance_cal (n : Nat) (m : Module) : (advance n m).cal = m.cal := rfl
@[simp] theorem advance_power (n : Nat) (m : Module) : (advance n m).power = m.power := rfl
@[simp] theorem advance_red (n : Nat) (m : Module) : (advance n m).red = m.red := rfl
@[simp] theorem advance_sec (n : Nat) (m : Module) : (advance n m).sec = m.sec := rfl
@[simp] theorem advance_nv (n : Nat) (m : Module) : (advance n m).nv = m.nv := rfl
@[simp] theorem advance_out (n : Nat) (m : Module) : (advance n m).out = m.out := rfl
@[simp] theorem advance_free (n : Nat) (m : Module) : (advance n m).free = m.free := rfl
@[simp] theorem idleCycle_dict (m : Module) : (idleCycle m).dict = m.dict := rfl
@[simp] theorem idleCycle_funcs (m : Module) : (idleCycle m).funcs = m.funcs := rfl
@[simp] theorem idleCycle_bootRunning (m : Module) : (idleCycle m).bootRunning = m.bootRunning := rfl
@[simp] theorem idleCycle_pi (m : Module) : (idleCycle m).pi = m.pi := rfl
@[simp] theorem idleCycle_odp (m : Module) : (idleCycle m).odp = m.odp := rfl
@[simp] theorem idleCycle_agate (m : Module) : (idleCycle m).agate = m.agate := rfl
@[simp] theorem idleCycle_loop (m : Module) : (idleCycle m).loop = m.loop := rfl
@[simp] theorem idleCycle_lanes (m : Module) : (idleCycle m).lanes = m.lanes := rfl
@[simp] theorem idleCycle_disp (m : Module) : (idleCycle m).disp = m.disp := rfl
@[simp] theorem idleCycle_slate (m : Module) : (idleCycle m).slate = m.slate := rfl
@[simp] theorem idleCycle_flint (m : Module) : (idleCycle m).flint = m.flint := rfl
@[simp] theorem idleCycle_motion (m : Module) : (idleCycle m).motion = m.motion := rfl
@[simp] theorem idleCycle_io (m : Module) : (idleCycle m).io = m.io := rfl
@[simp] theorem idleCycle_ports (m : Module) : (idleCycle m).ports = m.ports := rfl
@[simp] theorem idleCycle_acq (m : Module) : (idleCycle m).acq = m.acq := rfl
@[simp] theorem idleCycle_cal (m : Module) : (idleCycle m).cal = m.cal := rfl
@[simp] theorem idleCycle_power (m : Module) : (idleCycle m).power = m.power := rfl
@[simp] theorem idleCycle_red (m : Module) : (idleCycle m).red = m.red := rfl
@[simp] theorem idleCycle_sec (m : Module) : (idleCycle m).sec = m.sec := rfl
@[simp] theorem idleCycle_nv (m : Module) : (idleCycle m).nv = m.nv := rfl
@[simp] theorem idleCycle_out (m : Module) : (idleCycle m).out = m.out := rfl
@[simp] theorem idleCycle_free (m : Module) : (idleCycle m).free = m.free := rfl
@[simp] theorem raiseAt_dict (t : T80) (source code flags : Nat) (body : List Byte) (m : Module) : (raiseAt t source code flags body m).dict = m.dict := rfl
@[simp] theorem raiseAt_funcs (t : T80) (source code flags : Nat) (body : List Byte) (m : Module) : (raiseAt t source code flags body m).funcs = m.funcs := rfl
@[simp] theorem raiseAt_bootRunning (t : T80) (source code flags : Nat) (body : List Byte) (m : Module) : (raiseAt t source code flags body m).bootRunning = m.bootRunning := rfl
@[simp] theorem raiseAt_tick (t : T80) (source code flags : Nat) (body : List Byte) (m : Module) : (raiseAt t source code flags body m).tick = m.tick := rfl
@[simp] theorem raiseAt_pi (t : T80) (source code flags : Nat) (body : List Byte) (m : Module) : (raiseAt t source code flags body m).pi = m.pi := rfl
@[simp] theorem raiseAt_odp (t : T80) (source code flags : Nat) (body : List Byte) (m : Module) : (raiseAt t source code flags body m).odp = m.odp := rfl
@[simp] theorem raiseAt_loop (t : T80) (source code flags : Nat) (body : List Byte) (m : Module) : (raiseAt t source code flags body m).loop = m.loop := rfl
@[simp] theorem raiseAt_lanes (t : T80) (source code flags : Nat) (body : List Byte) (m : Module) : (raiseAt t source code flags body m).lanes = m.lanes := rfl
@[simp] theorem raiseAt_disp (t : T80) (source code flags : Nat) (body : List Byte) (m : Module) : (raiseAt t source code flags body m).disp = m.disp := rfl
@[simp] theorem raiseAt_slate (t : T80) (source code flags : Nat) (body : List Byte) (m : Module) : (raiseAt t source code flags body m).slate = m.slate := rfl
@[simp] theorem raiseAt_flint (t : T80) (source code flags : Nat) (body : List Byte) (m : Module) : (raiseAt t source code flags body m).flint = m.flint := rfl
@[simp] theorem raiseAt_motion (t : T80) (source code flags : Nat) (body : List Byte) (m : Module) : (raiseAt t source code flags body m).motion = m.motion := rfl
@[simp] theorem raiseAt_io (t : T80) (source code flags : Nat) (body : List Byte) (m : Module) : (raiseAt t source code flags body m).io = m.io := rfl
@[simp] theorem raiseAt_ports (t : T80) (source code flags : Nat) (body : List Byte) (m : Module) : (raiseAt t source code flags body m).ports = m.ports := rfl
@[simp] theorem raiseAt_acq (t : T80) (source code flags : Nat) (body : List Byte) (m : Module) : (raiseAt t source code flags body m).acq = m.acq := rfl
@[simp] theorem raiseAt_time (t : T80) (source code flags : Nat) (body : List Byte) (m : Module) : (raiseAt t source code flags body m).time = m.time := rfl
@[simp] theorem raiseAt_cal (t : T80) (source code flags : Nat) (body : List Byte) (m : Module) : (raiseAt t source code flags body m).cal = m.cal := rfl
@[simp] theorem raiseAt_power (t : T80) (source code flags : Nat) (body : List Byte) (m : Module) : (raiseAt t source code flags body m).power = m.power := rfl
@[simp] theorem raiseAt_red (t : T80) (source code flags : Nat) (body : List Byte) (m : Module) : (raiseAt t source code flags body m).red = m.red := rfl
@[simp] theorem raiseAt_sec (t : T80) (source code flags : Nat) (body : List Byte) (m : Module) : (raiseAt t source code flags body m).sec = m.sec := rfl
@[simp] theorem raiseAt_nv (t : T80) (source code flags : Nat) (body : List Byte) (m : Module) : (raiseAt t source code flags body m).nv = m.nv := rfl
@[simp] theorem raiseAt_out (t : T80) (source code flags : Nat) (body : List Byte) (m : Module) : (raiseAt t source code flags body m).out = m.out := rfl
@[simp] theorem raiseAt_free (t : T80) (source code flags : Nat) (body : List Byte) (m : Module) : (raiseAt t source code flags body m).free = m.free := rfl
@[simp] theorem raise_dict (source code : Nat) (body : List Byte) (m : Module) : (raise source code body m).dict = m.dict := rfl
@[simp] theorem raise_funcs (source code : Nat) (body : List Byte) (m : Module) : (raise source code body m).funcs = m.funcs := rfl
@[simp] theorem raise_bootRunning (source code : Nat) (body : List Byte) (m : Module) : (raise source code body m).bootRunning = m.bootRunning := rfl
@[simp] theorem raise_tick (source code : Nat) (body : List Byte) (m : Module) : (raise source code body m).tick = m.tick := rfl
@[simp] theorem raise_pi (source code : Nat) (body : List Byte) (m : Module) : (raise source code body m).pi = m.pi := rfl
@[simp] theorem raise_odp (source code : Nat) (body : List Byte) (m : Module) : (raise source code body m).odp = m.odp := rfl
@[simp] theorem raise_loop (source code : Nat) (body : List Byte) (m : Module) : (raise source code body m).loop = m.loop := rfl
@[simp] theorem raise_lanes (source code : Nat) (body : List Byte) (m : Module) : (raise source code body m).lanes = m.lanes := rfl
@[simp] theorem raise_disp (source code : Nat) (body : List Byte) (m : Module) : (raise source code body m).disp = m.disp := rfl
@[simp] theorem raise_slate (source code : Nat) (body : List Byte) (m : Module) : (raise source code body m).slate = m.slate := rfl
@[simp] theorem raise_flint (source code : Nat) (body : List Byte) (m : Module) : (raise source code body m).flint = m.flint := rfl
@[simp] theorem raise_motion (source code : Nat) (body : List Byte) (m : Module) : (raise source code body m).motion = m.motion := rfl
@[simp] theorem raise_io (source code : Nat) (body : List Byte) (m : Module) : (raise source code body m).io = m.io := rfl
@[simp] theorem raise_ports (source code : Nat) (body : List Byte) (m : Module) : (raise source code body m).ports = m.ports := rfl
@[simp] theorem raise_acq (source code : Nat) (body : List Byte) (m : Module) : (raise source code body m).acq = m.acq := rfl
@[simp] theorem raise_time (source code : Nat) (body : List Byte) (m : Module) : (raise source code body m).time = m.time := rfl
@[simp] theorem raise_cal (source code : Nat) (body : List Byte) (m : Module) : (raise source code body m).cal = m.cal := rfl
@[simp] theorem raise_power (source code : Nat) (body : List Byte) (m : Module) : (raise source code body m).power = m.power := rfl
@[simp] theorem raise_red (source code : Nat) (body : List Byte) (m : Module) : (raise source code body m).red = m.red := rfl
@[simp] theorem raise_sec (source code : Nat) (body : List Byte) (m : Module) : (raise source code body m).sec = m.sec := rfl
@[simp] theorem raise_nv (source code : Nat) (body : List Byte) (m : Module) : (raise source code body m).nv = m.nv := rfl
@[simp] theorem raise_out (source code : Nat) (body : List Byte) (m : Module) : (raise source code body m).out = m.out := rfl
@[simp] theorem raise_free (source code : Nat) (body : List Byte) (m : Module) : (raise source code body m).free = m.free := rfl
@[simp] theorem post_dict (source code : Nat) (body : List Byte) (m : Module) : (post source code body m).dict = m.dict := rfl
@[simp] theorem post_funcs (source code : Nat) (body : List Byte) (m : Module) : (post source code body m).funcs = m.funcs := rfl
@[simp] theorem post_bootRunning (source code : Nat) (body : List Byte) (m : Module) : (post source code body m).bootRunning = m.bootRunning := rfl
@[simp] theorem post_tick (source code : Nat) (body : List Byte) (m : Module) : (post source code body m).tick = m.tick := rfl
@[simp] theorem post_pi (source code : Nat) (body : List Byte) (m : Module) : (post source code body m).pi = m.pi := rfl
@[simp] theorem post_odp (source code : Nat) (body : List Byte) (m : Module) : (post source code body m).odp = m.odp := rfl
@[simp] theorem post_loop (source code : Nat) (body : List Byte) (m : Module) : (post source code body m).loop = m.loop := rfl
@[simp] theorem post_lanes (source code : Nat) (body : List Byte) (m : Module) : (post source code body m).lanes = m.lanes := rfl
@[simp] theorem post_disp (source code : Nat) (body : List Byte) (m : Module) : (post source code body m).disp = m.disp := rfl
@[simp] theorem post_slate (source code : Nat) (body : List Byte) (m : Module) : (post source code body m).slate = m.slate := rfl
@[simp] theorem post_flint (source code : Nat) (body : List Byte) (m : Module) : (post source code body m).flint = m.flint := rfl
@[simp] theorem post_motion (source code : Nat) (body : List Byte) (m : Module) : (post source code body m).motion = m.motion := rfl
@[simp] theorem post_io (source code : Nat) (body : List Byte) (m : Module) : (post source code body m).io = m.io := rfl
@[simp] theorem post_ports (source code : Nat) (body : List Byte) (m : Module) : (post source code body m).ports = m.ports := rfl
@[simp] theorem post_acq (source code : Nat) (body : List Byte) (m : Module) : (post source code body m).acq = m.acq := rfl
@[simp] theorem post_time (source code : Nat) (body : List Byte) (m : Module) : (post source code body m).time = m.time := rfl
@[simp] theorem post_cal (source code : Nat) (body : List Byte) (m : Module) : (post source code body m).cal = m.cal := rfl
@[simp] theorem post_power (source code : Nat) (body : List Byte) (m : Module) : (post source code body m).power = m.power := rfl
@[simp] theorem post_red (source code : Nat) (body : List Byte) (m : Module) : (post source code body m).red = m.red := rfl
@[simp] theorem post_sec (source code : Nat) (body : List Byte) (m : Module) : (post source code body m).sec = m.sec := rfl
@[simp] theorem post_nv (source code : Nat) (body : List Byte) (m : Module) : (post source code body m).nv = m.nv := rfl
@[simp] theorem post_out (source code : Nat) (body : List Byte) (m : Module) : (post source code body m).out = m.out := rfl
@[simp] theorem post_free (source code : Nat) (body : List Byte) (m : Module) : (post source code body m).free = m.free := rfl
@[simp] theorem emit_dict (o : Out) (m : Module) : (emit o m).dict = m.dict := rfl
@[simp] theorem emit_funcs (o : Out) (m : Module) : (emit o m).funcs = m.funcs := rfl
@[simp] theorem emit_bootRunning (o : Out) (m : Module) : (emit o m).bootRunning = m.bootRunning := rfl
@[simp] theorem emit_tick (o : Out) (m : Module) : (emit o m).tick = m.tick := rfl
@[simp] theorem emit_pi (o : Out) (m : Module) : (emit o m).pi = m.pi := rfl
@[simp] theorem emit_odp (o : Out) (m : Module) : (emit o m).odp = m.odp := rfl
@[simp] theorem emit_agate (o : Out) (m : Module) : (emit o m).agate = m.agate := rfl
@[simp] theorem emit_loop (o : Out) (m : Module) : (emit o m).loop = m.loop := rfl
@[simp] theorem emit_lanes (o : Out) (m : Module) : (emit o m).lanes = m.lanes := rfl
@[simp] theorem emit_disp (o : Out) (m : Module) : (emit o m).disp = m.disp := rfl
@[simp] theorem emit_slate (o : Out) (m : Module) : (emit o m).slate = m.slate := rfl
@[simp] theorem emit_flint (o : Out) (m : Module) : (emit o m).flint = m.flint := rfl
@[simp] theorem emit_motion (o : Out) (m : Module) : (emit o m).motion = m.motion := rfl
@[simp] theorem emit_io (o : Out) (m : Module) : (emit o m).io = m.io := rfl
@[simp] theorem emit_ports (o : Out) (m : Module) : (emit o m).ports = m.ports := rfl
@[simp] theorem emit_acq (o : Out) (m : Module) : (emit o m).acq = m.acq := rfl
@[simp] theorem emit_time (o : Out) (m : Module) : (emit o m).time = m.time := rfl
@[simp] theorem emit_cal (o : Out) (m : Module) : (emit o m).cal = m.cal := rfl
@[simp] theorem emit_power (o : Out) (m : Module) : (emit o m).power = m.power := rfl
@[simp] theorem emit_red (o : Out) (m : Module) : (emit o m).red = m.red := rfl
@[simp] theorem emit_sec (o : Out) (m : Module) : (emit o m).sec = m.sec := rfl
@[simp] theorem emit_nv (o : Out) (m : Module) : (emit o m).nv = m.nv := rfl
@[simp] theorem emit_free (o : Out) (m : Module) : (emit o m).free = m.free := rfl
@[simp] theorem modLane_dict (l : Nat) (f : Lane → Lane) (m : Module) : (modLane l f m).dict = m.dict := rfl
@[simp] theorem modLane_funcs (l : Nat) (f : Lane → Lane) (m : Module) : (modLane l f m).funcs = m.funcs := rfl
@[simp] theorem modLane_bootRunning (l : Nat) (f : Lane → Lane) (m : Module) : (modLane l f m).bootRunning = m.bootRunning := rfl
@[simp] theorem modLane_tick (l : Nat) (f : Lane → Lane) (m : Module) : (modLane l f m).tick = m.tick := rfl
@[simp] theorem modLane_pi (l : Nat) (f : Lane → Lane) (m : Module) : (modLane l f m).pi = m.pi := rfl
@[simp] theorem modLane_odp (l : Nat) (f : Lane → Lane) (m : Module) : (modLane l f m).odp = m.odp := rfl
@[simp] theorem modLane_agate (l : Nat) (f : Lane → Lane) (m : Module) : (modLane l f m).agate = m.agate := rfl
@[simp] theorem modLane_loop (l : Nat) (f : Lane → Lane) (m : Module) : (modLane l f m).loop = m.loop := rfl
@[simp] theorem modLane_disp (l : Nat) (f : Lane → Lane) (m : Module) : (modLane l f m).disp = m.disp := rfl
@[simp] theorem modLane_slate (l : Nat) (f : Lane → Lane) (m : Module) : (modLane l f m).slate = m.slate := rfl
@[simp] theorem modLane_flint (l : Nat) (f : Lane → Lane) (m : Module) : (modLane l f m).flint = m.flint := rfl
@[simp] theorem modLane_motion (l : Nat) (f : Lane → Lane) (m : Module) : (modLane l f m).motion = m.motion := rfl
@[simp] theorem modLane_io (l : Nat) (f : Lane → Lane) (m : Module) : (modLane l f m).io = m.io := rfl
@[simp] theorem modLane_ports (l : Nat) (f : Lane → Lane) (m : Module) : (modLane l f m).ports = m.ports := rfl
@[simp] theorem modLane_acq (l : Nat) (f : Lane → Lane) (m : Module) : (modLane l f m).acq = m.acq := rfl
@[simp] theorem modLane_time (l : Nat) (f : Lane → Lane) (m : Module) : (modLane l f m).time = m.time := rfl
@[simp] theorem modLane_cal (l : Nat) (f : Lane → Lane) (m : Module) : (modLane l f m).cal = m.cal := rfl
@[simp] theorem modLane_power (l : Nat) (f : Lane → Lane) (m : Module) : (modLane l f m).power = m.power := rfl
@[simp] theorem modLane_red (l : Nat) (f : Lane → Lane) (m : Module) : (modLane l f m).red = m.red := rfl
@[simp] theorem modLane_sec (l : Nat) (f : Lane → Lane) (m : Module) : (modLane l f m).sec = m.sec := rfl
@[simp] theorem modLane_nv (l : Nat) (f : Lane → Lane) (m : Module) : (modLane l f m).nv = m.nv := rfl
@[simp] theorem modLane_out (l : Nat) (f : Lane → Lane) (m : Module) : (modLane l f m).out = m.out := rfl
@[simp] theorem modLane_free (l : Nat) (f : Lane → Lane) (m : Module) : (modLane l f m).free = m.free := rfl
@[simp] theorem setDesc_dict (d : Nat) (x : Option Desc) (m : Module) : (setDesc d x m).dict = m.dict := rfl
@[simp] theorem setDesc_funcs (d : Nat) (x : Option Desc) (m : Module) : (setDesc d x m).funcs = m.funcs := rfl
@[simp] theorem setDesc_bootRunning (d : Nat) (x : Option Desc) (m : Module) : (setDesc d x m).bootRunning = m.bootRunning := rfl
@[simp] theorem setDesc_tick (d : Nat) (x : Option Desc) (m : Module) : (setDesc d x m).tick = m.tick := rfl
@[simp] theorem setDesc_pi (d : Nat) (x : Option Desc) (m : Module) : (setDesc d x m).pi = m.pi := rfl
@[simp] theorem setDesc_odp (d : Nat) (x : Option Desc) (m : Module) : (setDesc d x m).odp = m.odp := rfl
@[simp] theorem setDesc_agate (d : Nat) (x : Option Desc) (m : Module) : (setDesc d x m).agate = m.agate := rfl
@[simp] theorem setDesc_loop (d : Nat) (x : Option Desc) (m : Module) : (setDesc d x m).loop = m.loop := rfl
@[simp] theorem setDesc_lanes (d : Nat) (x : Option Desc) (m : Module) : (setDesc d x m).lanes = m.lanes := rfl
@[simp] theorem setDesc_slate (d : Nat) (x : Option Desc) (m : Module) : (setDesc d x m).slate = m.slate := rfl
@[simp] theorem setDesc_flint (d : Nat) (x : Option Desc) (m : Module) : (setDesc d x m).flint = m.flint := rfl
@[simp] theorem setDesc_motion (d : Nat) (x : Option Desc) (m : Module) : (setDesc d x m).motion = m.motion := rfl
@[simp] theorem setDesc_io (d : Nat) (x : Option Desc) (m : Module) : (setDesc d x m).io = m.io := rfl
@[simp] theorem setDesc_ports (d : Nat) (x : Option Desc) (m : Module) : (setDesc d x m).ports = m.ports := rfl
@[simp] theorem setDesc_acq (d : Nat) (x : Option Desc) (m : Module) : (setDesc d x m).acq = m.acq := rfl
@[simp] theorem setDesc_time (d : Nat) (x : Option Desc) (m : Module) : (setDesc d x m).time = m.time := rfl
@[simp] theorem setDesc_cal (d : Nat) (x : Option Desc) (m : Module) : (setDesc d x m).cal = m.cal := rfl
@[simp] theorem setDesc_power (d : Nat) (x : Option Desc) (m : Module) : (setDesc d x m).power = m.power := rfl
@[simp] theorem setDesc_red (d : Nat) (x : Option Desc) (m : Module) : (setDesc d x m).red = m.red := rfl
@[simp] theorem setDesc_sec (d : Nat) (x : Option Desc) (m : Module) : (setDesc d x m).sec = m.sec := rfl
@[simp] theorem setDesc_nv (d : Nat) (x : Option Desc) (m : Module) : (setDesc d x m).nv = m.nv := rfl
@[simp] theorem setDesc_out (d : Nat) (x : Option Desc) (m : Module) : (setDesc d x m).out = m.out := rfl
@[simp] theorem setDesc_free (d : Nat) (x : Option Desc) (m : Module) : (setDesc d x m).free = m.free := rfl
@[simp] theorem setInst_dict (d e : Nat) (f : Inst → Inst) (m : Module) : (setInst d e f m).dict = m.dict := rfl
@[simp] theorem setInst_funcs (d e : Nat) (f : Inst → Inst) (m : Module) : (setInst d e f m).funcs = m.funcs := rfl
@[simp] theorem setInst_bootRunning (d e : Nat) (f : Inst → Inst) (m : Module) : (setInst d e f m).bootRunning = m.bootRunning := rfl
@[simp] theorem setInst_tick (d e : Nat) (f : Inst → Inst) (m : Module) : (setInst d e f m).tick = m.tick := rfl
@[simp] theorem setInst_pi (d e : Nat) (f : Inst → Inst) (m : Module) : (setInst d e f m).pi = m.pi := rfl
@[simp] theorem setInst_odp (d e : Nat) (f : Inst → Inst) (m : Module) : (setInst d e f m).odp = m.odp := rfl
@[simp] theorem setInst_agate (d e : Nat) (f : Inst → Inst) (m : Module) : (setInst d e f m).agate = m.agate := rfl
@[simp] theorem setInst_loop (d e : Nat) (f : Inst → Inst) (m : Module) : (setInst d e f m).loop = m.loop := rfl
@[simp] theorem setInst_lanes (d e : Nat) (f : Inst → Inst) (m : Module) : (setInst d e f m).lanes = m.lanes := rfl
@[simp] theorem setInst_slate (d e : Nat) (f : Inst → Inst) (m : Module) : (setInst d e f m).slate = m.slate := rfl
@[simp] theorem setInst_flint (d e : Nat) (f : Inst → Inst) (m : Module) : (setInst d e f m).flint = m.flint := rfl
@[simp] theorem setInst_motion (d e : Nat) (f : Inst → Inst) (m : Module) : (setInst d e f m).motion = m.motion := rfl
@[simp] theorem setInst_io (d e : Nat) (f : Inst → Inst) (m : Module) : (setInst d e f m).io = m.io := rfl
@[simp] theorem setInst_ports (d e : Nat) (f : Inst → Inst) (m : Module) : (setInst d e f m).ports = m.ports := rfl
@[simp] theorem setInst_acq (d e : Nat) (f : Inst → Inst) (m : Module) : (setInst d e f m).acq = m.acq := rfl
@[simp] theorem setInst_time (d e : Nat) (f : Inst → Inst) (m : Module) : (setInst d e f m).time = m.time := rfl
@[simp] theorem setInst_cal (d e : Nat) (f : Inst → Inst) (m : Module) : (setInst d e f m).cal = m.cal := rfl
@[simp] theorem setInst_power (d e : Nat) (f : Inst → Inst) (m : Module) : (setInst d e f m).power = m.power := rfl
@[simp] theorem setInst_red (d e : Nat) (f : Inst → Inst) (m : Module) : (setInst d e f m).red = m.red := rfl
@[simp] theorem setInst_sec (d e : Nat) (f : Inst → Inst) (m : Module) : (setInst d e f m).sec = m.sec := rfl
@[simp] theorem setInst_nv (d e : Nat) (f : Inst → Inst) (m : Module) : (setInst d e f m).nv = m.nv := rfl
@[simp] theorem setInst_out (d e : Nat) (f : Inst → Inst) (m : Module) : (setInst d e f m).out = m.out := rfl
@[simp] theorem setInst_free (d e : Nat) (f : Inst → Inst) (m : Module) : (setInst d e f m).free = m.free := rfl
@[simp] theorem modSlotRun_dict (k : Nat) (f : SlotRun → SlotRun) (m : Module) : (modSlotRun k f m).dict = m.dict := rfl
@[simp] theorem modSlotRun_funcs (k : Nat) (f : SlotRun → SlotRun) (m : Module) : (modSlotRun k f m).funcs = m.funcs := rfl
@[simp] theorem modSlotRun_bootRunning (k : Nat) (f : SlotRun → SlotRun) (m : Module) : (modSlotRun k f m).bootRunning = m.bootRunning := rfl
@[simp] theorem modSlotRun_tick (k : Nat) (f : SlotRun → SlotRun) (m : Module) : (modSlotRun k f m).tick = m.tick := rfl
@[simp] theorem modSlotRun_pi (k : Nat) (f : SlotRun → SlotRun) (m : Module) : (modSlotRun k f m).pi = m.pi := rfl
@[simp] theorem modSlotRun_odp (k : Nat) (f : SlotRun → SlotRun) (m : Module) : (modSlotRun k f m).odp = m.odp := rfl
@[simp] theorem modSlotRun_agate (k : Nat) (f : SlotRun → SlotRun) (m : Module) : (modSlotRun k f m).agate = m.agate := rfl
@[simp] theorem modSlotRun_lanes (k : Nat) (f : SlotRun → SlotRun) (m : Module) : (modSlotRun k f m).lanes = m.lanes := rfl
@[simp] theorem modSlotRun_disp (k : Nat) (f : SlotRun → SlotRun) (m : Module) : (modSlotRun k f m).disp = m.disp := rfl
@[simp] theorem modSlotRun_slate (k : Nat) (f : SlotRun → SlotRun) (m : Module) : (modSlotRun k f m).slate = m.slate := rfl
@[simp] theorem modSlotRun_flint (k : Nat) (f : SlotRun → SlotRun) (m : Module) : (modSlotRun k f m).flint = m.flint := rfl
@[simp] theorem modSlotRun_motion (k : Nat) (f : SlotRun → SlotRun) (m : Module) : (modSlotRun k f m).motion = m.motion := rfl
@[simp] theorem modSlotRun_io (k : Nat) (f : SlotRun → SlotRun) (m : Module) : (modSlotRun k f m).io = m.io := rfl
@[simp] theorem modSlotRun_ports (k : Nat) (f : SlotRun → SlotRun) (m : Module) : (modSlotRun k f m).ports = m.ports := rfl
@[simp] theorem modSlotRun_acq (k : Nat) (f : SlotRun → SlotRun) (m : Module) : (modSlotRun k f m).acq = m.acq := rfl
@[simp] theorem modSlotRun_time (k : Nat) (f : SlotRun → SlotRun) (m : Module) : (modSlotRun k f m).time = m.time := rfl
@[simp] theorem modSlotRun_cal (k : Nat) (f : SlotRun → SlotRun) (m : Module) : (modSlotRun k f m).cal = m.cal := rfl
@[simp] theorem modSlotRun_power (k : Nat) (f : SlotRun → SlotRun) (m : Module) : (modSlotRun k f m).power = m.power := rfl
@[simp] theorem modSlotRun_red (k : Nat) (f : SlotRun → SlotRun) (m : Module) : (modSlotRun k f m).red = m.red := rfl
@[simp] theorem modSlotRun_sec (k : Nat) (f : SlotRun → SlotRun) (m : Module) : (modSlotRun k f m).sec = m.sec := rfl
@[simp] theorem modSlotRun_nv (k : Nat) (f : SlotRun → SlotRun) (m : Module) : (modSlotRun k f m).nv = m.nv := rfl
@[simp] theorem modSlotRun_out (k : Nat) (f : SlotRun → SlotRun) (m : Module) : (modSlotRun k f m).out = m.out := rfl
@[simp] theorem modSlotRun_free (k : Nat) (f : SlotRun → SlotRun) (m : Module) : (modSlotRun k f m).free = m.free := rfl
@[simp] theorem modRun_dict (r : Nat) (f : Run → Run) (m : Module) : (modRun r f m).dict = m.dict := rfl
@[simp] theorem modRun_funcs (r : Nat) (f : Run → Run) (m : Module) : (modRun r f m).funcs = m.funcs := rfl
@[simp] theorem modRun_bootRunning (r : Nat) (f : Run → Run) (m : Module) : (modRun r f m).bootRunning = m.bootRunning := rfl
@[simp] theorem modRun_tick (r : Nat) (f : Run → Run) (m : Module) : (modRun r f m).tick = m.tick := rfl
@[simp] theorem modRun_pi (r : Nat) (f : Run → Run) (m : Module) : (modRun r f m).pi = m.pi := rfl
@[simp] theorem modRun_odp (r : Nat) (f : Run → Run) (m : Module) : (modRun r f m).odp = m.odp := rfl
@[simp] theorem modRun_agate (r : Nat) (f : Run → Run) (m : Module) : (modRun r f m).agate = m.agate := rfl
@[simp] theorem modRun_loop (r : Nat) (f : Run → Run) (m : Module) : (modRun r f m).loop = m.loop := rfl
@[simp] theorem modRun_lanes (r : Nat) (f : Run → Run) (m : Module) : (modRun r f m).lanes = m.lanes := rfl
@[simp] theorem modRun_disp (r : Nat) (f : Run → Run) (m : Module) : (modRun r f m).disp = m.disp := rfl
@[simp] theorem modRun_flint (r : Nat) (f : Run → Run) (m : Module) : (modRun r f m).flint = m.flint := rfl
@[simp] theorem modRun_motion (r : Nat) (f : Run → Run) (m : Module) : (modRun r f m).motion = m.motion := rfl
@[simp] theorem modRun_io (r : Nat) (f : Run → Run) (m : Module) : (modRun r f m).io = m.io := rfl
@[simp] theorem modRun_ports (r : Nat) (f : Run → Run) (m : Module) : (modRun r f m).ports = m.ports := rfl
@[simp] theorem modRun_acq (r : Nat) (f : Run → Run) (m : Module) : (modRun r f m).acq = m.acq := rfl
@[simp] theorem modRun_time (r : Nat) (f : Run → Run) (m : Module) : (modRun r f m).time = m.time := rfl
@[simp] theorem modRun_cal (r : Nat) (f : Run → Run) (m : Module) : (modRun r f m).cal = m.cal := rfl
@[simp] theorem modRun_power (r : Nat) (f : Run → Run) (m : Module) : (modRun r f m).power = m.power := rfl
@[simp] theorem modRun_red (r : Nat) (f : Run → Run) (m : Module) : (modRun r f m).red = m.red := rfl
@[simp] theorem modRun_sec (r : Nat) (f : Run → Run) (m : Module) : (modRun r f m).sec = m.sec := rfl
@[simp] theorem modRun_nv (r : Nat) (f : Run → Run) (m : Module) : (modRun r f m).nv = m.nv := rfl
@[simp] theorem modRun_out (r : Nat) (f : Run → Run) (m : Module) : (modRun r f m).out = m.out := rfl
@[simp] theorem modRun_free (r : Nat) (f : Run → Run) (m : Module) : (modRun r f m).free = m.free := rfl
@[simp] theorem modFtask_dict (k : Nat) (f : FlintTask → FlintTask) (m : Module) : (modFtask k f m).dict = m.dict := rfl
@[simp] theorem modFtask_funcs (k : Nat) (f : FlintTask → FlintTask) (m : Module) : (modFtask k f m).funcs = m.funcs := rfl
@[simp] theorem modFtask_bootRunning (k : Nat) (f : FlintTask → FlintTask) (m : Module) : (modFtask k f m).bootRunning = m.bootRunning := rfl
@[simp] theorem modFtask_tick (k : Nat) (f : FlintTask → FlintTask) (m : Module) : (modFtask k f m).tick = m.tick := rfl
@[simp] theorem modFtask_pi (k : Nat) (f : FlintTask → FlintTask) (m : Module) : (modFtask k f m).pi = m.pi := rfl
@[simp] theorem modFtask_odp (k : Nat) (f : FlintTask → FlintTask) (m : Module) : (modFtask k f m).odp = m.odp := rfl
@[simp] theorem modFtask_agate (k : Nat) (f : FlintTask → FlintTask) (m : Module) : (modFtask k f m).agate = m.agate := rfl
@[simp] theorem modFtask_loop (k : Nat) (f : FlintTask → FlintTask) (m : Module) : (modFtask k f m).loop = m.loop := rfl
@[simp] theorem modFtask_lanes (k : Nat) (f : FlintTask → FlintTask) (m : Module) : (modFtask k f m).lanes = m.lanes := rfl
@[simp] theorem modFtask_disp (k : Nat) (f : FlintTask → FlintTask) (m : Module) : (modFtask k f m).disp = m.disp := rfl
@[simp] theorem modFtask_slate (k : Nat) (f : FlintTask → FlintTask) (m : Module) : (modFtask k f m).slate = m.slate := rfl
@[simp] theorem modFtask_motion (k : Nat) (f : FlintTask → FlintTask) (m : Module) : (modFtask k f m).motion = m.motion := rfl
@[simp] theorem modFtask_io (k : Nat) (f : FlintTask → FlintTask) (m : Module) : (modFtask k f m).io = m.io := rfl
@[simp] theorem modFtask_ports (k : Nat) (f : FlintTask → FlintTask) (m : Module) : (modFtask k f m).ports = m.ports := rfl
@[simp] theorem modFtask_acq (k : Nat) (f : FlintTask → FlintTask) (m : Module) : (modFtask k f m).acq = m.acq := rfl
@[simp] theorem modFtask_time (k : Nat) (f : FlintTask → FlintTask) (m : Module) : (modFtask k f m).time = m.time := rfl
@[simp] theorem modFtask_cal (k : Nat) (f : FlintTask → FlintTask) (m : Module) : (modFtask k f m).cal = m.cal := rfl
@[simp] theorem modFtask_power (k : Nat) (f : FlintTask → FlintTask) (m : Module) : (modFtask k f m).power = m.power := rfl
@[simp] theorem modFtask_red (k : Nat) (f : FlintTask → FlintTask) (m : Module) : (modFtask k f m).red = m.red := rfl
@[simp] theorem modFtask_sec (k : Nat) (f : FlintTask → FlintTask) (m : Module) : (modFtask k f m).sec = m.sec := rfl
@[simp] theorem modFtask_nv (k : Nat) (f : FlintTask → FlintTask) (m : Module) : (modFtask k f m).nv = m.nv := rfl
@[simp] theorem modFtask_out (k : Nat) (f : FlintTask → FlintTask) (m : Module) : (modFtask k f m).out = m.out := rfl
@[simp] theorem modFtask_free (k : Nat) (f : FlintTask → FlintTask) (m : Module) : (modFtask k f m).free = m.free := rfl
@[simp] theorem modFData_dict (f : FData → FData) (m : Module) : (modFData f m).dict = m.dict := rfl
@[simp] theorem modFData_funcs (f : FData → FData) (m : Module) : (modFData f m).funcs = m.funcs := rfl
@[simp] theorem modFData_bootRunning (f : FData → FData) (m : Module) : (modFData f m).bootRunning = m.bootRunning := rfl
@[simp] theorem modFData_tick (f : FData → FData) (m : Module) : (modFData f m).tick = m.tick := rfl
@[simp] theorem modFData_pi (f : FData → FData) (m : Module) : (modFData f m).pi = m.pi := rfl
@[simp] theorem modFData_odp (f : FData → FData) (m : Module) : (modFData f m).odp = m.odp := rfl
@[simp] theorem modFData_agate (f : FData → FData) (m : Module) : (modFData f m).agate = m.agate := rfl
@[simp] theorem modFData_loop (f : FData → FData) (m : Module) : (modFData f m).loop = m.loop := rfl
@[simp] theorem modFData_lanes (f : FData → FData) (m : Module) : (modFData f m).lanes = m.lanes := rfl
@[simp] theorem modFData_disp (f : FData → FData) (m : Module) : (modFData f m).disp = m.disp := rfl
@[simp] theorem modFData_slate (f : FData → FData) (m : Module) : (modFData f m).slate = m.slate := rfl
@[simp] theorem modFData_motion (f : FData → FData) (m : Module) : (modFData f m).motion = m.motion := rfl
@[simp] theorem modFData_io (f : FData → FData) (m : Module) : (modFData f m).io = m.io := rfl
@[simp] theorem modFData_ports (f : FData → FData) (m : Module) : (modFData f m).ports = m.ports := rfl
@[simp] theorem modFData_acq (f : FData → FData) (m : Module) : (modFData f m).acq = m.acq := rfl
@[simp] theorem modFData_time (f : FData → FData) (m : Module) : (modFData f m).time = m.time := rfl
@[simp] theorem modFData_cal (f : FData → FData) (m : Module) : (modFData f m).cal = m.cal := rfl
@[simp] theorem modFData_power (f : FData → FData) (m : Module) : (modFData f m).power = m.power := rfl
@[simp] theorem modFData_red (f : FData → FData) (m : Module) : (modFData f m).red = m.red := rfl
@[simp] theorem modFData_sec (f : FData → FData) (m : Module) : (modFData f m).sec = m.sec := rfl
@[simp] theorem modFData_nv (f : FData → FData) (m : Module) : (modFData f m).nv = m.nv := rfl
@[simp] theorem modFData_out (f : FData → FData) (m : Module) : (modFData f m).out = m.out := rfl
@[simp] theorem modFData_free (f : FData → FData) (m : Module) : (modFData f m).free = m.free := rfl
@[simp] theorem modAxis_dict (a : Nat) (f : Axis → Axis) (m : Module) : (modAxis a f m).dict = m.dict := rfl
@[simp] theorem modAxis_funcs (a : Nat) (f : Axis → Axis) (m : Module) : (modAxis a f m).funcs = m.funcs := rfl
@[simp] theorem modAxis_bootRunning (a : Nat) (f : Axis → Axis) (m : Module) : (modAxis a f m).bootRunning = m.bootRunning := rfl
@[simp] theorem modAxis_tick (a : Nat) (f : Axis → Axis) (m : Module) : (modAxis a f m).tick = m.tick := rfl
@[simp] theorem modAxis_pi (a : Nat) (f : Axis → Axis) (m : Module) : (modAxis a f m).pi = m.pi := rfl
@[simp] theorem modAxis_odp (a : Nat) (f : Axis → Axis) (m : Module) : (modAxis a f m).odp = m.odp := rfl
@[simp] theorem modAxis_agate (a : Nat) (f : Axis → Axis) (m : Module) : (modAxis a f m).agate = m.agate := rfl
@[simp] theorem modAxis_loop (a : Nat) (f : Axis → Axis) (m : Module) : (modAxis a f m).loop = m.loop := rfl
@[simp] theorem modAxis_lanes (a : Nat) (f : Axis → Axis) (m : Module) : (modAxis a f m).lanes = m.lanes := rfl
@[simp] theorem modAxis_disp (a : Nat) (f : Axis → Axis) (m : Module) : (modAxis a f m).disp = m.disp := rfl
@[simp] theorem modAxis_slate (a : Nat) (f : Axis → Axis) (m : Module) : (modAxis a f m).slate = m.slate := rfl
@[simp] theorem modAxis_flint (a : Nat) (f : Axis → Axis) (m : Module) : (modAxis a f m).flint = m.flint := rfl
@[simp] theorem modAxis_io (a : Nat) (f : Axis → Axis) (m : Module) : (modAxis a f m).io = m.io := rfl
@[simp] theorem modAxis_ports (a : Nat) (f : Axis → Axis) (m : Module) : (modAxis a f m).ports = m.ports := rfl
@[simp] theorem modAxis_acq (a : Nat) (f : Axis → Axis) (m : Module) : (modAxis a f m).acq = m.acq := rfl
@[simp] theorem modAxis_time (a : Nat) (f : Axis → Axis) (m : Module) : (modAxis a f m).time = m.time := rfl
@[simp] theorem modAxis_cal (a : Nat) (f : Axis → Axis) (m : Module) : (modAxis a f m).cal = m.cal := rfl
@[simp] theorem modAxis_power (a : Nat) (f : Axis → Axis) (m : Module) : (modAxis a f m).power = m.power := rfl
@[simp] theorem modAxis_red (a : Nat) (f : Axis → Axis) (m : Module) : (modAxis a f m).red = m.red := rfl
@[simp] theorem modAxis_sec (a : Nat) (f : Axis → Axis) (m : Module) : (modAxis a f m).sec = m.sec := rfl
@[simp] theorem modAxis_nv (a : Nat) (f : Axis → Axis) (m : Module) : (modAxis a f m).nv = m.nv := rfl
@[simp] theorem modAxis_out (a : Nat) (f : Axis → Axis) (m : Module) : (modAxis a f m).out = m.out := rfl
@[simp] theorem modAxis_free (a : Nat) (f : Axis → Axis) (m : Module) : (modAxis a f m).free = m.free := rfl
@[simp] theorem modMGroup_dict (g : Nat) (f : MGroup → MGroup) (m : Module) : (modMGroup g f m).dict = m.dict := rfl
@[simp] theorem modMGroup_funcs (g : Nat) (f : MGroup → MGroup) (m : Module) : (modMGroup g f m).funcs = m.funcs := rfl
@[simp] theorem modMGroup_bootRunning (g : Nat) (f : MGroup → MGroup) (m : Module) : (modMGroup g f m).bootRunning = m.bootRunning := rfl
@[simp] theorem modMGroup_tick (g : Nat) (f : MGroup → MGroup) (m : Module) : (modMGroup g f m).tick = m.tick := rfl
@[simp] theorem modMGroup_pi (g : Nat) (f : MGroup → MGroup) (m : Module) : (modMGroup g f m).pi = m.pi := rfl
@[simp] theorem modMGroup_odp (g : Nat) (f : MGroup → MGroup) (m : Module) : (modMGroup g f m).odp = m.odp := rfl
@[simp] theorem modMGroup_agate (g : Nat) (f : MGroup → MGroup) (m : Module) : (modMGroup g f m).agate = m.agate := rfl
@[simp] theorem modMGroup_loop (g : Nat) (f : MGroup → MGroup) (m : Module) : (modMGroup g f m).loop = m.loop := rfl
@[simp] theorem modMGroup_lanes (g : Nat) (f : MGroup → MGroup) (m : Module) : (modMGroup g f m).lanes = m.lanes := rfl
@[simp] theorem modMGroup_disp (g : Nat) (f : MGroup → MGroup) (m : Module) : (modMGroup g f m).disp = m.disp := rfl
@[simp] theorem modMGroup_slate (g : Nat) (f : MGroup → MGroup) (m : Module) : (modMGroup g f m).slate = m.slate := rfl
@[simp] theorem modMGroup_flint (g : Nat) (f : MGroup → MGroup) (m : Module) : (modMGroup g f m).flint = m.flint := rfl
@[simp] theorem modMGroup_io (g : Nat) (f : MGroup → MGroup) (m : Module) : (modMGroup g f m).io = m.io := rfl
@[simp] theorem modMGroup_ports (g : Nat) (f : MGroup → MGroup) (m : Module) : (modMGroup g f m).ports = m.ports := rfl
@[simp] theorem modMGroup_acq (g : Nat) (f : MGroup → MGroup) (m : Module) : (modMGroup g f m).acq = m.acq := rfl
@[simp] theorem modMGroup_time (g : Nat) (f : MGroup → MGroup) (m : Module) : (modMGroup g f m).time = m.time := rfl
@[simp] theorem modMGroup_cal (g : Nat) (f : MGroup → MGroup) (m : Module) : (modMGroup g f m).cal = m.cal := rfl
@[simp] theorem modMGroup_power (g : Nat) (f : MGroup → MGroup) (m : Module) : (modMGroup g f m).power = m.power := rfl
@[simp] theorem modMGroup_red (g : Nat) (f : MGroup → MGroup) (m : Module) : (modMGroup g f m).red = m.red := rfl
@[simp] theorem modMGroup_sec (g : Nat) (f : MGroup → MGroup) (m : Module) : (modMGroup g f m).sec = m.sec := rfl
@[simp] theorem modMGroup_nv (g : Nat) (f : MGroup → MGroup) (m : Module) : (modMGroup g f m).nv = m.nv := rfl
@[simp] theorem modMGroup_out (g : Nat) (f : MGroup → MGroup) (m : Module) : (modMGroup g f m).out = m.out := rfl
@[simp] theorem modMGroup_free (g : Nat) (f : MGroup → MGroup) (m : Module) : (modMGroup g f m).free = m.free := rfl
@[simp] theorem modChan_dict (c : Nat) (f : Chan → Chan) (m : Module) : (modChan c f m).dict = m.dict := rfl
@[simp] theorem modChan_funcs (c : Nat) (f : Chan → Chan) (m : Module) : (modChan c f m).funcs = m.funcs := rfl
@[simp] theorem modChan_bootRunning (c : Nat) (f : Chan → Chan) (m : Module) : (modChan c f m).bootRunning = m.bootRunning := rfl
@[simp] theorem modChan_tick (c : Nat) (f : Chan → Chan) (m : Module) : (modChan c f m).tick = m.tick := rfl
@[simp] theorem modChan_pi (c : Nat) (f : Chan → Chan) (m : Module) : (modChan c f m).pi = m.pi := rfl
@[simp] theorem modChan_odp (c : Nat) (f : Chan → Chan) (m : Module) : (modChan c f m).odp = m.odp := rfl
@[simp] theorem modChan_agate (c : Nat) (f : Chan → Chan) (m : Module) : (modChan c f m).agate = m.agate := rfl
@[simp] theorem modChan_loop (c : Nat) (f : Chan → Chan) (m : Module) : (modChan c f m).loop = m.loop := rfl
@[simp] theorem modChan_lanes (c : Nat) (f : Chan → Chan) (m : Module) : (modChan c f m).lanes = m.lanes := rfl
@[simp] theorem modChan_disp (c : Nat) (f : Chan → Chan) (m : Module) : (modChan c f m).disp = m.disp := rfl
@[simp] theorem modChan_slate (c : Nat) (f : Chan → Chan) (m : Module) : (modChan c f m).slate = m.slate := rfl
@[simp] theorem modChan_flint (c : Nat) (f : Chan → Chan) (m : Module) : (modChan c f m).flint = m.flint := rfl
@[simp] theorem modChan_motion (c : Nat) (f : Chan → Chan) (m : Module) : (modChan c f m).motion = m.motion := rfl
@[simp] theorem modChan_ports (c : Nat) (f : Chan → Chan) (m : Module) : (modChan c f m).ports = m.ports := rfl
@[simp] theorem modChan_acq (c : Nat) (f : Chan → Chan) (m : Module) : (modChan c f m).acq = m.acq := rfl
@[simp] theorem modChan_time (c : Nat) (f : Chan → Chan) (m : Module) : (modChan c f m).time = m.time := rfl
@[simp] theorem modChan_cal (c : Nat) (f : Chan → Chan) (m : Module) : (modChan c f m).cal = m.cal := rfl
@[simp] theorem modChan_power (c : Nat) (f : Chan → Chan) (m : Module) : (modChan c f m).power = m.power := rfl
@[simp] theorem modChan_red (c : Nat) (f : Chan → Chan) (m : Module) : (modChan c f m).red = m.red := rfl
@[simp] theorem modChan_sec (c : Nat) (f : Chan → Chan) (m : Module) : (modChan c f m).sec = m.sec := rfl
@[simp] theorem modChan_nv (c : Nat) (f : Chan → Chan) (m : Module) : (modChan c f m).nv = m.nv := rfl
@[simp] theorem modChan_out (c : Nat) (f : Chan → Chan) (m : Module) : (modChan c f m).out = m.out := rfl
@[simp] theorem modChan_free (c : Nat) (f : Chan → Chan) (m : Module) : (modChan c f m).free = m.free := rfl
@[simp] theorem modPort_dict (p : Nat) (f : Port → Port) (m : Module) : (modPort p f m).dict = m.dict := rfl
@[simp] theorem modPort_funcs (p : Nat) (f : Port → Port) (m : Module) : (modPort p f m).funcs = m.funcs := rfl
@[simp] theorem modPort_bootRunning (p : Nat) (f : Port → Port) (m : Module) : (modPort p f m).bootRunning = m.bootRunning := rfl
@[simp] theorem modPort_tick (p : Nat) (f : Port → Port) (m : Module) : (modPort p f m).tick = m.tick := rfl
@[simp] theorem modPort_pi (p : Nat) (f : Port → Port) (m : Module) : (modPort p f m).pi = m.pi := rfl
@[simp] theorem modPort_odp (p : Nat) (f : Port → Port) (m : Module) : (modPort p f m).odp = m.odp := rfl
@[simp] theorem modPort_agate (p : Nat) (f : Port → Port) (m : Module) : (modPort p f m).agate = m.agate := rfl
@[simp] theorem modPort_loop (p : Nat) (f : Port → Port) (m : Module) : (modPort p f m).loop = m.loop := rfl
@[simp] theorem modPort_lanes (p : Nat) (f : Port → Port) (m : Module) : (modPort p f m).lanes = m.lanes := rfl
@[simp] theorem modPort_disp (p : Nat) (f : Port → Port) (m : Module) : (modPort p f m).disp = m.disp := rfl
@[simp] theorem modPort_slate (p : Nat) (f : Port → Port) (m : Module) : (modPort p f m).slate = m.slate := rfl
@[simp] theorem modPort_flint (p : Nat) (f : Port → Port) (m : Module) : (modPort p f m).flint = m.flint := rfl
@[simp] theorem modPort_motion (p : Nat) (f : Port → Port) (m : Module) : (modPort p f m).motion = m.motion := rfl
@[simp] theorem modPort_io (p : Nat) (f : Port → Port) (m : Module) : (modPort p f m).io = m.io := rfl
@[simp] theorem modPort_acq (p : Nat) (f : Port → Port) (m : Module) : (modPort p f m).acq = m.acq := rfl
@[simp] theorem modPort_time (p : Nat) (f : Port → Port) (m : Module) : (modPort p f m).time = m.time := rfl
@[simp] theorem modPort_cal (p : Nat) (f : Port → Port) (m : Module) : (modPort p f m).cal = m.cal := rfl
@[simp] theorem modPort_power (p : Nat) (f : Port → Port) (m : Module) : (modPort p f m).power = m.power := rfl
@[simp] theorem modPort_red (p : Nat) (f : Port → Port) (m : Module) : (modPort p f m).red = m.red := rfl
@[simp] theorem modPort_sec (p : Nat) (f : Port → Port) (m : Module) : (modPort p f m).sec = m.sec := rfl
@[simp] theorem modPort_nv (p : Nat) (f : Port → Port) (m : Module) : (modPort p f m).nv = m.nv := rfl
@[simp] theorem modPort_out (p : Nat) (f : Port → Port) (m : Module) : (modPort p f m).out = m.out := rfl
@[simp] theorem modPort_free (p : Nat) (f : Port → Port) (m : Module) : (modPort p f m).free = m.free := rfl
@[simp] theorem modWin_dict (w : Nat) (f : Win → Win) (m : Module) : (modWin w f m).dict = m.dict := rfl
@[simp] theorem modWin_funcs (w : Nat) (f : Win → Win) (m : Module) : (modWin w f m).funcs = m.funcs := rfl
@[simp] theorem modWin_bootRunning (w : Nat) (f : Win → Win) (m : Module) : (modWin w f m).bootRunning = m.bootRunning := rfl
@[simp] theorem modWin_tick (w : Nat) (f : Win → Win) (m : Module) : (modWin w f m).tick = m.tick := rfl
@[simp] theorem modWin_pi (w : Nat) (f : Win → Win) (m : Module) : (modWin w f m).pi = m.pi := rfl
@[simp] theorem modWin_odp (w : Nat) (f : Win → Win) (m : Module) : (modWin w f m).odp = m.odp := rfl
@[simp] theorem modWin_agate (w : Nat) (f : Win → Win) (m : Module) : (modWin w f m).agate = m.agate := rfl
@[simp] theorem modWin_loop (w : Nat) (f : Win → Win) (m : Module) : (modWin w f m).loop = m.loop := rfl
@[simp] theorem modWin_lanes (w : Nat) (f : Win → Win) (m : Module) : (modWin w f m).lanes = m.lanes := rfl
@[simp] theorem modWin_disp (w : Nat) (f : Win → Win) (m : Module) : (modWin w f m).disp = m.disp := rfl
@[simp] theorem modWin_slate (w : Nat) (f : Win → Win) (m : Module) : (modWin w f m).slate = m.slate := rfl
@[simp] theorem modWin_flint (w : Nat) (f : Win → Win) (m : Module) : (modWin w f m).flint = m.flint := rfl
@[simp] theorem modWin_motion (w : Nat) (f : Win → Win) (m : Module) : (modWin w f m).motion = m.motion := rfl
@[simp] theorem modWin_io (w : Nat) (f : Win → Win) (m : Module) : (modWin w f m).io = m.io := rfl
@[simp] theorem modWin_ports (w : Nat) (f : Win → Win) (m : Module) : (modWin w f m).ports = m.ports := rfl
@[simp] theorem modWin_time (w : Nat) (f : Win → Win) (m : Module) : (modWin w f m).time = m.time := rfl
@[simp] theorem modWin_cal (w : Nat) (f : Win → Win) (m : Module) : (modWin w f m).cal = m.cal := rfl
@[simp] theorem modWin_power (w : Nat) (f : Win → Win) (m : Module) : (modWin w f m).power = m.power := rfl
@[simp] theorem modWin_red (w : Nat) (f : Win → Win) (m : Module) : (modWin w f m).red = m.red := rfl
@[simp] theorem modWin_sec (w : Nat) (f : Win → Win) (m : Module) : (modWin w f m).sec = m.sec := rfl
@[simp] theorem modWin_nv (w : Nat) (f : Win → Win) (m : Module) : (modWin w f m).nv = m.nv := rfl
@[simp] theorem modWin_out (w : Nat) (f : Win → Win) (m : Module) : (modWin w f m).out = m.out := rfl
@[simp] theorem modWin_free (w : Nat) (f : Win → Win) (m : Module) : (modWin w f m).free = m.free := rfl
@[simp] theorem modSession_dict (i : Nat) (f : Session → Session) (m : Module) : (modSession i f m).dict = m.dict := rfl
@[simp] theorem modSession_funcs (i : Nat) (f : Session → Session) (m : Module) : (modSession i f m).funcs = m.funcs := rfl
@[simp] theorem modSession_bootRunning (i : Nat) (f : Session → Session) (m : Module) : (modSession i f m).bootRunning = m.bootRunning := rfl
@[simp] theorem modSession_tick (i : Nat) (f : Session → Session) (m : Module) : (modSession i f m).tick = m.tick := rfl
@[simp] theorem modSession_pi (i : Nat) (f : Session → Session) (m : Module) : (modSession i f m).pi = m.pi := rfl
@[simp] theorem modSession_agate (i : Nat) (f : Session → Session) (m : Module) : (modSession i f m).agate = m.agate := rfl
@[simp] theorem modSession_loop (i : Nat) (f : Session → Session) (m : Module) : (modSession i f m).loop = m.loop := rfl
@[simp] theorem modSession_lanes (i : Nat) (f : Session → Session) (m : Module) : (modSession i f m).lanes = m.lanes := rfl
@[simp] theorem modSession_disp (i : Nat) (f : Session → Session) (m : Module) : (modSession i f m).disp = m.disp := rfl
@[simp] theorem modSession_slate (i : Nat) (f : Session → Session) (m : Module) : (modSession i f m).slate = m.slate := rfl
@[simp] theorem modSession_flint (i : Nat) (f : Session → Session) (m : Module) : (modSession i f m).flint = m.flint := rfl
@[simp] theorem modSession_motion (i : Nat) (f : Session → Session) (m : Module) : (modSession i f m).motion = m.motion := rfl
@[simp] theorem modSession_io (i : Nat) (f : Session → Session) (m : Module) : (modSession i f m).io = m.io := rfl
@[simp] theorem modSession_ports (i : Nat) (f : Session → Session) (m : Module) : (modSession i f m).ports = m.ports := rfl
@[simp] theorem modSession_acq (i : Nat) (f : Session → Session) (m : Module) : (modSession i f m).acq = m.acq := rfl
@[simp] theorem modSession_time (i : Nat) (f : Session → Session) (m : Module) : (modSession i f m).time = m.time := rfl
@[simp] theorem modSession_cal (i : Nat) (f : Session → Session) (m : Module) : (modSession i f m).cal = m.cal := rfl
@[simp] theorem modSession_power (i : Nat) (f : Session → Session) (m : Module) : (modSession i f m).power = m.power := rfl
@[simp] theorem modSession_red (i : Nat) (f : Session → Session) (m : Module) : (modSession i f m).red = m.red := rfl
@[simp] theorem modSession_sec (i : Nat) (f : Session → Session) (m : Module) : (modSession i f m).sec = m.sec := rfl
@[simp] theorem modSession_nv (i : Nat) (f : Session → Session) (m : Module) : (modSession i f m).nv = m.nv := rfl
@[simp] theorem modSession_out (i : Nat) (f : Session → Session) (m : Module) : (modSession i f m).out = m.out := rfl
@[simp] theorem modSession_free (i : Nat) (f : Session → Session) (m : Module) : (modSession i f m).free = m.free := rfl
@[simp] theorem setStage_dict (st : ClkStage) (m : Module) : (setStage st m).dict = m.dict := rfl
@[simp] theorem setStage_funcs (st : ClkStage) (m : Module) : (setStage st m).funcs = m.funcs := rfl
@[simp] theorem setStage_bootRunning (st : ClkStage) (m : Module) : (setStage st m).bootRunning = m.bootRunning := rfl
@[simp] theorem setStage_tick (st : ClkStage) (m : Module) : (setStage st m).tick = m.tick := rfl
@[simp] theorem setStage_pi (st : ClkStage) (m : Module) : (setStage st m).pi = m.pi := rfl
@[simp] theorem setStage_odp (st : ClkStage) (m : Module) : (setStage st m).odp = m.odp := rfl
@[simp] theorem setStage_agate (st : ClkStage) (m : Module) : (setStage st m).agate = m.agate := rfl
@[simp] theorem setStage_loop (st : ClkStage) (m : Module) : (setStage st m).loop = m.loop := rfl
@[simp] theorem setStage_lanes (st : ClkStage) (m : Module) : (setStage st m).lanes = m.lanes := rfl
@[simp] theorem setStage_disp (st : ClkStage) (m : Module) : (setStage st m).disp = m.disp := rfl
@[simp] theorem setStage_slate (st : ClkStage) (m : Module) : (setStage st m).slate = m.slate := rfl
@[simp] theorem setStage_flint (st : ClkStage) (m : Module) : (setStage st m).flint = m.flint := rfl
@[simp] theorem setStage_motion (st : ClkStage) (m : Module) : (setStage st m).motion = m.motion := rfl
@[simp] theorem setStage_io (st : ClkStage) (m : Module) : (setStage st m).io = m.io := rfl
@[simp] theorem setStage_ports (st : ClkStage) (m : Module) : (setStage st m).ports = m.ports := rfl
@[simp] theorem setStage_acq (st : ClkStage) (m : Module) : (setStage st m).acq = m.acq := rfl
@[simp] theorem setStage_time (st : ClkStage) (m : Module) : (setStage st m).time = m.time := rfl
@[simp] theorem setStage_cal (st : ClkStage) (m : Module) : (setStage st m).cal = m.cal := rfl
@[simp] theorem setStage_red (st : ClkStage) (m : Module) : (setStage st m).red = m.red := rfl
@[simp] theorem setStage_sec (st : ClkStage) (m : Module) : (setStage st m).sec = m.sec := rfl
@[simp] theorem setStage_nv (st : ClkStage) (m : Module) : (setStage st m).nv = m.nv := rfl
@[simp] theorem setStage_out (st : ClkStage) (m : Module) : (setStage st m).out = m.out := rfl
@[simp] theorem setStage_free (st : ClkStage) (m : Module) : (setStage st m).free = m.free := rfl
@[simp] theorem setPeriod_dict (ps : Nat) (m : Module) : (setPeriod ps m).dict = m.dict := rfl
@[simp] theorem setPeriod_funcs (ps : Nat) (m : Module) : (setPeriod ps m).funcs = m.funcs := rfl
@[simp] theorem setPeriod_bootRunning (ps : Nat) (m : Module) : (setPeriod ps m).bootRunning = m.bootRunning := rfl
@[simp] theorem setPeriod_pi (ps : Nat) (m : Module) : (setPeriod ps m).pi = m.pi := rfl
@[simp] theorem setPeriod_odp (ps : Nat) (m : Module) : (setPeriod ps m).odp = m.odp := rfl
@[simp] theorem setPeriod_agate (ps : Nat) (m : Module) : (setPeriod ps m).agate = m.agate := rfl
@[simp] theorem setPeriod_loop (ps : Nat) (m : Module) : (setPeriod ps m).loop = m.loop := rfl
@[simp] theorem setPeriod_lanes (ps : Nat) (m : Module) : (setPeriod ps m).lanes = m.lanes := rfl
@[simp] theorem setPeriod_disp (ps : Nat) (m : Module) : (setPeriod ps m).disp = m.disp := rfl
@[simp] theorem setPeriod_slate (ps : Nat) (m : Module) : (setPeriod ps m).slate = m.slate := rfl
@[simp] theorem setPeriod_flint (ps : Nat) (m : Module) : (setPeriod ps m).flint = m.flint := rfl
@[simp] theorem setPeriod_motion (ps : Nat) (m : Module) : (setPeriod ps m).motion = m.motion := rfl
@[simp] theorem setPeriod_io (ps : Nat) (m : Module) : (setPeriod ps m).io = m.io := rfl
@[simp] theorem setPeriod_ports (ps : Nat) (m : Module) : (setPeriod ps m).ports = m.ports := rfl
@[simp] theorem setPeriod_acq (ps : Nat) (m : Module) : (setPeriod ps m).acq = m.acq := rfl
@[simp] theorem setPeriod_time (ps : Nat) (m : Module) : (setPeriod ps m).time = m.time := rfl
@[simp] theorem setPeriod_cal (ps : Nat) (m : Module) : (setPeriod ps m).cal = m.cal := rfl
@[simp] theorem setPeriod_power (ps : Nat) (m : Module) : (setPeriod ps m).power = m.power := rfl
@[simp] theorem setPeriod_red (ps : Nat) (m : Module) : (setPeriod ps m).red = m.red := rfl
@[simp] theorem setPeriod_sec (ps : Nat) (m : Module) : (setPeriod ps m).sec = m.sec := rfl
@[simp] theorem setPeriod_nv (ps : Nat) (m : Module) : (setPeriod ps m).nv = m.nv := rfl
@[simp] theorem setPeriod_out (ps : Nat) (m : Module) : (setPeriod ps m).out = m.out := rfl
@[simp] theorem setPeriod_free (ps : Nat) (m : Module) : (setPeriod ps m).free = m.free := rfl
@[simp] theorem setInsertion_dict (i : Insertion) (m : Module) : (setInsertion i m).dict = m.dict := rfl
@[simp] theorem setInsertion_funcs (i : Insertion) (m : Module) : (setInsertion i m).funcs = m.funcs := rfl
@[simp] theorem setInsertion_bootRunning (i : Insertion) (m : Module) : (setInsertion i m).bootRunning = m.bootRunning := rfl
@[simp] theorem setInsertion_tick (i : Insertion) (m : Module) : (setInsertion i m).tick = m.tick := rfl
@[simp] theorem setInsertion_pi (i : Insertion) (m : Module) : (setInsertion i m).pi = m.pi := rfl
@[simp] theorem setInsertion_odp (i : Insertion) (m : Module) : (setInsertion i m).odp = m.odp := rfl
@[simp] theorem setInsertion_agate (i : Insertion) (m : Module) : (setInsertion i m).agate = m.agate := rfl
@[simp] theorem setInsertion_loop (i : Insertion) (m : Module) : (setInsertion i m).loop = m.loop := rfl
@[simp] theorem setInsertion_lanes (i : Insertion) (m : Module) : (setInsertion i m).lanes = m.lanes := rfl
@[simp] theorem setInsertion_disp (i : Insertion) (m : Module) : (setInsertion i m).disp = m.disp := rfl
@[simp] theorem setInsertion_slate (i : Insertion) (m : Module) : (setInsertion i m).slate = m.slate := rfl
@[simp] theorem setInsertion_flint (i : Insertion) (m : Module) : (setInsertion i m).flint = m.flint := rfl
@[simp] theorem setInsertion_motion (i : Insertion) (m : Module) : (setInsertion i m).motion = m.motion := rfl
@[simp] theorem setInsertion_io (i : Insertion) (m : Module) : (setInsertion i m).io = m.io := rfl
@[simp] theorem setInsertion_ports (i : Insertion) (m : Module) : (setInsertion i m).ports = m.ports := rfl
@[simp] theorem setInsertion_acq (i : Insertion) (m : Module) : (setInsertion i m).acq = m.acq := rfl
@[simp] theorem setInsertion_time (i : Insertion) (m : Module) : (setInsertion i m).time = m.time := rfl
@[simp] theorem setInsertion_cal (i : Insertion) (m : Module) : (setInsertion i m).cal = m.cal := rfl
@[simp] theorem setInsertion_red (i : Insertion) (m : Module) : (setInsertion i m).red = m.red := rfl
@[simp] theorem setInsertion_sec (i : Insertion) (m : Module) : (setInsertion i m).sec = m.sec := rfl
@[simp] theorem setInsertion_nv (i : Insertion) (m : Module) : (setInsertion i m).nv = m.nv := rfl
@[simp] theorem setInsertion_out (i : Insertion) (m : Module) : (setInsertion i m).out = m.out := rfl
@[simp] theorem setInsertion_free (i : Insertion) (m : Module) : (setInsertion i m).free = m.free := rfl
@[simp] theorem setBank_dict (k : Nat) (b : Option Bank) (m : Module) : (setBank k b m).dict = m.dict := by unfold setBank; split <;> rfl
@[simp] theorem setBank_funcs (k : Nat) (b : Option Bank) (m : Module) : (setBank k b m).funcs = m.funcs := by unfold setBank; split <;> rfl
@[simp] theorem setBank_bootRunning (k : Nat) (b : Option Bank) (m : Module) : (setBank k b m).bootRunning = m.bootRunning := by unfold setBank; split <;> rfl
@[simp] theorem setBank_tick (k : Nat) (b : Option Bank) (m : Module) : (setBank k b m).tick = m.tick := by unfold setBank; split <;> rfl
@[simp] theorem setBank_pi (k : Nat) (b : Option Bank) (m : Module) : (setBank k b m).pi = m.pi := by unfold setBank; split <;> rfl
@[simp] theorem setBank_odp (k : Nat) (b : Option Bank) (m : Module) : (setBank k b m).odp = m.odp := by unfold setBank; split <;> rfl
@[simp] theorem setBank_agate (k : Nat) (b : Option Bank) (m : Module) : (setBank k b m).agate = m.agate := by unfold setBank; split <;> rfl
@[simp] theorem setBank_loop (k : Nat) (b : Option Bank) (m : Module) : (setBank k b m).loop = m.loop := by unfold setBank; split <;> rfl
@[simp] theorem setBank_lanes (k : Nat) (b : Option Bank) (m : Module) : (setBank k b m).lanes = m.lanes := by unfold setBank; split <;> rfl
@[simp] theorem setBank_disp (k : Nat) (b : Option Bank) (m : Module) : (setBank k b m).disp = m.disp := by unfold setBank; split <;> rfl
@[simp] theorem setBank_slate (k : Nat) (b : Option Bank) (m : Module) : (setBank k b m).slate = m.slate := by unfold setBank; split <;> rfl
@[simp] theorem setBank_flint (k : Nat) (b : Option Bank) (m : Module) : (setBank k b m).flint = m.flint := by unfold setBank; split <;> rfl
@[simp] theorem setBank_motion (k : Nat) (b : Option Bank) (m : Module) : (setBank k b m).motion = m.motion := by unfold setBank; split <;> rfl
@[simp] theorem setBank_io (k : Nat) (b : Option Bank) (m : Module) : (setBank k b m).io = m.io := by unfold setBank; split <;> rfl
@[simp] theorem setBank_ports (k : Nat) (b : Option Bank) (m : Module) : (setBank k b m).ports = m.ports := by unfold setBank; split <;> rfl
@[simp] theorem setBank_acq (k : Nat) (b : Option Bank) (m : Module) : (setBank k b m).acq = m.acq := by unfold setBank; split <;> rfl
@[simp] theorem setBank_time (k : Nat) (b : Option Bank) (m : Module) : (setBank k b m).time = m.time := by unfold setBank; split <;> rfl
@[simp] theorem setBank_cal (k : Nat) (b : Option Bank) (m : Module) : (setBank k b m).cal = m.cal := by unfold setBank; split <;> rfl
@[simp] theorem setBank_power (k : Nat) (b : Option Bank) (m : Module) : (setBank k b m).power = m.power := by unfold setBank; split <;> rfl
@[simp] theorem setBank_red (k : Nat) (b : Option Bank) (m : Module) : (setBank k b m).red = m.red := by unfold setBank; split <;> rfl
@[simp] theorem setBank_sec (k : Nat) (b : Option Bank) (m : Module) : (setBank k b m).sec = m.sec := by unfold setBank; split <;> rfl
@[simp] theorem setBank_out (k : Nat) (b : Option Bank) (m : Module) : (setBank k b m).out = m.out := by unfold setBank; split <;> rfl
@[simp] theorem setBank_free (k : Nat) (b : Option Bank) (m : Module) : (setBank k b m).free = m.free := by unfold setBank; split <;> rfl

end Sys2Proof.Machine
end

