-- ==== Sys2Proof/Laws/Record.lean ====
section
/-! SUPPORT. Recording events changes Agate's queue and counters, and a pair's event frames, and nothing else. -/

namespace Sys2Proof.Machine

@[simp] theorem stat_setStat_same (k v : Nat) (m : Module) : (m.setStat k v).stat k = v := Sparse.get_set_same _ _ _ _

theorem stat_setStat_ne {k j : Nat} (v : Nat) (m : Module) (h : j ≠ k) : (m.setStat k v).stat j = m.stat j :=
  Sparse.get_set_ne _ _ _ h

theorem stat_setStat (k j v : Nat) (m : Module) : (m.setStat k v).stat j = if j = k then v else m.stat j :=
  Sparse.get_set _ _ _ _ _

@[simp] theorem cfg_setCfg_same (k v : Nat) (m : Module) : (m.setCfg k v).cfg k = v := Sparse.get_set_same _ _ _ _

theorem cfg_setCfg_ne {k j : Nat} (v : Nat) (m : Module) (h : j ≠ k) : (m.setCfg k v).cfg j = m.cfg j :=
  Sparse.get_set_ne _ _ _ h

@[simp] theorem shad_setShad_same (k v : Nat) (m : Module) : (m.setShad k v).shad k = v := Sparse.get_set_same _ _ _ _

theorem shad_setShad_ne {k j : Nat} (v : Nat) (m : Module) (h : j ≠ k) : (m.setShad k v).shad j = m.shad j :=
  Sparse.get_set_ne _ _ _ h

/-- Counting one entry leaves every other alone. -/
theorem stat_bump_ne {k j : Nat} (m : Module) (h : j ≠ k) : (m.bump k).stat j = m.stat j :=
  Sparse.get_set_ne _ _ _ h

theorem stat_bump_same (k : Nat) (m : Module) : (m.bump k).stat k = min (m.stat k + 1) (maxOf k) :=
  Sparse.get_set_same _ _ _ _

theorem recordsOnly_refl (m : Module) : recordsOnly m m :=
  ⟨⟨m.agate.raised, m.agate.queue, m.agate.nextSeq, m.agate.windows, m.agate.dropRun, m.red.recBytes, m.red.txSeq, m.red.replay,
    m.out, m.dict.stat, rfl⟩, List.prefix_rfl, fun _ _ => rfl⟩

theorem recordsOnly_trans {a b c : Module} (h : recordsOnly a b) (g : recordsOnly b c) : recordsOnly a c := by
  obtain ⟨⟨ev, q, sq, ws, dr, rb, ts, rp, o, st, rfl⟩, ho, hs⟩ := h
  obtain ⟨⟨ev', q', sq', ws', dr', rb', ts', rp', o', st', rfl⟩, ho', hs'⟩ := g
  exact ⟨⟨ev', q', sq', ws', dr', rb', ts', rp', o', st', rfl⟩, ho.trans ho', fun k hk => (hs' k hk).trans (hs k hk)⟩

/-- A change of the record queue's fields. -/
theorem recordsOnly_agate (m : Module) (ev : List Event) (q : List Rec) (n : Nat) (ws : List RepWin) (dr : Option (Event × Nat)) :
    recordsOnly m { m with agate := { m.agate with raised := ev, queue := q, nextSeq := n, windows := ws, dropRun := dr } } :=
  ⟨⟨ev, q, n, ws, dr, m.red.recBytes, m.red.txSeq, m.red.replay, m.out, m.dict.stat, rfl⟩, List.prefix_rfl, fun _ _ => rfl⟩

/-- A change of one of Agate's counters. -/
theorem recordsOnly_setStat (m : Module) {k : Nat} (v : Nat) (h : k ∈ recordKeys) : recordsOnly m (m.setStat k v) :=
  ⟨⟨m.agate.raised, m.agate.queue, m.agate.nextSeq, m.agate.windows, m.agate.dropRun, m.red.recBytes, m.red.txSeq, m.red.replay,
    m.out, (m.setStat k v).dict.stat, rfl⟩, List.prefix_rfl, fun _ hj => stat_setStat_ne v m fun e => hj (e ▸ h)⟩

theorem recordsOnly_bump (m : Module) {k : Nat} (h : k ∈ recordKeys) : recordsOnly m (m.bump k) := recordsOnly_setStat m _ h

theorem recordsOnly_peak (m : Module) {k : Nat} (v : Nat) (h : k ∈ recordKeys) : recordsOnly m (m.peak k v) := by
  unfold Module.peak
  split
  · exact recordsOnly_setStat m v h
  · exact recordsOnly_refl m

theorem pushRec_records (rep : Nat) (e : Event) (m : Module) : recordsOnly m (pushRec rep e m) :=
  recordsOnly_trans (recordsOnly_agate m m.agate.raised _ _ m.agate.windows m.agate.dropRun)
    (recordsOnly_peak _ _ (by simp [recordKeys]))

theorem flushDrops_records (m : Module) : recordsOnly m (flushDrops m) := by
  unfold flushDrops
  split
  · split
    · exact recordsOnly_trans (recordsOnly_agate m m.agate.raised m.agate.queue m.agate.nextSeq m.agate.windows none) (pushRec_records _ _ _)
    · exact recordsOnly_refl m
  · exact recordsOnly_refl m

theorem dropEvent_records (e : Event) (m : Module) : recordsOnly m (dropEvent e m) :=
  recordsOnly_trans (recordsOnly_agate m m.agate.raised m.agate.queue m.agate.nextSeq m.agate.windows _)
    (recordsOnly_bump _ (by simp [recordKeys]))

theorem enqueue_records (rep : Nat) (e : Event) (m : Module) : recordsOnly m (enqueue rep e m) := by
  unfold enqueue
  simp only
  split
  · exact recordsOnly_trans (flushDrops_records m) (pushRec_records _ _ _)
  · exact recordsOnly_trans (flushDrops_records m) (dropEvent_records _ _)

theorem closeWindow_records (w : RepWin) (m : Module) : recordsOnly m (closeWindow w m) := by
  unfold closeWindow
  simp only
  split
  · exact recordsOnly_agate m m.agate.raised m.agate.queue m.agate.nextSeq _ m.agate.dropRun
  · exact recordsOnly_trans (recordsOnly_agate m m.agate.raised m.agate.queue m.agate.nextSeq _ m.agate.dropRun) (enqueue_records _ _ _)

theorem openRecord_records (e : Event) (m : Module) : recordsOnly m (openRecord e m) := by
  unfold openRecord
  simp only
  split
  · exact enqueue_records 0 e m
  · split
    · exact recordsOnly_trans (enqueue_records 0 e m)
        (recordsOnly_agate (enqueue 0 e m) (enqueue 0 e m).agate.raised (enqueue 0 e m).agate.queue (enqueue 0 e m).agate.nextSeq _ (enqueue 0 e m).agate.dropRun)
    · exact recordsOnly_trans (enqueue_records 0 e m) (recordsOnly_bump _ (by simp [recordKeys]))

theorem admitEvent_records (e : Event) (m : Module) : recordsOnly m (admitEvent e m) := by
  unfold admitEvent
  split
  · exact openRecord_records e m
  · split
    · exact recordsOnly_trans (recordsOnly_agate m m.agate.raised m.agate.queue m.agate.nextSeq _ m.agate.dropRun)
        (recordsOnly_bump _ (by simp [recordKeys]))
    · exact recordsOnly_trans (closeWindow_records _ m) (openRecord_records e _)

theorem sendItpel_records (epoch : Nat) (b : ItBody) (m : Module) : recordsOnly m (sendItpel epoch b m) := by
  unfold sendItpel
  split
  · exact ⟨⟨m.agate.raised, m.agate.queue, m.agate.nextSeq, m.agate.windows, m.agate.dropRun, m.red.recBytes, _, _, _, m.dict.stat, rfl⟩,
      List.prefix_append _ _, fun _ _ => rfl⟩
  · exact recordsOnly_refl m

theorem noteRaised_records (e : Event) (m : Module) : recordsOnly m (noteRaised e m) := by
  unfold noteRaised
  split
  · split
    · exact ⟨⟨m.agate.raised, m.agate.queue, m.agate.nextSeq, m.agate.windows, m.agate.dropRun, _, m.red.txSeq, m.red.replay, m.out,
        m.dict.stat, rfl⟩, List.prefix_rfl, fun _ _ => rfl⟩
    · exact recordsOnly_refl m
  · exact recordsOnly_refl m

theorem takeEvent_records (e : Event) (m : Module) : recordsOnly m (takeEvent e m) := by
  unfold takeEvent
  simp only
  split
  · split
    · exact recordsOnly_trans (noteRaised_records e m) (sendItpel_records _ _ _)
    · exact noteRaised_records e m
  · exact recordsOnly_trans (noteRaised_records e m) (admitEvent_records e _)

/-- Admitting the raised events changes the recording alone. -/
theorem settle_records (m : Module) : recordsOnly m (settle m) := by
  have fold : ∀ (l : List Event) (x : Module), recordsOnly m x → recordsOnly m (l.foldl (fun s a => takeEvent a s) x) := by
    intro l
    induction l with
    | nil => exact fun x h => h
    | cons e l ih => exact fun x h => ih _ (recordsOnly_trans h (takeEvent_records e x))
  exact fold _ _ (recordsOnly_agate m [] m.agate.queue m.agate.nextSeq m.agate.windows m.agate.dropRun)

/-- With nothing raised, admitting events does nothing. -/
theorem settle_quiet {m : Module} (h : m.agate.raised = []) : settle m = m := by
  unfold settle
  rw [h]
  show { m with agate := { m.agate with raised := [] } } = m
  rw [← h]

/-- Raising an event changes the recording alone. -/
theorem raiseAt_records (t : T80) (src code fl : Nat) (b : List Byte) (m : Module) : recordsOnly m (raiseAt t src code fl b m) :=
  recordsOnly_agate m _ m.agate.queue m.agate.nextSeq m.agate.windows m.agate.dropRun

theorem raise_records (src code : Nat) (b : List Byte) (m : Module) : recordsOnly m (raise src code b m) := raiseAt_records _ _ _ _ _ _

theorem post_records (src code : Nat) (b : List Byte) (m : Module) : recordsOnly m (post src code b m) := raiseAt_records _ _ _ _ _ _

/-! ### Two modules that differ in recording alone agree, field by field -/

theorem recordsOnly.funcs {m m' : Module} (h : recordsOnly m m') : m'.funcs = m.funcs := by
  obtain ⟨⟨_, _, _, _, _, _, _, _, _, _, e⟩, _, _⟩ := h; rw [e]
theorem recordsOnly.bootRunning {m m' : Module} (h : recordsOnly m m') : m'.bootRunning = m.bootRunning := by
  obtain ⟨⟨_, _, _, _, _, _, _, _, _, _, e⟩, _, _⟩ := h; rw [e]
theorem recordsOnly.tick {m m' : Module} (h : recordsOnly m m') : m'.tick = m.tick := by
  obtain ⟨⟨_, _, _, _, _, _, _, _, _, _, e⟩, _, _⟩ := h; rw [e]
theorem recordsOnly.pi {m m' : Module} (h : recordsOnly m m') : m'.pi = m.pi := by
  obtain ⟨⟨_, _, _, _, _, _, _, _, _, _, e⟩, _, _⟩ := h; rw [e]
theorem recordsOnly.odp {m m' : Module} (h : recordsOnly m m') : m'.odp = m.odp := by
  obtain ⟨⟨_, _, _, _, _, _, _, _, _, _, e⟩, _, _⟩ := h; rw [e]
theorem recordsOnly.loop {m m' : Module} (h : recordsOnly m m') : m'.loop = m.loop := by
  obtain ⟨⟨_, _, _, _, _, _, _, _, _, _, e⟩, _, _⟩ := h; rw [e]
theorem recordsOnly.lanes {m m' : Module} (h : recordsOnly m m') : m'.lanes = m.lanes := by
  obtain ⟨⟨_, _, _, _, _, _, _, _, _, _, e⟩, _, _⟩ := h; rw [e]
theorem recordsOnly.disp {m m' : Module} (h : recordsOnly m m') : m'.disp = m.disp := by
  obtain ⟨⟨_, _, _, _, _, _, _, _, _, _, e⟩, _, _⟩ := h; rw [e]
theorem recordsOnly.slate {m m' : Module} (h : recordsOnly m m') : m'.slate = m.slate := by
  obtain ⟨⟨_, _, _, _, _, _, _, _, _, _, e⟩, _, _⟩ := h; rw [e]
theorem recordsOnly.flint {m m' : Module} (h : recordsOnly m m') : m'.flint = m.flint := by
  obtain ⟨⟨_, _, _, _, _, _, _, _, _, _, e⟩, _, _⟩ := h; rw [e]
theorem recordsOnly.motion {m m' : Module} (h : recordsOnly m m') : m'.motion = m.motion := by
  obtain ⟨⟨_, _, _, _, _, _, _, _, _, _, e⟩, _, _⟩ := h; rw [e]
theorem recordsOnly.io {m m' : Module} (h : recordsOnly m m') : m'.io = m.io := by
  obtain ⟨⟨_, _, _, _, _, _, _, _, _, _, e⟩, _, _⟩ := h; rw [e]
theorem recordsOnly.ports {m m' : Module} (h : recordsOnly m m') : m'.ports = m.ports := by
  obtain ⟨⟨_, _, _, _, _, _, _, _, _, _, e⟩, _, _⟩ := h; rw [e]
theorem recordsOnly.acq {m m' : Module} (h : recordsOnly m m') : m'.acq = m.acq := by
  obtain ⟨⟨_, _, _, _, _, _, _, _, _, _, e⟩, _, _⟩ := h; rw [e]
theorem recordsOnly.time {m m' : Module} (h : recordsOnly m m') : m'.time = m.time := by
  obtain ⟨⟨_, _, _, _, _, _, _, _, _, _, e⟩, _, _⟩ := h; rw [e]
theorem recordsOnly.cal {m m' : Module} (h : recordsOnly m m') : m'.cal = m.cal := by
  obtain ⟨⟨_, _, _, _, _, _, _, _, _, _, e⟩, _, _⟩ := h; rw [e]
theorem recordsOnly.power {m m' : Module} (h : recordsOnly m m') : m'.power = m.power := by
  obtain ⟨⟨_, _, _, _, _, _, _, _, _, _, e⟩, _, _⟩ := h; rw [e]
theorem recordsOnly.sec {m m' : Module} (h : recordsOnly m m') : m'.sec = m.sec := by
  obtain ⟨⟨_, _, _, _, _, _, _, _, _, _, e⟩, _, _⟩ := h; rw [e]
theorem recordsOnly.nv {m m' : Module} (h : recordsOnly m m') : m'.nv = m.nv := by
  obtain ⟨⟨_, _, _, _, _, _, _, _, _, _, e⟩, _, _⟩ := h; rw [e]
theorem recordsOnly.free {m m' : Module} (h : recordsOnly m m') : m'.free = m.free := by
  obtain ⟨⟨_, _, _, _, _, _, _, _, _, _, e⟩, _, _⟩ := h; rw [e]
theorem recordsOnly.live {m m' : Module} (h : recordsOnly m m') : m'.dict.live = m.dict.live := by
  obtain ⟨⟨_, _, _, _, _, _, _, _, _, _, e⟩, _, _⟩ := h; rw [e]
theorem recordsOnly.shadow {m m' : Module} (h : recordsOnly m m') : m'.dict.shadow = m.dict.shadow := by
  obtain ⟨⟨_, _, _, _, _, _, _, _, _, _, e⟩, _, _⟩ := h; rw [e]
theorem recordsOnly.liveB {m m' : Module} (h : recordsOnly m m') : m'.dict.liveB = m.dict.liveB := by
  obtain ⟨⟨_, _, _, _, _, _, _, _, _, _, e⟩, _, _⟩ := h; rw [e]
theorem recordsOnly.shadowB {m m' : Module} (h : recordsOnly m m') : m'.dict.shadowB = m.dict.shadowB := by
  obtain ⟨⟨_, _, _, _, _, _, _, _, _, _, e⟩, _, _⟩ := h; rw [e]
theorem recordsOnly.statB {m m' : Module} (h : recordsOnly m m') : m'.dict.statB = m.dict.statB := by
  obtain ⟨⟨_, _, _, _, _, _, _, _, _, _, e⟩, _, _⟩ := h; rw [e]

/-! ### What admitting events leaves alone, field by field -/

@[simp] theorem settle_funcs (m : Module) : (settle m).funcs = m.funcs := by
  obtain ⟨⟨_, _, _, _, _, _, _, _, _, _, e⟩, _, _⟩ := settle_records m; rw [e]
@[simp] theorem settle_bootRunning (m : Module) : (settle m).bootRunning = m.bootRunning := by
  obtain ⟨⟨_, _, _, _, _, _, _, _, _, _, e⟩, _, _⟩ := settle_records m; rw [e]
@[simp] theorem settle_tick (m : Module) : (settle m).tick = m.tick := by
  obtain ⟨⟨_, _, _, _, _, _, _, _, _, _, e⟩, _, _⟩ := settle_records m; rw [e]
@[simp] theorem settle_pi (m : Module) : (settle m).pi = m.pi := by
  obtain ⟨⟨_, _, _, _, _, _, _, _, _, _, e⟩, _, _⟩ := settle_records m; rw [e]
@[simp] theorem settle_odp (m : Module) : (settle m).odp = m.odp := by
  obtain ⟨⟨_, _, _, _, _, _, _, _, _, _, e⟩, _, _⟩ := settle_records m; rw [e]
@[simp] theorem settle_loop (m : Module) : (settle m).loop = m.loop := by
  obtain ⟨⟨_, _, _, _, _, _, _, _, _, _, e⟩, _, _⟩ := settle_records m; rw [e]
@[simp] theorem settle_lanes (m : Module) : (settle m).lanes = m.lanes := by
  obtain ⟨⟨_, _, _, _, _, _, _, _, _, _, e⟩, _, _⟩ := settle_records m; rw [e]
@[simp] theorem settle_disp (m : Module) : (settle m).disp = m.disp := by
  obtain ⟨⟨_, _, _, _, _, _, _, _, _, _, e⟩, _, _⟩ := settle_records m; rw [e]
@[simp] theorem settle_slate (m : Module) : (settle m).slate = m.slate := by
  obtain ⟨⟨_, _, _, _, _, _, _, _, _, _, e⟩, _, _⟩ := settle_records m; rw [e]
@[simp] theorem settle_flint (m : Module) : (settle m).flint = m.flint := by
  obtain ⟨⟨_, _, _, _, _, _, _, _, _, _, e⟩, _, _⟩ := settle_records m; rw [e]
@[simp] theorem settle_motion (m : Module) : (settle m).motion = m.motion := by
  obtain ⟨⟨_, _, _, _, _, _, _, _, _, _, e⟩, _, _⟩ := settle_records m; rw [e]
@[simp] theorem settle_io (m : Module) : (settle m).io = m.io := by
  obtain ⟨⟨_, _, _, _, _, _, _, _, _, _, e⟩, _, _⟩ := settle_records m; rw [e]
@[simp] theorem settle_ports (m : Module) : (settle m).ports = m.ports := by
  obtain ⟨⟨_, _, _, _, _, _, _, _, _, _, e⟩, _, _⟩ := settle_records m; rw [e]
@[simp] theorem settle_acq (m : Module) : (settle m).acq = m.acq := by
  obtain ⟨⟨_, _, _, _, _, _, _, _, _, _, e⟩, _, _⟩ := settle_records m; rw [e]
@[simp] theorem settle_time (m : Module) : (settle m).time = m.time := by
  obtain ⟨⟨_, _, _, _, _, _, _, _, _, _, e⟩, _, _⟩ := settle_records m; rw [e]
@[simp] theorem settle_cal (m : Module) : (settle m).cal = m.cal := by
  obtain ⟨⟨_, _, _, _, _, _, _, _, _, _, e⟩, _, _⟩ := settle_records m; rw [e]
@[simp] theorem settle_power (m : Module) : (settle m).power = m.power := by
  obtain ⟨⟨_, _, _, _, _, _, _, _, _, _, e⟩, _, _⟩ := settle_records m; rw [e]
@[simp] theorem settle_sec (m : Module) : (settle m).sec = m.sec := by
  obtain ⟨⟨_, _, _, _, _, _, _, _, _, _, e⟩, _, _⟩ := settle_records m; rw [e]
@[simp] theorem settle_nv (m : Module) : (settle m).nv = m.nv := by
  obtain ⟨⟨_, _, _, _, _, _, _, _, _, _, e⟩, _, _⟩ := settle_records m; rw [e]
@[simp] theorem settle_free (m : Module) : (settle m).free = m.free := by
  obtain ⟨⟨_, _, _, _, _, _, _, _, _, _, e⟩, _, _⟩ := settle_records m; rw [e]
@[simp] theorem settle_dict_live (m : Module) : (settle m).dict.live = m.dict.live := by
  obtain ⟨⟨_, _, _, _, _, _, _, _, _, _, e⟩, _, _⟩ := settle_records m; rw [e]
@[simp] theorem settle_dict_shadow (m : Module) : (settle m).dict.shadow = m.dict.shadow := by
  obtain ⟨⟨_, _, _, _, _, _, _, _, _, _, e⟩, _, _⟩ := settle_records m; rw [e]
@[simp] theorem settle_dict_liveB (m : Module) : (settle m).dict.liveB = m.dict.liveB := by
  obtain ⟨⟨_, _, _, _, _, _, _, _, _, _, e⟩, _, _⟩ := settle_records m; rw [e]
@[simp] theorem settle_dict_shadowB (m : Module) : (settle m).dict.shadowB = m.dict.shadowB := by
  obtain ⟨⟨_, _, _, _, _, _, _, _, _, _, e⟩, _, _⟩ := settle_records m; rw [e]
@[simp] theorem settle_dict_statB (m : Module) : (settle m).dict.statB = m.dict.statB := by
  obtain ⟨⟨_, _, _, _, _, _, _, _, _, _, e⟩, _, _⟩ := settle_records m; rw [e]
theorem settle_stat (m : Module) {k : Nat} (h : k ∉ recordKeys) : (settle m).stat k = m.stat k := (settle_records m).2.2 k h
@[simp] theorem settle_cfg (m : Module) (k : Nat) : (settle m).cfg k = m.cfg k := by unfold Module.cfg; rw [settle_dict_live]
@[simp] theorem settle_shad (m : Module) (k : Nat) : (settle m).shad k = m.shad k := by unfold Module.shad; rw [settle_dict_shadow]
@[simp] theorem settle_cfgB (m : Module) (k : Nat) : (settle m).cfgB k = m.cfgB k := by unfold Module.cfgB; rw [settle_dict_liveB]
@[simp] theorem settle_red_st (m : Module) : (settle m).red.st = m.red.st := by
  obtain ⟨⟨_, _, _, _, _, _, _, _, _, _, e⟩, _, _⟩ := settle_records m; rw [e]
@[simp] theorem settle_red_hold (m : Module) : (settle m).red.hold = m.red.hold := by
  obtain ⟨⟨_, _, _, _, _, _, _, _, _, _, e⟩, _, _⟩ := settle_records m; rw [e]
@[simp] theorem settle_red_driving (m : Module) : (settle m).red.driving = m.red.driving := by
  obtain ⟨⟨_, _, _, _, _, _, _, _, _, _, e⟩, _, _⟩ := settle_records m; rw [e]
@[simp] theorem settle_red_link (m : Module) : (settle m).red.link = m.red.link := by
  obtain ⟨⟨_, _, _, _, _, _, _, _, _, _, e⟩, _, _⟩ := settle_records m; rw [e]
@[simp] theorem settle_red_delay (m : Module) : (settle m).red.delay = m.red.delay := by
  obtain ⟨⟨_, _, _, _, _, _, _, _, _, _, e⟩, _, _⟩ := settle_records m; rw [e]
@[simp] theorem settle_red_partner (m : Module) : (settle m).red.partner = m.red.partner := by
  obtain ⟨⟨_, _, _, _, _, _, _, _, _, _, e⟩, _, _⟩ := settle_records m; rw [e]
@[simp] theorem settle_red_partnerState (m : Module) : (settle m).red.partnerState = m.red.partnerState := by
  obtain ⟨⟨_, _, _, _, _, _, _, _, _, _, e⟩, _, _⟩ := settle_records m; rw [e]
@[simp] theorem settle_red_lines (m : Module) : (settle m).red.lines = m.red.lines := by
  obtain ⟨⟨_, _, _, _, _, _, _, _, _, _, e⟩, _, _⟩ := settle_records m; rw [e]
@[simp] theorem settle_red_pwrOk (m : Module) : (settle m).red.pwrOk = m.red.pwrOk := by
  obtain ⟨⟨_, _, _, _, _, _, _, _, _, _, e⟩, _, _⟩ := settle_records m; rw [e]
@[simp] theorem settle_red_reason (m : Module) : (settle m).red.reason = m.red.reason := by
  obtain ⟨⟨_, _, _, _, _, _, _, _, _, _, e⟩, _, _⟩ := settle_records m; rw [e]
@[simp] theorem settle_red_wiring (m : Module) : (settle m).red.wiring = m.red.wiring := by
  obtain ⟨⟨_, _, _, _, _, _, _, _, _, _, e⟩, _, _⟩ := settle_records m; rw [e]
@[simp] theorem settle_red_verifyFails (m : Module) : (settle m).red.verifyFails = m.red.verifyFails := by
  obtain ⟨⟨_, _, _, _, _, _, _, _, _, _, e⟩, _, _⟩ := settle_records m; rw [e]
@[simp] theorem settle_red_retryDue (m : Module) : (settle m).red.retryDue = m.red.retryDue := by
  obtain ⟨⟨_, _, _, _, _, _, _, _, _, _, e⟩, _, _⟩ := settle_records m; rw [e]
@[simp] theorem settle_red_verifyCount (m : Module) : (settle m).red.verifyCount = m.red.verifyCount := by
  obtain ⟨⟨_, _, _, _, _, _, _, _, _, _, e⟩, _, _⟩ := settle_records m; rw [e]
@[simp] theorem settle_red_capture (m : Module) : (settle m).red.capture = m.red.capture := by
  obtain ⟨⟨_, _, _, _, _, _, _, _, _, _, e⟩, _, _⟩ := settle_records m; rw [e]
@[simp] theorem settle_red_slotDone (m : Module) : (settle m).red.slotDone = m.red.slotDone := by
  obtain ⟨⟨_, _, _, _, _, _, _, _, _, _, e⟩, _, _⟩ := settle_records m; rw [e]
@[simp] theorem settle_red_joined (m : Module) : (settle m).red.joined = m.red.joined := by
  obtain ⟨⟨_, _, _, _, _, _, _, _, _, _, e⟩, _, _⟩ := settle_records m; rw [e]
@[simp] theorem settle_red_phase (m : Module) : (settle m).red.phase = m.red.phase := by
  obtain ⟨⟨_, _, _, _, _, _, _, _, _, _, e⟩, _, _⟩ := settle_records m; rw [e]
@[simp] theorem settle_red_computing (m : Module) : (settle m).red.computing = m.red.computing := by
  obtain ⟨⟨_, _, _, _, _, _, _, _, _, _, e⟩, _, _⟩ := settle_records m; rw [e]
@[simp] theorem settle_red_rxSeq (m : Module) : (settle m).red.rxSeq = m.red.rxSeq := by
  obtain ⟨⟨_, _, _, _, _, _, _, _, _, _, e⟩, _, _⟩ := settle_records m; rw [e]
@[simp] theorem settle_red_mirrors (m : Module) : (settle m).red.mirrors = m.red.mirrors := by
  obtain ⟨⟨_, _, _, _, _, _, _, _, _, _, e⟩, _, _⟩ := settle_records m; rw [e]
@[simp] theorem settle_red_changes (m : Module) : (settle m).red.changes = m.red.changes := by
  obtain ⟨⟨_, _, _, _, _, _, _, _, _, _, e⟩, _, _⟩ := settle_records m; rw [e]
@[simp] theorem settle_red_changeNo (m : Module) : (settle m).red.changeNo = m.red.changeNo := by
  obtain ⟨⟨_, _, _, _, _, _, _, _, _, _, e⟩, _, _⟩ := settle_records m; rw [e]
@[simp] theorem settle_red_tickEpoch (m : Module) : (settle m).red.tickEpoch = m.red.tickEpoch := by
  obtain ⟨⟨_, _, _, _, _, _, _, _, _, _, e⟩, _, _⟩ := settle_records m; rw [e]
@[simp] theorem settle_red_waiting (m : Module) : (settle m).red.waiting = m.red.waiting := by
  obtain ⟨⟨_, _, _, _, _, _, _, _, _, _, e⟩, _, _⟩ := settle_records m; rw [e]
@[simp] theorem settle_red_decisions (m : Module) : (settle m).red.decisions = m.red.decisions := by
  obtain ⟨⟨_, _, _, _, _, _, _, _, _, _, e⟩, _, _⟩ := settle_records m; rw [e]
@[simp] theorem settle_red_digests (m : Module) : (settle m).red.digests = m.red.digests := by
  obtain ⟨⟨_, _, _, _, _, _, _, _, _, _, e⟩, _, _⟩ := settle_records m; rw [e]
@[simp] theorem settle_red_recs (m : Module) : (settle m).red.recs = m.red.recs := by
  obtain ⟨⟨_, _, _, _, _, _, _, _, _, _, e⟩, _, _⟩ := settle_records m; rw [e]
@[simp] theorem settle_red_forwards (m : Module) : (settle m).red.forwards = m.red.forwards := by
  obtain ⟨⟨_, _, _, _, _, _, _, _, _, _, e⟩, _, _⟩ := settle_records m; rw [e]
@[simp] theorem settle_red_releaseDue (m : Module) : (settle m).red.releaseDue = m.red.releaseDue := by
  obtain ⟨⟨_, _, _, _, _, _, _, _, _, _, e⟩, _, _⟩ := settle_records m; rw [e]
@[simp] theorem settle_red_dogExpired (m : Module) : (settle m).red.dogExpired = m.red.dogExpired := by
  obtain ⟨⟨_, _, _, _, _, _, _, _, _, _, e⟩, _, _⟩ := settle_records m; rw [e]
@[simp] theorem settle_red_claimWait (m : Module) : (settle m).red.claimWait = m.red.claimWait := by
  obtain ⟨⟨_, _, _, _, _, _, _, _, _, _, e⟩, _, _⟩ := settle_records m; rw [e]
@[simp] theorem settle_red_takeover (m : Module) : (settle m).red.takeover = m.red.takeover := by
  obtain ⟨⟨_, _, _, _, _, _, _, _, _, _, e⟩, _, _⟩ := settle_records m; rw [e]
@[simp] theorem settle_red_owed (m : Module) : (settle m).red.owed = m.red.owed := by
  obtain ⟨⟨_, _, _, _, _, _, _, _, _, _, e⟩, _, _⟩ := settle_records m; rw [e]
@[simp] theorem settle_red_lastDone (m : Module) : (settle m).red.lastDone = m.red.lastDone := by
  obtain ⟨⟨_, _, _, _, _, _, _, _, _, _, e⟩, _, _⟩ := settle_records m; rw [e]
@[simp] theorem settle_red_lag (m : Module) : (settle m).red.lag = m.red.lag := by
  obtain ⟨⟨_, _, _, _, _, _, _, _, _, _, e⟩, _, _⟩ := settle_records m; rw [e]
@[simp] theorem settle_red_suspended (m : Module) : (settle m).red.suspended = m.red.suspended := by
  obtain ⟨⟨_, _, _, _, _, _, _, _, _, _, e⟩, _, _⟩ := settle_records m; rw [e]
@[simp] theorem settle_red_fromHold (m : Module) : (settle m).red.fromHold = m.red.fromHold := by
  obtain ⟨⟨_, _, _, _, _, _, _, _, _, _, e⟩, _, _⟩ := settle_records m; rw [e]
@[simp] theorem settle_red_strobeHeld (m : Module) : (settle m).red.strobeHeld = m.red.strobeHeld := by
  obtain ⟨⟨_, _, _, _, _, _, _, _, _, _, e⟩, _, _⟩ := settle_records m; rw [e]
end Sys2Proof.Machine
end

