-- ==== Sys2Proof/Laws/Lane.lean ====
section
/-! SUPPORT. The lane pipeline with one instruction in flight: what each of its four cycles does. -/

namespace Sys2Proof.Machine

@[simp] theorem lane_modLane_same (l : Nat) (f : Lane → Lane) (m : Module) : (modLane l f m).lane l = f (m.lane l) :=
  Sparse.get_mod_same _ _ _ _

theorem lane_modLane_ne {l k : Nat} (f : Lane → Lane) (m : Module) (h : k ≠ l) : (modLane l f m).lane k = m.lane k :=
  Sparse.get_mod_ne _ _ _ h

@[simp] theorem bank_modBank_same (w : Bool) (f : RegBank → RegBank) (x : Lane) : (x.modBank w f).bank w = f (x.bank w) := by
  cases w <;> rfl

@[simp] theorem bank_modBank_not (w : Bool) (f : RegBank → RegBank) (x : Lane) : (x.modBank w f).bank (!w) = x.bank (!w) := by
  cases w <;> rfl

@[simp] theorem modBank_op (w : Bool) (f : RegBank → RegBank) (x : Lane) : (x.modBank w f).op = x.op := by cases w <;> rfl
@[simp] theorem modBank_pipe (w : Bool) (f : RegBank → RegBank) (x : Lane) : (x.modBank w f).pipe = x.pipe := by cases w <;> rfl
@[simp] theorem modBank_pc (w : Bool) (f : RegBank → RegBank) (x : Lane) : (x.modBank w f).pc = x.pc := by cases w <;> rfl
@[simp] theorem modBank_cur (w : Bool) (f : RegBank → RegBank) (x : Lane) : (x.modBank w f).cur = x.cur := by cases w <;> rfl
@[simp] theorem modBank_count (w : Bool) (f : RegBank → RegBank) (x : Lane) : (x.modBank w f).count = x.count := by cases w <;> rfl
@[simp] theorem modBank_start (w : Bool) (f : RegBank → RegBank) (x : Lane) : (x.modBank w f).start = x.start := by cases w <;> rfl
@[simp] theorem modBank_delay (w : Bool) (f : RegBank → RegBank) (x : Lane) : (x.modBank w f).delay = x.delay := by cases w <;> rfl
@[simp] theorem modBank_rep (w : Bool) (f : RegBank → RegBank) (x : Lane) : (x.modBank w f).rep = x.rep := by cases w <;> rfl
@[simp] theorem modBank_target (w : Bool) (f : RegBank → RegBank) (x : Lane) : (x.modBank w f).target = x.target := by cases w <;> rfl
@[simp] theorem modBank_prefetch (w : Bool) (f : RegBank → RegBank) (x : Lane) : (x.modBank w f).prefetch = x.prefetch := by cases w <;> rfl
@[simp] theorem modBank_abort (w : Bool) (f : RegBank → RegBank) (x : Lane) : (x.modBank w f).abort = x.abort := by cases w <;> rfl
@[simp] theorem modBank_halted (w : Bool) (f : RegBank → RegBank) (x : Lane) : (x.modBank w f).halted = x.halted := by cases w <;> rfl

/-- A register read after a write of x registers. -/
theorem xr_setX (i j : Nat) (v : Int) (b : RegBank) : (b.setX i v).xr j = if j = i then BitVec.ofInt 20 v else b.xr j :=
  Sparse.get_set _ _ _ _ _

theorem tr_setT (i j : Nat) (v : BitVec 12) (b : RegBank) : (b.setT i v).tr j = if j = i then v else b.tr j := Sparse.get_set _ _ _ _ _

theorem pr_setP (i j : Nat) (v : BitVec 16) (b : RegBank) : (b.setP i v).pr j = if j = i then v else b.pr j := Sparse.get_set _ _ _ _ _

/-- A cycle of a lane with one instruction in flight. -/
theorem laneCycle_one {l : Nat} {m : Module} {f : InFlight} (h : (m.lane l).pipe = [f]) :
    laneCycle l m = modLane l (fun x => { x with pipe := if (readStage m l f).stage < 4 then [{ readStage m l f with stage := (readStage m l f).stage + 1 }] else [] })
      (writeStage m l (readStage m l f) m) := by
  unfold laneCycle
  rw [h]
  by_cases hs : (readStage m l f).stage < 4 <;> simp [hs]

/-- A cycle of a lane with nothing in flight. -/
theorem laneCycle_none {l : Nat} {m : Module} (h : (m.lane l).pipe = []) : laneCycle l m = modLane l (fun x => { x with pipe := [] }) m := by
  unfold laneCycle
  rw [h]
  rfl

/-- No stage changes how far an instruction has come. -/
theorem readStage_stage (m : Module) (l : Nat) (f : InFlight) : (readStage m l f).stage = f.stage := by
  unfold readStage
  simp only
  split
  · unfold readD; simp only; split <;> first | rfl | (split <;> rfl)
  · unfold readM; simp only
    split
    · split <;> rfl
    · split <;> rfl
    · split <;> first | rfl | (split <;> rfl)
    · rfl
    · rfl
  · unfold readA; simp only
    split
    · rfl
    · split <;> rfl
    · rfl
  · rfl

theorem laneCycles_none {l : Nat} : ∀ (n : Nat) {m : Module}, (m.lane l).pipe = [] →
    ∃ L, laneCycles l n m = { m with lanes := L } ∧ ∀ k, ({ m with lanes := L } : Module).lane k = m.lane k := by
  intro n
  induction n with
  | zero => exact fun h => ⟨_, rfl, fun _ => rfl⟩
  | succ n ih =>
    intro m h
    have h1 := laneCycle_none h
    have hk : ∀ k, (laneCycle l m).lane k = m.lane k := by
      intro k
      rw [h1]
      by_cases hk : k = l
      · subst hk; rw [lane_modLane_same, ← h]
      · exact lane_modLane_ne _ _ hk
    obtain ⟨L, e, g⟩ := ih (m := laneCycle l m) (by rw [hk]; exact h)
    refine ⟨L, ?_, fun k => ?_⟩
    · show laneCycles l n (laneCycle l m) = _
      rw [e, h1]; rfl
    · have := g k
      rw [hk] at this
      rw [← this, h1]; rfl

@[simp] theorem onBank_pipe (l : Nat) (f : InFlight) (g : RegBank → RegBank) (m : Module) :
    ((onBank l f g m).lane l).pipe = (m.lane l).pipe := by
  unfold onBank; rw [lane_modLane_same, modBank_pipe]

@[simp] theorem branchTo_pipe (l t : Nat) (m : Module) : ((branchTo l t m).lane l).pipe = (m.lane l).pipe := by
  unfold branchTo; rw [lane_modLane_same]; split
  · rfl
  · split <;> rfl

@[simp] theorem writeD_pipe (l : Nat) (f : InFlight) (m : Module) : ((writeD l f m).lane l).pipe = (m.lane l).pipe := by
  have e : ∀ m', ((if f.step1 = 0 ∧ f.step2 = 0 then m' else onBank l f (fun b =>
      (b.setP 1 (b.pr 1 + BitVec.ofInt 16 f.step1)).setP 2 (b.pr 2 + BitVec.ofInt 16 f.step2)) m').lane l).pipe = (m'.lane l).pipe := by
    intro m'; split <;> simp
  unfold writeD
  simp only
  split
  · rw [onBank_pipe, e]
  · rw [e]

@[simp] theorem writeM_pipe (l : Nat) (f : InFlight) (m : Module) : ((writeM l f m).lane l).pipe = (m.lane l).pipe := by
  unfold writeM
  split
  · split <;> simp
  · split <;> simp
  · rfl

@[simp] theorem setMem_lanes (n off len v : Nat) (m : Module) : (setMem n off len v m).lanes = m.lanes := by
  induction len generalizing off v m with
  | zero => rfl
  | succ k ih => rw [setMem, ih]

@[simp] theorem setCells_lanes (n : Nat) (cs : List (Nat × Nat × Nat)) (m : Module) : (setCells n cs m).lanes = m.lanes := by
  unfold setCells
  induction cs generalizing m with
  | nil => rfl
  | cons c l ih => rw [List.foldl_cons, ih, setMem_lanes]

@[simp] theorem supMem_lanes (n k : Nat) (o : SupOut) (m : Module) : (supMem n k o m).lanes = m.lanes := by
  unfold supMem; rw [modSlotRun_lanes, setCells_lanes]

theorem lane_congr {m m' : Module} (h : m.lanes = m'.lanes) (l : Nat) : m.lane l = m'.lane l := by
  unfold Module.lane; rw [h]

@[simp] theorem supStage_pipe (m0 : Module) (l : Nat) (f : InFlight) (t : Nat) (m : Module) :
    ((supStage m0 l f t m).lane l).pipe = (m.lane l).pipe := by
  unfold supStage
  simp only
  split
  · rfl
  · split
    · rw [lane_congr (supMem_lanes _ _ _ _), onBank_pipe]
    · rw [branchTo_pipe, lane_congr (supMem_lanes _ _ _ _), onBank_pipe]

@[simp] theorem writeA_pipe (m0 : Module) (l : Nat) (f : InFlight) (m : Module) :
    ((writeA m0 l f m).lane l).pipe = (m.lane l).pipe := by
  unfold writeA
  split
  · simp
  · split <;> simp
  · split <;> simp
  · simp
  · rfl

/-- The lane's pipeline holds this alone. -/
def setPipe (l : Nat) (p : List InFlight) (m : Module) : Module := modLane l (fun x => { x with pipe := p }) m

/-- An instruction's four cycles, where nothing else is in flight: D, M, A and W in turn, each reading what the one before left. -/
theorem laneCycles_four {l : Nat} {m : Module} {f : InFlight} (h : (m.lane l).pipe = [f]) (hs : f.stage = 1) :
    let r1 := readStage m l f
    let m1 := setPipe l [{ r1 with stage := 2 }] (writeD l r1 m)
    let r2 := readStage m1 l { r1 with stage := 2 }
    let m2 := setPipe l [{ r2 with stage := 3 }] (writeM l r2 m1)
    let r3 := readStage m2 l { r2 with stage := 3 }
    let m3 := setPipe l [{ r3 with stage := 4 }] (writeA m2 l r3 m2)
    laneCycles l 4 m = setPipe l [] (writeW m3 l { r3 with stage := 4 } m3) := by
  intro r1 m1 r2 m2 r3 m3
  have s1 : r1.stage = 1 := (readStage_stage m l f).trans hs
  have s2 : r2.stage = 2 := readStage_stage _ _ _
  have s3 : r3.stage = 3 := readStage_stage _ _ _
  have e1 : laneCycle l m = m1 := by
    rw [laneCycle_one h]
    show modLane l (fun x => { x with pipe := if r1.stage < 4 then [{ r1 with stage := r1.stage + 1 }] else [] }) (writeStage m l r1 m) = m1
    rw [s1]
    show modLane l _ (writeStage m l r1 m) = modLane l _ (writeD l r1 m)
    unfold writeStage
    rw [s1]
    rfl
  have p1 : (m1.lane l).pipe = [{ r1 with stage := 2 }] := by
    show ((modLane l _ _).lane l).pipe = _
    rw [lane_modLane_same]
  have e2 : laneCycle l m1 = m2 := by
    rw [laneCycle_one p1]
    show modLane l (fun x => { x with pipe := if r2.stage < 4 then [{ r2 with stage := r2.stage + 1 }] else [] }) (writeStage m1 l r2 m1) = m2
    rw [s2]
    show modLane l _ (writeStage m1 l r2 m1) = modLane l _ (writeM l r2 m1)
    unfold writeStage
    rw [s2]
    rfl
  have p2 : (m2.lane l).pipe = [{ r2 with stage := 3 }] := by
    show ((modLane l _ _).lane l).pipe = _
    rw [lane_modLane_same]
  have e3 : laneCycle l m2 = m3 := by
    rw [laneCycle_one p2]
    show modLane l (fun x => { x with pipe := if r3.stage < 4 then [{ r3 with stage := r3.stage + 1 }] else [] }) (writeStage m2 l r3 m2) = m3
    rw [s3]
    show modLane l _ (writeStage m2 l r3 m2) = modLane l _ (writeA m2 l r3 m2)
    unfold writeStage
    rw [s3]
    rfl
  have p3 : (m3.lane l).pipe = [{ r3 with stage := 4 }] := by
    show ((modLane l _ _).lane l).pipe = _
    rw [lane_modLane_same]
  have e4 : laneCycle l m3 = setPipe l [] (writeW m3 l { r3 with stage := 4 } m3) := by
    rw [laneCycle_one p3]
    rfl
  show laneCycle l (laneCycle l (laneCycle l (laneCycle l m))) = _
  rw [e1, e2, e3, e4]

/-- Issue at a boundary with nothing in flight puts the instruction into the pipeline. -/
theorem laneIssue_boundary {l : Nat} {op : LaneOp} {c : OpCtx} {m : Module} (ho : (m.lane l).op = some c) (hh : (m.lane l).halted = false)
    (ha : (m.lane l).abort = none) (hp : (m.lane l).pipe = []) (hf : fetches m l op = true) :
    ∃ L, laneIssue l op m = pushOp l op c { m with lanes := L } ∧ ∀ k, ({ m with lanes := L } : Module).lane k = m.lane k := by
  obtain ⟨L, e, g⟩ := laneCycles_none op.cycles hp
  refine ⟨L, ?_, g⟩
  have hf' : fetches { m with lanes := L } l op = true := by
    rw [← hf]; unfold fetches; rw [g l]; rfl
  unfold laneIssue
  simp only [ho, hh, ha, e, hf', if_true, Option.isSome_none, Bool.false_and, Bool.or_self, Bool.false_eq_true, if_false]
  unfold fetches at hf'
  split
  · next h => rw [h] at hf'; cases hf'
  · rfl

theorem nextPc_same (op : LaneOp) (x : Lane) : (∀ w, (nextPc op x).bank w = x.bank w) ∧ (nextPc op x).pipe = x.pipe ∧
    (nextPc op x).count = x.count ∧ (nextPc op x).op = x.op ∧ (nextPc op x).abort = x.abort ∧ (nextPc op x).cur = x.cur := by
  unfold nextPc
  split
  · split
    · exact ⟨fun _ => rfl, rfl, rfl, rfl, rfl, rfl⟩
    · split <;> exact ⟨fun _ => rfl, rfl, rfl, rfl, rfl, rfl⟩
  · split
    · exact ⟨fun _ => rfl, rfl, rfl, rfl, rfl, rfl⟩
    · exact ⟨fun _ => rfl, rfl, rfl, rfl, rfl, rfl⟩
    · exact ⟨fun _ => rfl, rfl, rfl, rfl, rfl, rfl⟩
    · exact ⟨fun _ => rfl, rfl, rfl, rfl, rfl, rfl⟩
    · split
      · split <;> exact ⟨fun _ => rfl, rfl, rfl, rfl, rfl, rfl⟩
      · exact ⟨fun _ => rfl, rfl, rfl, rfl, rfl, rfl⟩

/-- Issuing leaves the register banks alone, and puts the instruction behind those in flight. -/
theorem issue_same (op : LaneOp) (c : OpCtx) (x : Lane) : (∀ w, (x.issue op c).bank w = x.bank w) ∧
    (x.issue op c).pipe = x.pipe ++ [x.flight op c] ∧ (x.issue op c).count = x.count + op.cycles ∧ (x.issue op c).cur = x.cur := by
  unfold Lane.issue
  split
  · exact ⟨fun _ => rfl, rfl, rfl, rfl⟩
  · obtain ⟨b, p, n, -, -, w⟩ := nextPc_same op (x.push op c)
    unfold Lane.compareBudget
    split
    · exact ⟨fun w => (b w), p, n, w⟩
    · exact ⟨b, p, n, w⟩

/-- What no stage's read changes of an instruction in flight. -/
theorem readStage_keeps (m : Module) (l : Nat) (f : InFlight) : (readStage m l f).op = f.op ∧ (readStage m l f).bank = f.bank ∧
    (readStage m l f).ctx = f.ctx ∧ (readStage m l f).step1 = f.step1 ∧ (readStage m l f).step2 = f.step2 ∧
    (readStage m l f).last = f.last ∧ (readStage m l f).index = f.index := by
  unfold readStage
  simp only
  split
  · unfold readD; simp only; split <;> first | exact ⟨rfl, rfl, rfl, rfl, rfl, rfl, rfl⟩ | (split <;> exact ⟨rfl, rfl, rfl, rfl, rfl, rfl, rfl⟩)
  · unfold readM; simp only
    split
    · split <;> exact ⟨rfl, rfl, rfl, rfl, rfl, rfl, rfl⟩
    · split <;> exact ⟨rfl, rfl, rfl, rfl, rfl, rfl, rfl⟩
    · split <;> first | exact ⟨rfl, rfl, rfl, rfl, rfl, rfl, rfl⟩ | (split <;> exact ⟨rfl, rfl, rfl, rfl, rfl, rfl, rfl⟩)
    · exact ⟨rfl, rfl, rfl, rfl, rfl, rfl, rfl⟩
    · exact ⟨rfl, rfl, rfl, rfl, rfl, rfl, rfl⟩
  · unfold readA; simp only
    split
    · exact ⟨rfl, rfl, rfl, rfl, rfl, rfl, rfl⟩
    · split <;> exact ⟨rfl, rfl, rfl, rfl, rfl, rfl, rfl⟩
    · exact ⟨rfl, rfl, rfl, rfl, rfl, rfl, rfl⟩
  · exact ⟨rfl, rfl, rfl, rfl, rfl, rfl, rfl⟩

@[simp] theorem setPipe_bank (l : Nat) (p : List InFlight) (m : Module) (w : Bool) : ((setPipe l p m).lane l).bank w = (m.lane l).bank w := by
  unfold setPipe; rw [lane_modLane_same]; rfl

theorem setPipe_lane_ne {l k : Nat} (p : List InFlight) (m : Module) (h : k ≠ l) : (setPipe l p m).lane k = m.lane k := lane_modLane_ne _ _ h

@[simp] theorem onBank_bank_same (l : Nat) (f : InFlight) (g : RegBank → RegBank) (m : Module) :
    ((onBank l f g m).lane l).bank f.bank = g ((m.lane l).bank f.bank) := by unfold onBank; rw [lane_modLane_same, bank_modBank_same]

@[simp] theorem onBank_bank_not (l : Nat) (f : InFlight) (g : RegBank → RegBank) (m : Module) :
    ((onBank l f g m).lane l).bank (!f.bank) = (m.lane l).bank (!f.bank) := by unfold onBank; rw [lane_modLane_same, bank_modBank_not]

theorem onBank_lane_ne {l k : Nat} (f : InFlight) (g : RegBank → RegBank) (m : Module) (h : k ≠ l) : (onBank l f g m).lane k = m.lane k :=
  lane_modLane_ne _ _ h

/-- `u` is `m` but for lane `l`. -/
def laneOnly (l : Nat) (m u : Module) : Prop := u = { m with lanes := u.lanes } ∧ ∀ k, k ≠ l → u.lane k = m.lane k

theorem laneOnly_refl (l : Nat) (m : Module) : laneOnly l m m := ⟨rfl, fun _ _ => rfl⟩

theorem laneOnly_trans {l : Nat} {a b c : Module} (h : laneOnly l a b) (g : laneOnly l b c) : laneOnly l a c :=
  ⟨by rw [g.1, h.1], fun k hk => (g.2 k hk).trans (h.2 k hk)⟩

theorem laneOnly_modLane (l : Nat) (f : Lane → Lane) (m : Module) : laneOnly l m (modLane l f m) := ⟨rfl, fun _ hk => lane_modLane_ne _ _ hk⟩
theorem laneOnly_setPipe (l : Nat) (p : List InFlight) (m : Module) : laneOnly l m (setPipe l p m) := laneOnly_modLane _ _ _
theorem laneOnly_onBank (l : Nat) (f : InFlight) (g : RegBank → RegBank) (m : Module) : laneOnly l m (onBank l f g m) := laneOnly_modLane _ _ _

theorem memN_congr {m m' : Module} (h : m.loop = m'.loop) (n off len : Nat) : m.memN n off len = m'.memN n off len := by
  induction len generalizing off with
  | zero => rfl
  | succ k ih => simp only [Module.memN, ih, Module.memB, h]

theorem busRead_congr {m m' : Module} (h : m.loop = m'.loop) (c : OpCtx) (a len : Nat) : busRead m c a len = busRead m' c a len := by
  unfold busRead; split
  · exact memN_congr h _ _ _
  · rfl

theorem busQ_congr {m m' : Module} (h : m.loop = m'.loop) (c : OpCtx) (a : Nat) : busQ m c a = busQ m' c a := by
  unfold busQ; rw [busRead_congr h]

theorem tablePts_congr {m m' : Module} (h : m.loop = m'.loop) (h2 : m.dict.live = m'.dict.live) (t e : Nat) :
    m.tablePts t e = m'.tablePts t e := by
  unfold Module.tablePts Module.livePts Module.cfg; rw [h, h2]

/-- What D reads depends on the slot memory alone. -/
theorem readD_congr {m m' : Module} (h : m.loop = m'.loop) (b : RegBank) (f : InFlight) : readD m b f = readD m' b f := by
  unfold readD; simp only [busQ_congr h, busRead_congr h]

/-- What an A-type instruction reads in M depends on the slot memory and the tables alone. -/
theorem readM_alu_congr {m m' : Module} (h : m.loop = m'.loop) (h2 : m.dict.live = m'.dict.live) (b : RegBank) {f : InFlight} {op : AluOp}
    {x : AFields} (ho : f.op = .alu op x) : readM m b f = readM m' b f := by
  unfold readM; simp only [ho, tablePts_congr h h2]

/-- An A-type instruction that works in M: what its four cycles make of the lane. -/
theorem laneCycles_alu {l : Nat} {m : Module} {f : InFlight} {op : AluOp} {x : AFields} (h : (m.lane l).pipe = [f]) (hs : f.stage = 1)
    (ho : f.op = .alu op x) (ha : op.inA = false) (h1 : f.step1 = 0) (h2 : f.step2 = 0) (hl : f.last = false) :
    let b := (m.lane l).bank f.bank
    let g := readM m b { readD m b f with stage := 2 }
    laneOnly l m (laneCycles l 4 m) ∧ ((laneCycles l 4 m).lane l).bank (!f.bank) = (m.lane l).bank (!f.bank) ∧
      ((laneCycles l 4 m).lane l).bank f.bank =
        (let b := if op.writesX then b.setX x.xd.val g.v else b
         let b := match op with
           | .mov | .tags | .tago => b.setT x.xd.val (BitVec.ofNat 12 g.tag)
           | _ => b
         { b with flags := aluFlags op x.sat g.sat (g.tag != 0) g.v b.flags }) := by
  intro b g
  rw [laneCycles_four h hs]
  have k1 := readStage_keeps m l f
  have e1 : readStage m l f = readD m b f := by unfold readStage; rw [hs]; rfl
  rw [e1] at k1 ⊢
  have w1 : writeD l (readD m b f) m = m := by
    unfold writeD; rw [k1.2.2.2.1, k1.2.2.2.2.1, k1.1, h1, h2, ho]; simp
  rw [w1]
  generalize hm1 : setPipe l _ m = m1
  have hb1 : ∀ w, (m1.lane l).bank w = (m.lane l).bank w := by intro w; rw [← hm1, setPipe_bank]
  have o1 : laneOnly l m m1 := hm1 ▸ laneOnly_setPipe _ _ _
  have e2 : readStage m1 l { readD m b f with stage := 2 } = g := by
    show readM m1 ((m1.lane l).bank (readD m b f).bank) _ = _
    rw [k1.2.1, hb1]
    exact readM_alu_congr (by rw [o1.1]) (by rw [o1.1]) _ (k1.1.trans ho)
  have k2 := readStage_keeps m1 l { readD m b f with stage := 2 }
  rw [e2] at k2 ⊢
  have ko : g.op = .alu op x := k2.1.trans (k1.1.trans ho)
  have kb : g.bank = f.bank := k2.2.1.trans k1.2.1
  have kl : g.last = false := k2.2.2.2.2.2.1.trans (k1.2.2.2.2.2.1.trans hl)
  generalize hG : (fun (b : RegBank) =>
    let b := if op.writesX then b.setX x.xd.val g.v else b
    let b := match op with
      | .mov | .tags | .tago => b.setT x.xd.val (BitVec.ofNat 12 g.tag)
      | _ => b
    ({ b with flags := aluFlags op x.sat g.sat (g.tag != 0) g.v b.flags } : RegBank)) = G
  have w2 : writeM l g m1 = onBank l g G m1 := by
    unfold writeM; rw [ko]; simp only [ha, Bool.false_eq_true, if_false]; subst hG; rfl
  rw [w2]
  generalize hm2 : setPipe l _ (onBank l g G m1) = m2
  have e3 : readStage m2 l { g with stage := 3 } = { g with stage := 3 } := by
    show readA m2 _ { g with stage := 3 } = _
    unfold readA
    simp only [ko]
    cases op <;> first | rfl | (simp [AluOp.inA] at ha)
  rw [e3]
  have w3 : writeA m2 l { g with stage := 3 } m2 = m2 := by
    unfold writeA
    simp only [ko]
    cases op <;> first | rfl | (simp [AluOp.inA] at ha)
  rw [w3]
  generalize hm3 : setPipe l _ m2 = m3
  have w4 : writeW m3 l { g with stage := 4 } m3 = m3 := by
    unfold writeW
    simp only [ko, kl]
    simp
  have e4 : writeW m3 l { { g with stage := 3 } with stage := 4 } m3 = m3 := w4
  rw [e4]
  have o2 : laneOnly l m1 m2 := hm2 ▸ laneOnly_trans (laneOnly_onBank _ _ _ _) (laneOnly_setPipe _ _ _)
  have o3 : laneOnly l m2 m3 := hm3 ▸ laneOnly_setPipe _ _ _
  refine ⟨laneOnly_trans o1 (laneOnly_trans o2 (laneOnly_trans o3 (laneOnly_setPipe _ _ _))), ?_, ?_⟩
  · rw [setPipe_bank, ← hm3, setPipe_bank, ← hm2, setPipe_bank, ← kb, onBank_bank_not, hb1]
  · rw [setPipe_bank, ← hm3, setPipe_bank, ← hm2, setPipe_bank, ← kb, onBank_bank_same, hb1, ← hG, kb]

/-- An A-type instruction that works in A (ATRN, AADD, ASUB): what its four cycles make of the lane. -/
theorem laneCycles_aluA {l : Nat} {m : Module} {f : InFlight} {op : AluOp} {x : AFields} (h : (m.lane l).pipe = [f]) (hs : f.stage = 1)
    (ho : f.op = .alu op x) (ha : op.inA = true) (h1 : f.step1 = 0) (h2 : f.step2 = 0) (hl : f.last = false) :
    let b := (m.lane l).bank f.bank
    let g := readA m b { f with stage := 3 }
    laneOnly l m (laneCycles l 4 m) ∧ ((laneCycles l 4 m).lane l).bank (!f.bank) = (m.lane l).bank (!f.bank) ∧
      ((laneCycles l 4 m).lane l).bank f.bank =
        (match op with
         | .atrn => let b := b.setX x.xd.val g.v; { b with flags := aluFlags op x.sat g.sat false g.v b.flags }
         | _ => let b := b.setA (x.xd.val % 4) g.v; { b with flags := aluFlags op x.sat g.sat false g.v b.flags }) := by
  intro b g
  have hC : op.hasC = false := by cases op <;> first | rfl | (simp [AluOp.inA] at ha)
  rw [laneCycles_four h hs]
  have e1 : readStage m l f = f := by
    unfold readStage; rw [hs]; show readD m _ f = f; unfold readD; simp only [ho, hC]; simp
  rw [e1]
  have w1 : writeD l f m = m := by unfold writeD; rw [h1, h2, ho]; simp
  rw [w1]
  generalize hm1 : setPipe l _ m = m1
  have hb1 : ∀ w, (m1.lane l).bank w = (m.lane l).bank w := by intro w; rw [← hm1, setPipe_bank]
  have o1 : laneOnly l m m1 := hm1 ▸ laneOnly_setPipe _ _ _
  have e2 : readStage m1 l { f with stage := 2 } = { f with stage := 2 } := by
    show readM m1 _ { f with stage := 2 } = _
    unfold readM; simp only [ho, ha]; simp
  rw [e2]
  have w2 : writeM l { f with stage := 2 } m1 = m1 := by unfold writeM; simp only [ho, ha]; simp
  rw [w2]
  generalize hm2 : setPipe l _ m1 = m2
  have hb2 : ∀ w, (m2.lane l).bank w = (m.lane l).bank w := by intro w; rw [← hm2, setPipe_bank, hb1]
  have o2 : laneOnly l m1 m2 := hm2 ▸ laneOnly_setPipe _ _ _
  have e3 : readStage m2 l { { f with stage := 2 } with stage := 3 } = g := by
    show readA m2 ((m2.lane l).bank f.bank) { f with stage := 3 } = _
    rw [hb2]; rfl
  rw [e3]
  have k3 := readStage_keeps m2 l { { f with stage := 2 } with stage := 3 }
  rw [e3] at k3
  have ko : g.op = .alu op x := k3.1.trans ho
  have kb : g.bank = f.bank := k3.2.1
  have kl : g.last = false := k3.2.2.2.2.2.1.trans hl
  generalize hG : (fun (b : RegBank) =>
    (match op with
     | .atrn => let b := b.setX x.xd.val g.v; { b with flags := aluFlags op x.sat g.sat false g.v b.flags }
     | _ => let b := b.setA (x.xd.val % 4) g.v; { b with flags := aluFlags op x.sat g.sat false g.v b.flags } : RegBank)) = G
  have w3 : writeA m2 l g m2 = onBank l g G m2 := by
    unfold writeA; rw [ko, ← hG]
    cases op <;> first | rfl | (simp [AluOp.inA] at ha)
  rw [w3]
  generalize hm3 : setPipe l _ (onBank l g G m2) = m3
  have w4 : writeW m3 l { g with stage := 4 } m3 = m3 := by
    unfold writeW
    simp only [ko, kl]
    simp
  rw [w4]
  have o3 : laneOnly l m2 m3 := hm3 ▸ laneOnly_trans (laneOnly_onBank _ _ _ _) (laneOnly_setPipe _ _ _)
  refine ⟨laneOnly_trans o1 (laneOnly_trans o2 (laneOnly_trans o3 (laneOnly_setPipe _ _ _))), ?_, ?_⟩
  · rw [setPipe_bank, ← hm3, setPipe_bank, ← kb, onBank_bank_not, hb2]
  · rw [setPipe_bank, ← hm3, setPipe_bank, ← kb, onBank_bank_same, hb2, ← hG, kb]
    cases op <;> rfl

end Sys2Proof.Machine
end

