-- ==== Sys2Proof/WellFormed.lean ====
section
/-! DEFINITION. Which commands are well formed: what the operand types alone do not say. -/

namespace Sys2Proof

open Sys2Proof.Machine

/-- An operation of Table 4.8 that takes a C operand, so that [11:9] is 0 (R139). -/
def Machine.AluOp.takesC : AluOp → Bool
  | .clmp | .clmd | .dbnd | .sqrt => true
  | _ => false

/-- An A-type instruction with its fields is defined (R142): a C operand's [11:9] is 0, and SEL names a condition. -/
def aluDefined (op : AluOp) (f : AFields) : Bool :=
  if op.takesC then decide (f.imm.val < 512)
  else match op with
    | .sel => decide (f.imm.val % 16 < 13)
    | _ => true

/-- The index of a Flint operand lies in its space (Table 7.2). -/
def Machine.FOperand.defined (x : FOperand) : Bool :=
  match x.space.val with
  | 0 => true
  | 1 => decide (x.index.val < 2048)
  | 2 => decide (x.index.val < 32768)
  | 3 => decide (x.index.val < 32768) && decide (x.index.val % 32 < 20)
  | 4 => decide (x.index.val < 512)
  | 5 => decide (x.index.val < 256)
  | 6 => decide (x.index.val < 5)
  | _ => false

/-- A space that ST, SET and RST may write (R219). -/
def Machine.FOperand.writable (x : FOperand) : Bool := x.space.val == 1 || x.space.val == 2 || x.space.val == 3

/-- A CAN payload has an ISO 11898-1 length, and a classical frame at most 8 bytes (R309). -/
def canWf (m : CanMsg) : Bool :=
  [0, 1, 2, 3, 4, 5, 6, 7, 8, 12, 16, 20, 24, 32, 48, 64].contains m.data.length &&
    (m.idw.testBit 30 || decide (m.data.length ≤ 8)) && decide (m.idw < 2 ^ 32)

/-- A request's fields fit Table 2.10. -/
def Machine.Req.wf (r : Req) : Bool :=
  decide (r.op < 256) && decide (r.flags < 256) && decide (r.index < 65536) && decide (r.sub < 256) &&
    decide (r.operand < 2 ^ 32) && decide (r.data.length ≤ 1396) && decide (r.fr.id < 65536)

/-- The request of a command that carries one whole. -/
def Instr.req? : Instr → Option Req
  | .read r | .write r | .readBlock r | .writeBlock r | .start r | .stop r | .save r | .subscribe r | .close r
  | .domWriteInit r | .domWriteSeg r | .domWriteEnd r | .domReadInit r | .domReadSeg r | .domReadEnd r
  | .exportInit r | .exportSeg r | .exportEnd r | .forwardFrame r _ _ => some r
  | _ => none

/-- The A-type instruction of a lane command. -/
def Instr.alu? : Instr → Option (AluOp × AFields)
  | .basaltSel _ f => some (.sel, f)
  | .basaltClmp _ f => some (.clmp, f)
  | .basaltClmd _ f => some (.clmd, f)
  | .basaltDbnd _ f => some (.dbnd, f)
  | .basaltSqrt _ f => some (.sqrt, f)
  | _ => none

/-- The Flint operand of a bit operation, and whether the operation writes it. -/
def Instr.foperand? : Instr → Option (FOperand × Bool)
  | .flintLd _ x | .flintAnd _ x | .flintOr _ x | .flintXor _ x | .flintAndb _ x | .flintOrb _ x | .flintXorb _ x => some (x, false)
  | .flintSt _ x | .flintSet x | .flintRst x => some (x, true)
  | _ => none

/-- The CAN frame a command carries. -/
def Instr.can? : Instr → Option CanMsg
  | .canFrameReceived _ m _ _ _ | .wakeFrame _ m => some m
  | _ => none

/-- A command is well formed. -/
def Instr.wf (i : Instr) : Bool :=
  (match i.req? with | some r => r.wf | none => true) &&
  (match i.alu? with | some (op, f) => aluDefined op f | none => true) &&
  (match i.foperand? with | some (x, w) => x.defined && (!w || x.writable) | none => true) &&
  (match i.can? with | some m => canWf m | none => true)

end Sys2Proof
end

