-- ==== Sys2Proof/Tests/Slice0.lean ====
section
/-! SUPPORT. Small tests: ill-formed terms refused, words decoded, one step's results, and a witness for the hypotheses of every statement. -/

open Sys2Proof Sys2Proof.Machine

namespace Sys2Proof.Tests

/-- The state after reset with its module changed. -/
def near (f : Module → Module) : State := { State.reset with mod := f State.reset.mod }

/-- The outcome is a next state of which `p` holds. -/
def nextIs (o : Host.Outcome State Fault Refusal) (p : Module → Bool) : Bool :=
  match o with
  | .next t => p t.mod
  | _ => false

end Sys2Proof.Tests

open Sys2Proof.Tests
set_option Elab.async false

/-! ### Well-formed commands -/

/-- A request with these fields, no data, and a good tag. -/
def Sys2Proof.Tests.req (op flags index sub operand : Nat) : Req := ⟨⟨5, 1, true, 7⟩, op, flags, index, sub, operand, []⟩

/-- Fields of an A-type instruction that are all 1, with an immediate. -/
def Sys2Proof.Tests.aFields (imm : Fin 4096) : AFields := ⟨1, 1, 1, false, imm⟩

theorem test_wf_good : (Instr.read (req 0x01 0 0x2801 3 0)).wf = true ∧ (Instr.basaltSel 3 (aFields 12)).wf = true ∧
    (Instr.basaltClmp 3 (aFields 511)).wf = true ∧ (Instr.flintSt false ⟨1, 2047⟩).wf = true ∧
    (Instr.wakeFrame 1 ⟨0x123, [1, 2]⟩).wf = true ∧ (Instr.basaltNop 0).wf = true := by decide

theorem test_wf_request : (Instr.read (req 256 0 0x2801 3 0)).wf = false ∧ (Instr.read (req 1 256 0x2801 3 0)).wf = false ∧
    (Instr.read (req 1 0 65536 3 0)).wf = false ∧ (Instr.read (req 1 0 0x2801 256 0)).wf = false ∧
    (Instr.read (req 1 0 0x2801 3 (2 ^ 32))).wf = false := by decide

theorem test_wf_request_data : (Instr.write { req 2 0 0x2801 3 0 with data := List.replicate 1397 0 }).wf = false ∧
    (Instr.write { req 2 0 0x2801 3 0 with data := List.replicate 1396 0 }).wf = true := by decide +kernel

theorem test_wf_request_id : (Instr.close { req 0x11 0 0 0 0 with fr := ⟨5, 1, true, 65536⟩ }).wf = false := by decide

theorem test_wf_alu : (Instr.basaltSel 3 (aFields 13)).wf = false ∧ (Instr.basaltClmp 3 (aFields 512)).wf = false ∧
    (Instr.basaltClmd 3 (aFields 512)).wf = false ∧ (Instr.basaltDbnd 3 (aFields 512)).wf = false ∧
    (Instr.basaltSqrt 3 (aFields 512)).wf = false := by decide

theorem test_wf_flint_operand : (Instr.flintLd false ⟨1, 2048⟩).wf = false ∧ (Instr.flintLd false ⟨2, 32768⟩).wf = false ∧
    (Instr.flintLd false ⟨3, 20⟩).wf = false ∧ (Instr.flintLd false ⟨3, 32768⟩).wf = false ∧ (Instr.flintLd false ⟨4, 512⟩).wf = false ∧
    (Instr.flintLd false ⟨5, 256⟩).wf = false ∧ (Instr.flintLd false ⟨6, 5⟩).wf = false ∧ (Instr.flintLd false ⟨7, 0⟩).wf = false := by decide

theorem test_wf_flint_writable : (Instr.flintSt false ⟨0, 1⟩).wf = false ∧ (Instr.flintSet ⟨4, 1⟩).wf = false ∧
    (Instr.flintRst ⟨6, 0⟩).wf = false := by decide

theorem test_wf_can : (Instr.wakeFrame 1 ⟨0x123, List.replicate 9 0⟩).wf = false ∧
    (Instr.wakeFrame 1 ⟨2 ^ 30 + 0x123, List.replicate 9 0⟩).wf = false ∧
    (Instr.wakeFrame 1 ⟨0x123, List.replicate 12 0⟩).wf = false ∧ (Instr.wakeFrame 1 ⟨2 ^ 32, []⟩).wf = false ∧
    (Instr.wakeFrame 1 ⟨2 ^ 30 + 0x123, List.replicate 12 0⟩).wf = true := by decide

/-! ### Words written out from the encodings (R137 to R141, R220) -/

theorem test_decode_lane_m : laneDecode 0b00_01_0011_001_0_1_01_0100_000010_0000101 =
    some (.mac ⟨1, 3, 1, false, true, 1, 4, 2, 5⟩) := by decide

theorem test_decode_lane_a : laneDecode 0b01_00001_0010_0011_0100_1_000000000000 = some (.alu .sub ⟨2, 3, 4, true, 0⟩) ∧
    laneDecode 0b01_01100_0001_0010_0011_0_000000001100 = some (.alu .sel ⟨1, 2, 3, false, 12⟩) ∧
    laneDecode 0b01_01100_0001_0010_0011_0_000000001101 = none ∧ laneDecode 0b01_01101_0001_0010_0000_0_001000000000 = none ∧
    laneDecode 0b01_11001_0001_0010_0000_0_000000000000 = none := by decide

theorem test_decode_lane_l : laneDecode 0b10_011_0101_10_0_00000000000_000010100 = some (.ls .ldv ⟨5, 2, false, 20⟩) ∧
    laneDecode 0b10_101_0101_10_1_00000000000_000010100 = some (.ls .sto ⟨5, 2, true, 20⟩) ∧
    laneDecode 0b10_111_0000_01_0_0000_1111111111111101 = some (.ptr true ⟨0, 1, 0xFFFD, false⟩) ∧
    laneDecode 0b10_011_0101_10_0_00000000001_000010100 = none := by decide

theorem test_decode_lane_k : laneDecode 0b11_0000_0011_000000_1000000000000101 = some (.b .lt 0x8005) ∧
    laneDecode 0b11_0001_0000001111_0011_000110_000000 = some (.rpt 15 3 6) ∧
    laneDecode 0b11_0010_001_00000111_0011_000110_00000 = some (.rptb 1 7 3 6) ∧
    laneDecode 0b11_1000_0000000000_0000000001100100 = some (.lpsup 100) ∧
    laneDecode 0b11_1001_00000_1_00000000000000000000 = some (.lpout true) ∧ laneDecode 0b11_0101_00000000000000000000000000 = none := by
  decide

theorem test_decode_flint : flintDecode 0b000001_1_00000_001_00000000000000101 = some (.bit .and true ⟨1, 5⟩) ∧
    flintDecode 0b000101_1_00000_001_00000000000000101 = none ∧ flintDecode 0b000100_0_00000_000_00000000000000101 = none ∧
    flintDecode 0b100100_00000000000000000000000011 = some (.counter 0 3) ∧
    flintDecode 0b110001_00000000000000000000001010 = some (.jmp 1 10) ∧ flintDecode 0b111110_00000000000000000000000000 = some .nop := by decide

/-! ### The block -/

theorem witness_EmptyQueueIdlesOneCycle : State.reset.pending = [] := by decide

theorem witness_CommandsKeepTheQueue : (match exec (.basaltNop 3) State.reset with
    | .next t => decide (t.pending = State.reset.pending)
    | _ => false) = true := by decide +kernel

theorem witness_FusesStayLegal : fusesLegal State.reset.fuses ∧ fusesLegal ⟨[4, 2, 1], 7, false, true⟩ ∧ ¬ fusesLegal ⟨[2, 4, 1], 7, false, true⟩ ∧
    (match step State.reset with | .next _ => true | _ => false) = true := by unfold fusesLegal; decide +kernel

theorem witness_WordWriteReadsBack : State.reset.mod.piWf = true ∧ (putWord 7 0 (putWord (2 ^ 18 + 7) 0x80000005 State.reset.mod)).piWf = true := by decide +kernel

theorem witness_LaneWordsRoundTrip : (LaneOp.defined .nop) = true ∧ laneDecode 0xD0000000 = some .nop ∧ (LaneOp.alu .sel ⟨1, 2, 3, false, 13⟩).defined = false := by decide

theorem witness_FlintWordsRoundTrip : (FlintOp.defined .nop) = true ∧ flintDecode 0xF8000000 = some .nop ∧ (FlintOp.bit .st false ⟨0, 0⟩).defined = false := by decide

/-! ### Lanes -/

/-- A register bank with x1 = 3, x2 = −2, t1 = 800h, p1 = 10, p2 = 20. -/
def Sys2Proof.Tests.bankA : RegBank :=
  ((((RegBank.clear.setX 1 3).setX 2 (-2)).setT 1 0x800).setP 1 10).setP 2 20

/-- An operation of slot 5 in group 2, or a MOVE, of 60 lane-cycles. -/
def Sys2Proof.Tests.ctxOf (slot : Option Nat) : OpCtx := ⟨3, if slot.isSome then 0 else 2, slot, 2, 40, 0, 60, 0x1234, 4, 7⟩

/-- A state in which lane 2 runs `c` at ROM address 100. -/
def Sys2Proof.Tests.laneSt (c : OpCtx) : State :=
  near fun m => { m with lanes := [(2, { Lane.init with bank0 := bankA, op := some c, pc := 100, count := 7, start := 410 })] }

/-- The same lane with an abort event held. -/
def Sys2Proof.Tests.laneAb (a : AbortKind) : State :=
  { laneSt (ctxOf (some 5)) with mod := modLane 2 (fun x => { x with abort := some a }) (laneSt (ctxOf (some 5))).mod }

/-- The bank of lane 2 four cycles after a command, with its flags. -/
def Sys2Proof.Tests.after (i : Instr) (s : State) (p : RegBank → Bool) : Bool := nextIs (exec i s) fun m => p ((laneCycles 2 4 m).lane 2).bank0

theorem witness_LaneRegisterArithmetic : laneReady (laneSt (ctxOf (some 5))) 2 (ctxOf (some 5)) (.alu .shl ⟨15, 1, 2, true, 4095⟩) ∧
    laneReady (laneSt (ctxOf none)) 2 (ctxOf none) (.alu .clmp ⟨0, 1, 2, false, 511⟩) ∧
    laneReady (laneSt (ctxOf none)) 2 (ctxOf none) (.alu .sel ⟨0, 1, 2, false, 12⟩) := by unfold laneReady; decide

theorem witness_LaneMultiplyAccumulate : laneReady (laneSt (ctxOf (some 5))) 2 (ctxOf (some 5)) (.mac ⟨3, 1, 5, true, true, 2, 2, 63, 127⟩) := by
  unfold laneReady; decide

theorem witness_LaneLoadsStoresPointers :
    laneReady (laneSt (ctxOf (some 5))) 2 (ctxOf (some 5)) (.ls .sto ⟨15, 3, false, 511⟩) ∧
    laneReady (laneSt (ctxOf (some 5))) 2 (ctxOf (some 5)) (.ptr true ⟨0, 1, 0xFFFF, false⟩) := by unfold laneReady; decide

theorem witness_LaneControlFlow : let s := laneSt (ctxOf (some 5))
    (s.mod.lane 2).count + 1 < (ctxOf (some 5)).budget ∧ (s.mod.lane 2).target = none ∧
    laneReady s 2 (ctxOf (some 5)) (.b .lt 0xFFFF) ∧ laneReady s 2 (ctxOf (some 5)) (.rpt 1023 15 63) ∧
    laneReady s 2 (ctxOf (some 5)) (.rptb 7 255 15 63) ∧ laneReady s 2 (ctxOf (some 5)) .nop := by unfold laneReady; decide

theorem witness_LaneOperationEnds : let s := laneSt (ctxOf (some 5))
    laneReady s 2 (ctxOf (some 5)) .stop ∧ (LaneOp.stop.ends = true ∧ LaneOp.stop.romOnly = false) ∧
    laneReady s 2 (ctxOf (some 5)) (.ls .sts ⟨1, 2, true, 511⟩) ∧ (LaneOp.ls .sts ⟨1, 2, true, 511⟩).ends = true := by unfold laneReady; decide

theorem witness_LaneBudgetAndAbort : let s := laneSt (ctxOf (some 5))
    laneReady s 2 (ctxOf (some 5)) (.alu .tlkp ⟨1, 2, 0, false, 0⟩) ∧ (LaneOp.alu .tlkp ⟨1, 2, 0, false, 0⟩).ends = false ∧
    ((laneAb .budget).mod.lane 2).op = some (ctxOf (some 5)) ∧ ((laneAb .budget).mod.lane 2).abort = some .budget ∧
    ((laneAb .budget).mod.lane 2).delay = 0 ∧ ((laneAb .budget).mod.lane 2).rep = none ∧ ((laneAb .budget).mod.lane 2).pipe = [] ∧
    ((laneAb .abort).mod.lane 2).op = some (ctxOf (some 5)) ∧ ((laneAb .abort).mod.lane 2).abort = some .abort ∧
    ((laneAb .abort).mod.lane 2).delay = 0 ∧ ((laneAb .abort).mod.lane 2).rep = none ∧ ((laneAb .abort).mod.lane 2).pipe = [] ∧
    (LaneOp.alu .dbnd ⟨1, 2, 0, false, 512⟩).defined = false := by unfold laneReady; decide

theorem witness_LaneBudgetAndAbort_ram : let s := near fun m => { m with lanes := [(2, { Lane.init with pc := 0x8000 })] }
    (LaneOp.lpout false).romOnly = true ∧ 0x8000 ≤ (s.mod.lane 2).pc := by decide

/-- Lane 2 after an LPSUP's supervision has been kept in its bank. -/
def Sys2Proof.Tests.laneSup : State := let s := laneSt (ctxOf (some 5))
  { s with mod := modLane 2 (fun x => x.modBank false (fun b => { b with sup := some (supervise s.mod 5 (s.mod.slotRun 5) b).sup })) s.mod }

theorem witness_LaneSupervisionAndOutput : laneReady (laneSt (ctxOf (some 5))) 2 (ctxOf (some 5)) (.lpsup 0x64) ∧
    (ctxOf (some 5)).slot = some 5 ∧ ((laneSt (ctxOf (some 5))).mod.lane 2).count + 1 < (ctxOf (some 5)).budget ∧
    ((laneSt (ctxOf (some 5))).mod.lane 2).target = none ∧ laneReady laneSup 2 (ctxOf (some 5)) (.lpout false) ∧
    (laneBank laneSup.mod 2).sup = some (supervise (laneSt (ctxOf (some 5))).mod 5 ((laneSt (ctxOf (some 5))).mod.slotRun 5) bankA).sup := by
  unfold laneReady; decide +kernel

theorem witness_LoopModeSetpointAndLimits : bit 0x08 3 = true ∧ (bit 0x21 1 = false ∧ bit 0x21 3 = false ∧ bit 0x21 0 = true) ∧
    (bit 0x20 5 = true ∧ bit 0x20 0 = false ∧ bit 0x20 1 = false ∧ bit 0x20 2 = false ∧ bit 0x20 3 = false ∧ bit 0x20 4 = false) ∧
    ((-524288 : Int) ≤ -524288) := by decide

theorem test_lane_add_saturates : after (.basaltAdd 2 ⟨3, 1, 1, true, 0⟩)
    { laneSt (ctxOf none) with mod := modLane 2 (fun x => x.modBank false fun b => b.setX 1 0x7FFFF) (laneSt (ctxOf none)).mod }
    (fun b => b.xi 3 == 0x7FFFF && b.flags.v && b.flags.sv && !b.flags.n) = true := by decide +kernel

theorem test_lane_add_wraps : after (.basaltAdd 2 ⟨3, 1, 1, false, 0⟩)
    { laneSt (ctxOf none) with mod := modLane 2 (fun x => x.modBank false fun b => b.setX 1 0x7FFFF) (laneSt (ctxOf none)).mod }
    (fun b => b.xi 3 == -2 && !b.flags.v && b.flags.n) = true := by decide +kernel

theorem test_lane_sub_order : after (.basaltSub 2 ⟨3, 1, 2, true, 0⟩) (laneSt (ctxOf none)) (fun b => b.xi 3 == 5) = true := by decide +kernel

theorem test_lane_mac_product : after (.basaltMac 2 ⟨1, 1, 5, true, false, 0, 2, 0, 0⟩) (laneSt (ctxOf (some 5)))
    (fun b => b.ar 1 == -2 * 2 ^ 17 && b.w == 0xFFFFE) = true := by decide +kernel

theorem test_lane_undefined : (match exec (.basaltSqrt 2 ⟨1, 2, 0, false, 512⟩) (laneSt (ctxOf none)) with
    | .fault .undefinedWord => true
    | _ => false) = true := by decide

theorem test_lane_ldp : after (.basaltLdp 2 ⟨0, 3, 0x1234, false⟩) (laneSt (ctxOf none)) (fun b => b.pr 3 == 0x1234) = true := by decide +kernel

/-! ### Dispatcher -/

/-- A descriptor of kind, group and slot with these producers. -/
def Sys2Proof.Tests.dsc (k g sl : Nat) (ins : List Nat) : Desc :=
  ⟨k, g, sl, 0, ins.length, (ins ++ [0, 0, 0, 0]).take 4, 0x1234, 4, 0, 7⟩

/-- An instance of epoch 40. -/
def Sys2Proof.Tests.inst (d g : Nat) (st : IState) (deadline : Nat) : Inst := ⟨d, g, 40, [], st, deadline, 0, false, 0⟩

/-- Descriptor 3 feeds descriptor 9; instances 9 and 12 wait, 13 is ready. -/
def Sys2Proof.Tests.dispSt : State :=
  near fun m => { m with
    tick := { m.tick with epoch := some 40, cycle := 500 },
    funcs := [(fnEngine, { FuncRec.init with st := .running })],
    disp := { m.disp with
      live := [(3, some (dsc 0 2 3 [])), (9, some (dsc 1 2 9 [3])), (12, some (dsc 2 2 0 [3, 9])), (13, some (dsc 0 1 13 [9]))],
      insts := [inst 9 2 .waiting 5, inst 12 2 .waiting 6, inst 13 1 .ready 4], released := some 40, tags := [(3, 5)] } }

/-- A tag of descriptor 3 (slot 3, kind 0) at epoch 40 for its consumers 0 and 1 (Table 5.1). -/
def Sys2Proof.Tests.tag3 : BitVec 64 := BitVec.ofNat 64 (3 * 2 ^ 54 + 40 * 2 ^ 32 + 3 * 2 ^ 16)

theorem witness_TagTakenByAddressedInstances : idleLanesEmpty dispSt.mod ∧ dispSt.mod.desc 3 = some (dsc 0 2 3 []) ∧
    tagMatches 3 (dsc 0 2 3 []) (2 ^ 63) = false ∧
    tagMatches 3 (dsc 0 2 3 []) tag3 = true := by unfold idleLanesEmpty; decide +kernel

/-- The operation of descriptor 13, as a lane takes it. -/
def Sys2Proof.Tests.op13 : Option OpCtx := opOf dispSt.mod (inst 13 1 .ready 4)

/-- Lane 5 holds an operation in its prefetch slot. -/
def Sys2Proof.Tests.popped : State := { dispSt with mod := { dispSt.mod with lanes := [(5, { Lane.init with prefetch := op13 })] } }

theorem witness_PopAndIssue : ((dispSt.mod.lane 15).prefetch = none ∧ dispSt.mod.active fnEngine = true ∧
      popChoice (toCycle 600 dispSt.mod) 15 = some (inst 13 1 .ready 4) ∧ op13.isSome = true) ∧
    (popped.mod.lane 5).prefetch ≠ none ∧ ∀ j ∈ State.reset.mod.disp.insts, j.st ≠ .ready ∧ j.st ≠ .late := by decide +kernel

theorem witness_PopAndIssue_issue : (popped.mod.lane 5).op = none ∧ (popped.mod.lane 5).halted = false ∧
    (popped.mod.lane 5).prefetch = op13 ∧ op13.isSome = true := by decide +kernel

theorem test_tag_reaches_both : nextIs (exec (.tagAccept 3 tag3) dispSt)
    (fun m => m.disp.insts.map (fun i => (i.desc, i.got)) == [(9, [3]), (12, [3]), (13, [])] && m.disp.tags == [(3, 5)]) = true := by decide +kernel

theorem test_pop_takes_the_ready_one : nextIs (exec (.prefetchPop 15 600) dispSt)
    (fun m => (m.lane 15).prefetch.any (fun c => c.desc == 13 && c.slot == some 13) && m.stat Ent.dispPops == 1) = true := by decide +kernel

/-! ### Flint -/

/-- Task 2 executes `op` at word 3 with these permits, flags, timers and counters; ACC is `acc`. -/
def Sys2Proof.Tests.flintSt (op : FlintOp) (acc : Bool) (stack : List (Bool × FStackOp)) : State :=
  near fun m => { m with flint := { m.flint with
    img := { FlintImage.empty with code := [0, 0, 0, flintEncode op], consts := [5, 0x80000], tpre := [0, 3], cpre := [0, 2] },
    tasks := [(2, { FlintTask.init with active := true, acc := acc, stack := stack, pc := 3, image := [0x80000005, 0x000FFFFF], epoch := 100 })],
    data := { FData.init with timers := [(1, ⟨true, 97, false, true, 0⟩)], counters := [(1, ⟨2 ^ 32 - 1, false, false⟩)] } } }

/-- The task and Flint's data after a command. -/
def Sys2Proof.Tests.afterF (op : FlintOp) (acc : Bool) (p : FlintTask → FData → Bool) : Bool :=
  nextIs (exec (flintInstr op) (flintSt op acc [(true, .and)])) fun m => p (m.ftask 2) m.flint.data

theorem witness_FlintLogic : (∀ op ∈ ([.bit .ld true ⟨6, 4⟩, .bit .xorb false ⟨0, 33⟩, .not, .cmp .eq true false 0 0, .edge true 8191] : List FlintOp),
    flintReady (flintSt op true []) 2 op ∧ op.logic = true) ∧
    flintReady (flintSt .pop true [(true, .or)]) 2 .pop ∧ ((flintSt .pop true [(true, .or)]).mod.ftask 2).stack ≠ [] := by
  unfold flintReady; decide +kernel

theorem witness_FlintStores : ∀ op ∈ ([.bit .st true ⟨1, 2047⟩, .bit .set false ⟨2, 32767⟩, .bit .rst false ⟨3, 19⟩, .movk 1023 1, .movi 0 1] :
    List FlintOp), flintReady (flintSt op true []) 2 op ∧ op.stores = true := by unfold flintReady; decide +kernel

theorem witness_FlintTimers : ∀ k : Fin 3, flintReady (flintSt (.timer k 511) false []) 2 (.timer k 511) := by unfold flintReady; decide +kernel

theorem witness_FlintCounters : ∀ k : Fin 3, flintReady (flintSt (.counter k 1) true []) 2 (.counter k 1) ∧
    ((flintSt (.counter k 1) true []).mod.fcounter 1).cv < 2 ^ 32 := by unfold flintReady; decide +kernel

theorem witness_FlintJumpsAndEnd : flintReady (flintSt .nop true []) 2 .nop ∧ flintReady (flintSt (.jmp 2 131071) false []) 2 (.jmp 2 131071) ∧
    flintReady (flintSt .fend true []) 2 .fend ∧ noOtherCycle (flintSt .fend true []).mod 2 := by
  unfold flintReady noOtherCycle; decide +kernel

/-- Epoch 102: task 2 (period 5, phase 2, tolerance 2) is released while its last cycle has ended or goes on; `overruns` of it were consecutive. -/
def Sys2Proof.Tests.flintRel (ended : Bool) (overruns : Nat) : State :=
  near fun m => Module.setStat (Ent.flintTaskOverrunConsec 2) overruns { m with
    tick := { m.tick with epoch := some 102, cycle := 399 },
    funcs := [(fnFlint, { FuncRec.init with st := .running }), (fnTask 2, { FuncRec.init with st := .running })],
    flint := { m.flint with
      img := { FlintImage.empty with
        code := [flintEncode (.bit .st false ⟨1, 1⟩), flintEncode .fend], ovr := [⟨0x1300, 0, 0⟩, ⟨0x1301, 0, 0⟩],
        tasks := [⟨0, 0, 0, 0, 0⟩, ⟨0, 0, 0, 0, 0⟩, ⟨0, 5, 2, 2, 0⟩] },
      tasks := [(2, { FlintTask.init with active := true, ended := ended, epoch := 97, permits := [(1, true)] })] } }

theorem witness_FlintReleases : idleLanesEmpty (flintRel true 2).mod ∧ flintTurn (flintRel true 2).mod 102 2 ∧
    ((flintRel true 2).mod.ftask 2).ended = true ∧ (flintRel true 2).mod.stat (Ent.flintTaskFault 2) = 0 ∧
    (flintRel true 2).mod.stat (Ent.flintTaskOverrunConsec 2) ≤ ((flintRel true 2).mod.ftcfg 2).tol := by
  unfold idleLanesEmpty flintTurn solo; decide +kernel

theorem witness_FlintReleases_overrun : idleLanesEmpty (flintRel false 1).mod ∧ flintTurn (flintRel false 1).mod 102 2 ∧
    ((flintRel false 1).mod.ftask 2).ended = false ∧ (flintRel false 1).mod.stat (Ent.flintTaskOverrunConsec 2) < ((flintRel false 1).mod.ftcfg 2).tol ∧
    ((flintRel false 1).mod.ftcfg 2).tol ≤ 15 ∧ ((flintRel false 1).mod.ftcfg 2).bound = 0 := by
  unfold idleLanesEmpty flintTurn solo; decide +kernel

theorem witness_FlintFaultAndSwitchTimeout : (flintRel false 3).mod.tick.epoch = some 102 ∧ (flintRel false 3).mod.standby = false ∧
    (flintRel false 3).mod.active (fnTask 2) = true ∧ (flintRel false 3).mod.stat (Ent.flintTaskFault 2) = 0 ∧
    ((flintRel false 3).mod.ftcfg 2).tol < (flintRel false 3).mod.stat (Ent.flintTaskOverrunConsec 2) ∧
    ¬ ((flintRel false 2).mod.ftcfg 2).tol < (flintRel false 2).mod.stat (Ent.flintTaskOverrunConsec 2) := by decide +kernel

/-- A change waits for its switch since epoch 102. -/
def Sys2Proof.Tests.flintPending (e : Nat) : Module :=
  { State.reset.mod with tick := { State.reset.mod.tick with epoch := some e }, flint := { State.reset.mod.flint with change := .pending, switchAt := 102 } }

theorem witness_FlintFaultAndSwitchTimeout_switch : (flintPending 1102).tick.epoch = some 1102 ∧ (flintPending 1102).flint.change = .pending ∧
    (flintPending 1102).flint.switchAt + (flintPending 1102).cfg Ent.flintSwitchTimeout ≤ 1102 ∧
    ¬ (flintPending 1101).flint.switchAt + (flintPending 1101).cfg Ent.flintSwitchTimeout ≤ 1101 := by decide +kernel

theorem test_flint_ld_not : afterF (.bit .ld true ⟨6, 0⟩) true (fun t _ => !t.acc && t.pc == 4 && t.spent == 1) = true := by decide +kernel

theorem test_flint_cmp_good : afterF (.cmp .ge true false 0 0) true (fun t _ => t.acc) = true ∧
    afterF (.cmp .ge true false 1 0) true (fun t _ => !t.acc) = true ∧ afterF (.cmp .lt false false 1 0) true (fun t _ => t.acc) = true := by
  decide +kernel

theorem test_flint_pop : afterF .pop false (fun t _ => !t.acc && t.stack == []) = true := by decide +kernel

theorem test_flint_set_needs_acc : afterF (.bit .set false ⟨2, 7⟩) false (fun _ d => d.markers == []) = true ∧
    afterF (.bit .set false ⟨2, 7⟩) true (fun _ d => d.markers == [(7, true)]) = true := by decide +kernel

theorem test_flint_tof_expires : afterF (.timer 1 1) false (fun t d => !t.acc && d.timers == [(1, ⟨false, 97, false, false, 0⟩)]) = true := by
  decide +kernel

theorem test_flint_ctu_saturates : afterF (.counter 0 1) true (fun t d => t.acc && d.counters == [(1, ⟨2 ^ 32 - 1, true, true⟩)]) = true := by
  decide +kernel

theorem test_flint_ctd_counts : afterF (.counter 1 1) true (fun t d => !t.acc && d.counters == [(1, ⟨2 ^ 32 - 2, true, false⟩)]) = true := by
  decide +kernel

theorem test_flint_edge_falling : afterF (.edge true 4) true (fun t d => !t.acc && d.edge 4) = true := by decide +kernel

theorem test_flint_jmpn_taken : afterF (.jmp 2 9) false (fun t _ => t.pc == 9 && t.spent == 2) = true ∧
    afterF (.jmp 1 9) false (fun t _ => t.pc == 4 && t.spent == 1) = true := by decide +kernel

theorem test_flint_end : afterF .fend true (fun t _ => t.ended) = true := by decide +kernel

/-! ### Requests -/

/-- A SERVICE session on KR0 that has taken sequence numbers up to 10, but for 8 and 9. -/
def Sys2Proof.Tests.sess : Session := ⟨5, 0, .service, 2, [], T80.zero, [], [], 600, 10, [7], 3, []⟩

/-- A module past Ready that holds the session. -/
def Sys2Proof.Tests.served (f : Module → Module) : State :=
  near fun m => f (((({ m with odp := { m.odp with sessions := [sess] }, power := { m.power with stage := .run }, sec := { m.sec with runtimeSv := 3 } }
    : Module).setStat Ent.bootPhase 5).setStat Ent.bootReady 1).setStat Ent.pwrState 0)

/-- A frame of the session, in order. -/
def Sys2Proof.Tests.fr (seq : Nat) : Frame := ⟨5, seq, true, 99⟩

/-- A request of the session. -/
def Sys2Proof.Tests.rq (op flags index sub operand : Nat) (data : List Byte) : Req := ⟨fr 12, op, flags, index, sub, operand, data⟩

/-- A function's record in a state. -/
def Sys2Proof.Tests.fnIn (l : List (Nat × FState)) (m : Module) : Module := { m with funcs := l.map fun f => (f.1, { FuncRec.init with st := f.2 }) }

/-- The last response sent has a status and these data. -/
def Sys2Proof.Tests.answered (m : Module) (status : Nat) (data : List Byte) : Bool :=
  match m.out.getLast? with
  | some (.resp a) => a.status == status && a.data == data && a.session == 5 && a.id == 99
  | _ => false

theorem witness_BadFramesAreDropped : let s := served id
    idleLanesEmpty s.mod ∧ odpUp s.fuses s.mod (frameLink (fr 10) s.mod) = true ∧ frameDropped s.mod (fr 10) = true ∧
    frameDropped s.mod (fr 7) = true ∧ frameDropped s.mod (fr 8) = false ∧ frameDropped s.mod ⟨6, 12, true, 1⟩ = true ∧
    frameDropped s.mod ⟨5, 12, false, 1⟩ = true ∧ frameDropped s.mod (fr 0) = true := by unfold idleLanesEmpty; decide +kernel

theorem witness_HostWritesWait : let s := served (fnIn [(fnEngine, .running)])
    rowRequest (.gateEnableWrite (fr 12) 3 1 true) = some (rq 2 0 0x1023 2 0 [1]) ∧
    waitingWrite (.gateEnableWrite (fr 12) 3 1 true) = some (keyOf 0x1023 2, 1) ∧ requestNew s (rq 2 0 0x1023 2 0 [1]) sess ∧
    s.mod.ticking = true ∧ s.mod.stopped fnEngine = false ∧
    writeStatus s.fuses ⟨5, 3, false⟩ 0x1023 2 [1] (noted (rq 2 0 0x1023 2 0 [1]) sess s.mod) = stOk := by
  unfold requestNew requestFit idleLanesEmpty solo; decide +kernel

/-- The functions that the waiting writes below name, RUNNING. -/
def Sys2Proof.Tests.busy : State :=
  let s := served (fnIn ([fnEngine, 3, fnGroup 2, fnSlate, fnRecipe 1, fnFlint, fnTask 1, fnAxis 1, fnPort 1, fnDo, fnStream, fnWin 2].map fun f => (f, .running)))
  { s with mod := { s.mod with flint := { s.mod.flint with change := .pending }, time := { s.mod.time with gmJump := true }, red := { s.mod.red with lines := 0 } } }

theorem witness_HostWritesWait_rows : ∀ c ∈ ([.loopModeRequest (fr 12) 3 1, .loopSwap (fr 12) 3, .overrunClear (fr 12) 2, .recipeRun (fr 12) 1,
    .recipeContinue (fr 12) 1, .flintFaultClear (fr 12) 1, .flintSwitch (fr 12), .forceWrite (fr 12) 40 0x0000500000041234, .moveAbs (fr 12) 1 5,
    .limitClear (fr 12) 1 5, .doFaultClear (fr 12) 7, .fbCancel (fr 12) 1 3, .streamAttach (fr 12), .windowArm (fr 12) 2, .windowRelease (fr 12) 2 3,
    .agateClear (fr 12) 0, .acceptStep (fr 12), .redDemote (fr 12), .redResync (fr 12)] : List Instr),
    (rowRequest c).isSome = true ∧ (waitingWrite c).isSome = true ∧ ∀ r ∈ (rowRequest c).toList, requestNew busy r sess ∧
      writeStatus busy.fuses ⟨5, 3, false⟩ r.index r.sub r.data (noted r sess busy.mod) = stOk := by
  unfold requestNew requestFit idleLanesEmpty solo; decide +kernel

/-- The engine STOPPED, two owner anchors, and the time FREE. -/
def Sys2Proof.Tests.quiet : State :=
  let s := served id
  { s with mod := { s.mod with nv := { s.mod.nv with anchors := [(3, 1, [1]), (4, 2, [2])] } } }

theorem witness_HostWritesAtOnce : quiet.mod.stopped fnEngine = true ∧ ∀ c ∈ ([.expectedCrcWrite (fr 12) 0x602 0xFFFFFFFF, .gateEnableWrite (fr 12) 3 1 true, .timeSet (fr 12) ⟨1000, 5⟩,
    .anchorUseWrite (fr 12) 3 0, .agateNote (fr 12) 0x0012000012345678, .lifecycleRequest (fr 12) 2, .deepRequest (fr 12)] : List Instr),
    (rowRequest c).isSome = true ∧ ∀ r ∈ (rowRequest c).toList, requestNew quiet r sess ∧ checksPass quiet r sess := by
  unfold requestNew requestFit idleLanesEmpty solo checksPass; decide +kernel

/-- A pair's holder in LOCKSTEP with its standby. -/
def Sys2Proof.Tests.holding : State :=
  served fun m => { m with red := { m.red with st := 3, hold := true, link := 2, partnerState := 3, partner := some ⟨[], 1, 1, [], true, 1⟩ } }

theorem witness_HostWritesWait_handover : requestFit holding (rq 2 0 0x1C00 6 0 [1]) sess ∧ memberLocal Ent.redHandover = true ∧
    waitingWrite (.redHandover (fr 12)) = some (Ent.redHandover, 1) ∧ rowRequest (.redHandover (fr 12)) = some (rq 2 0 0x1C00 6 0 [1]) ∧
    writeStatus holding.fuses ⟨5, 3, false⟩ 0x1C00 6 [1] (noted (rq 2 0 0x1C00 6 0 [1]) sess holding.mod) = stOk := by
  unfold requestFit idleLanesEmpty; decide +kernel

/-! ### The dictionary server -/

/-- The engine alone runs; group 2 writes its overrun word 1236h. -/
def Sys2Proof.Tests.srv : State :=
  let s := served (fnIn [(fnEngine, .running)])
  { s with mod := (s.mod.setCfg (Ent.groupOverrunAction 2) 2).setCfg (Ent.groupOverrunWord 2) 0x1236 }

/-- Besides it a task of each other state. -/
def Sys2Proof.Tests.srv4 : State :=
  { srv with mod := fnIn [(fnEngine, .running), (fnTask 0, .starting), (fnTask 1, .running), (fnTask 2, .stopping)] srv.mod }

theorem owned_noted (r : Req) (x : Session) (m : Module) (a : Nat) : owned (noted r x m) a = owned m a := rfl

theorem owned_parts (m : Module) (t : Tick) (o : Odp) (r : Red) (a : Nat) :
    owned { m with tick := t, odp := o, red := r } a = owned m a := rfl

theorem witness_word_free : owned srv.mod 0x1234 = false := by decide +kernel

theorem witness_ImageRequests : requestNew srv (rq 1 1 0x83FF 255 0 []) sess ∧ srv.mod.ticking = true ∧ imageReq (rq 1 1 0x83FF 255 0 []) ∧
    imageAddr 0x83FF 255 + 1 = 2 ^ 18 ∧ imageAddr 0x83FE 163 + 349 = 2 ^ 18 ∧ srv.mod.stopped fnEngine = false ∧ 1 ≤ sess.role.rank := by
  unfold requestNew requestFit idleLanesEmpty solo imageReq; decide +kernel

theorem witness_ImageRequests_write (r : Req) : owned (noted r sess srv.mod) (imageAddr 0x8012 0x34) = false ∧
    owned (noted r sess srv.mod) (imageAddr 0x8012 0x36) = true := by
  rw [owned_noted, owned_noted]; exact ⟨witness_word_free, by decide +kernel⟩

theorem witness_ImageRequests_block : let r := rq 4 0 0x8012 0x34 1 ([7].map (leBytes 4)).flatten
    let r' := rq 4 0 0x8012 0x36 1 ([7].map (leBytes 4)).flatten
    r.operand = [7].length ∧ r.data = ([7].map (leBytes 4)).flatten ∧
    (∀ i, i < [7].length → owned (noted r sess srv.mod) (imageAddr r.index r.sub + i) = false) ∧
    owned (noted r' sess srv.mod) (imageAddr r'.index r'.sub + 0) = true := by
  refine ⟨rfl, rfl, fun i h => ?_, (witness_ImageRequests_write _).2⟩
  have : i = 0 := by simp at h; exact h
  subst this; exact (witness_ImageRequests_write _).1

theorem witness_StartAndStop : fnReq srv (rq 5 0 0 0 fnDisp []) sess ∧ (srv.mod.fn fnDisp).st = .stopped ∧ range 0x548 0x549 fnDisp = false ∧
    (startChecks fnDisp (noted (rq 5 0 0 0 fnDisp []) sess srv.mod)).1 = stOk := by
  unfold fnReq requestNew requestFit idleLanesEmpty solo; decide +kernel

theorem witness_StartAndStop_states : (srv4.mod.fn (fnTask 0)).st = .starting ∧ (srv4.mod.fn (fnTask 1)).st = .running ∧
    (srv4.mod.fn (fnTask 2)).st = .stopping ∧ ∀ k ∈ [0, 1, 2], fnReq srv4 (rq 6 0 0 0 (fnTask k) []) sess ∧
    hasChild (noted (rq 6 0 0 0 (fnTask k) []) sess srv4.mod) (fnTask k) = false ∧
    stopRefused (noted (rq 6 0 0 0 (fnTask k) []) sess srv4.mod) (fnTask k) = false := by
  unfold fnReq requestNew requestFit idleLanesEmpty solo; decide +kernel

/-- Bank 0 is in use with the highest sequence; with `b`, a SAVE of the session writes bank 1. -/
def Sys2Proof.Tests.saving (b : Bool) : State :=
  let m : Module := (srv.mod.setStat Ent.cfgActiveBank 0).setStat Ent.cfgActiveSequence 0xFFFFFFFF
  { srv with mod := if b then { m with
      odp := { m.odp with save := some ⟨5, rq 7 0 0 0 0 [], 1, 0⟩ },
      nv := { m.nv with bank1 := some ⟨false, false, 0, T80.zero, 0, ⟨[], [], [], [], []⟩⟩ } } else m }

theorem witness_SaveAndItsEnd : requestNew (saving false) (rq 7 0 0 0 0 []) sess ∧ 2 ≤ sess.role.rank ∧ (saving false).mod.stat Ent.bootReady ≠ 0 ∧
    (saving false).mod.odp.save = none ∧ (saving false).mod.stat Ent.cfgActiveBank = 0 := by
  unfold requestNew requestFit idleLanesEmpty solo; decide +kernel

theorem witness_SaveAndItsEnd_end : let s := saving true
    s.mod.odp.save = some ⟨5, rq 7 0 0 0 0 [], 1, 0⟩ ∧ (s.mod.bank 1).isSome = true ∧ solo s.mod ∧ s.mod.agate.raised = [] ∧
    (rq 7 0 0 0 0 []).fr.session = 5 ∧ s.mod.odp.sessions.find? (fun z => z.id == 5) = some sess ∧ sess.tx + 1 < 2 ^ 48 := by
  unfold solo; decide +kernel

/-- A hello from peer 9 on the service port. -/
def Sys2Proof.Tests.hello : Hello := ⟨9, [], 2, 3, [], [], [], []⟩

/-- A handshake of a peer. -/
def Sys2Proof.Tests.hs (peer : Nat) : Handshake := ⟨peer, [], 2, .service, [], [], [], [], []⟩

theorem witness_HandshakesAndSessions : let s := served fun m => { m with odp := { m.odp with handshakes := [hs 9] } }
    odpUp s.fuses s.mod 2 = true ∧ s.mod.agate.raised = [] ∧ s.mod.standby = false ∧ s.mod.odp.sessions.length < 8 ∧
    (s.mod.odp.handshakes.filter fun y => y.peer != hello.peer).length < 2 ∧
    2 ≤ ((served fun m => { m with odp := { m.odp with handshakes := [hs 1, hs 2] } }).mod.odp.handshakes.filter fun y => y.peer != hello.peer).length ∧
    s.mod.odp.handshakes.find? (fun y => y.peer == 9) = some (hs 9) ∧
    s.mod.odp.sessions.find? (fun y => y.id == sess.id) = some sess ∧ s.mod.acq.session ≠ sess.id := by decide +kernel

theorem witness_HandshakesAndSessions_close : requestNew srv (rq 15 0 0 0 0 []) sess ∧ srv.mod.acq.session ≠ sess.id := by
  unfold requestNew requestFit idleLanesEmpty solo; decide +kernel

theorem witness_Subscriptions : requestNew srv (rq 8 0 0 0 0 (imageList 50000000 true [2 ^ 18 - 1])) sess ∧
    (srv.mod.odp.subs.filter fun y => y.session == sess.id).length < 16 ∧ srv.mod.odp.subs.length < 64 := by
  unfold requestNew requestFit idleLanesEmpty solo; decide +kernel

/-- A subscription of word 1234h every 50 ticks at epoch `e`. -/
def Sys2Proof.Tests.subbed (e : Nat) : State :=
  { srv with mod := { srv.mod with
      tick := { srv.mod.tick with epoch := some e, cycle := 3920 },
      odp := { srv.mod.odp with subs := [⟨7, 5, 50, false, [keyOf 0x8012 0x34], none, 0xFFFFFFFF⟩] } } }

theorem witness_Subscriptions_pass : let s := subbed 100
    idleLanesEmpty s.mod ∧ s.mod.tick.epoch = some 100 ∧ s.mod.tick.cycle ≤ 3920 ∧ s.mod.ticking = true ∧ s.mod.power.recovery = false ∧
    s.mod.agate.raised = [] ∧ (∃ y, (s.mod.odp.subs.filter fun y => 100 % y.period == 0) = [y] ∧ y.onChange = false ∧
      (s.mod.odp.subs.filter fun z => z.handle == y.handle) = [y] ∧
      y.keys = [0x1234].map (fun a => keyOf (0x8000 + a / 256) (a % 256)) ∧
      s.mod.odp.sessions.find? (fun z => z.id == y.session) = some sess) ∧
    ∀ y ∈ (subbed 101).mod.odp.subs, 101 % y.period ≠ 0 := by
  unfold idleLanesEmpty
  refine ⟨by decide, by decide, by decide, by decide, by decide, by decide, ⟨⟨7, 5, 50, false, [keyOf 0x8012 0x34], none, 0xFFFFFFFF⟩, ?_⟩, by decide⟩
  decide +kernel

/-- The row of `acq.win[w].list`: a DOM that a session may write while its window is STOPPED. -/
def Sys2Proof.Tests.winRow : Row := ⟨0x3C40, 16, 0x01, 1, 1, .dom, .rws, 0, 2048, any⟩

theorem witness_winRow : rowAt 0x3C43 1 = some winRow := by rfl

/-- A write transfer of it with two of three bytes, a value held for reading, and a held export. -/
def Sys2Proof.Tests.moving : State :=
  { srv with mod := { srv.mod with
      odp := { srv.mod.odp with
        domWrites := [⟨keyOf 0x3C43 1, 5, 3, [1, 2], some (0, [1, 2])⟩], domReads := [⟨keyOf 0x3C43 1, 5, [1, 2, 3]⟩],
        exports := [⟨5, 0x10, 0, [1, 2, 3], T80.zero⟩] } } }

theorem witness_DomWriteTransfers (s : State) (h : s = srv ∨ s = moving) (op flags operand : Nat) (data : List Byte) :
    let r := rq op flags 0x3C43 1 operand data
    domReq s r winRow ∧ needRank s.fuses (keyOf 0x3C43 1) 0 ≤ sess.role.rank ∧ winRow.access 0x3C43 1 = .rws ∧
      (∀ f, ownerOf (keyOf 0x3C43 1) = some f → s.mod.stopped f = true) ∧ keyOf 0x3C43 1 ≠ Ent.flintLoad ∧ range 0x1810 0x1817 0x3C43 = false ∧
      (∀ y ∈ s.mod.odp.domWrites, y.key = keyOf 0x3C43 1 → y.session = sess.id) ∧ signedKind (keyOf 0x3C43 1) = none ∧
      keyOf 0x3C43 1 ≠ Ent.dispGraph := by
  have hf : ownerOf (keyOf 0x3C43 1) = some (fnWin 3) := by decide +kernel
  have he : entryStatus srv.mod 0x3C43 1 = stOk ∧ entryStatus moving.mod 0x3C43 1 = stOk := by decide +kernel
  have hi : isImage 0x3C43 = false := by decide
  refine ⟨⟨hi, ?_, witness_winRow, rfl⟩, ?_, by decide +kernel, ?_, by decide, by decide, ?_, by decide +kernel, by decide⟩
  · rcases h with h | h <;> subst h
    · exact he.1
    · exact he.2
  · rcases h with h | h <;> subst h <;> decide +kernel
  · intro f e; rw [hf] at e; cases e; rcases h with h | h <;> subst h <;> decide +kernel
  · rcases h with h | h <;> subst h <;> decide

theorem witness_DomWriteTransfers_steps : requestNew srv (rq 2 2 0x3C43 1 2048 []) sess ∧ requestNew moving (rq 2 4 0x3C43 1 2 [3]) sess ∧
    (openDom moving.mod (keyOf 0x3C43 1) = some ⟨keyOf 0x3C43 1, 5, 3, [1, 2], some (0, [1, 2])⟩) ∧ (2048 : Nat) ≤ winRow.max := by
  unfold requestNew requestFit idleLanesEmpty solo; decide +kernel

theorem witness_DomReadsAndExports : requestNew moving (rq 1 4 0x3C43 1 3 []) sess ∧ winRow.access 0x3C43 1 ≠ .wo ∧
    (keyOf 0x3C43 1 ≠ Ent.dbgChallenge ∧ range 0x3800 0x3807 0x3C43 = false) ∧
    heldDom moving.mod sess.id (keyOf 0x3C43 1) = some ⟨keyOf 0x3C43 1, 5, [1, 2, 3]⟩ ∧ heldDom srv.mod sess.id (keyOf 0x3C43 1) = none := by
  unfold requestNew requestFit idleLanesEmpty solo; decide +kernel

theorem witness_DomReadsAndExports_export : exportObject (noted (rq 9 2 0 0 (0x10 * 2 ^ 24) []) sess srv.mod) 0x10 0 = .ok srv.mod.agateExport ∧
    (moving.mod.odp.exports.find? (sameExport sess.id 0x10 0)).isSome = true ∧ (rq 9 4 0 0 (0x10 * 2 ^ 24) (leBytes 8 3)).data.length = 8 ∧
    leNat (leBytes 8 3) ≤ 3 ∧ requestNew moving (rq 9 4 0 0 (0x10 * 2 ^ 24) (leBytes 8 3)) sess := by
  refine ⟨by rfl, ?_⟩
  unfold requestNew requestFit idleLanesEmpty solo; decide +kernel

/-! ### Security, boot, power -/

/-- A powered module at debug level `level`, lane 2 halted in an operation at the first word of an image of one NOP. -/
def Sys2Proof.Tests.dbg (level : Nat) : State :=
  near fun m => Module.setCfgB Ent.kimgImage (leBytes 8 0 ++ leBytes 2 1 ++ leBytes 2 1 ++ List.replicate 28 0 ++ leBytes 4 0xD0000000)
    { m with
      power := { m.power with pwrOk := true }, sec := { m.sec with level := level, cores := [1] }, funcs := [(fnKernel, { FuncRec.init with st := .running })],
      lanes := [(2, { Lane.init with halted := true, op := some (ctxOf (some 5)), pc := 0x8000 })] }

theorem witness_BoundaryScan : jtagOn (dbg 3).mod = true ∧ (dbg 3).mod.sec.level = 3 ∧ (dbg 0).mod.sec.level ≠ 3 ∧ (dbg 0).mod.agate.raised = [] ∧
    jtagOn (near fun m => { m with power := { m.power with pwrOk := false } }).mod = false ∧ (dbg 0).mod.sec.level = 0 ∧ portRow .jtagClamp = true := by
  decide +kernel

theorem witness_DebugAccess : jtagOn (dbg 2).mod = true ∧ (dbg 2).mod.agate.raised = [] ∧ 2 ≤ (dbg 2).mod.sec.level ∧ (dbg 1).mod.sec.level < 2 ∧
    (dbg 2).mod.stopped fnEngine = true ∧ (dbg 2).mod.red.st = 0 ∧ unitHalted (dbg 2).mod (.lane 3) = false ∧ ((dbg 2).mod.lane 2).halted = true ∧
    laneTarget (.mem 524287) = true ∧ laneTarget (.x true 15) = true ∧ 1 ∈ (dbg 2).mod.sec.cores ∧
    ((dbg 2).mod.lane 2).op = some (ctxOf (some 5)) ∧ pcIn (dbg 2).mod ((dbg 2).mod.lane 2).pc = .image 0xD0000000 ∧
    laneDecode 0xD0000000 = some .nop ∧ LaneOp.nop.romOnly = false ∧
    ¬ ((near fun m => { m with red := { m.red with st := 3 } }).mod.stopped fnEngine = true ∧
      ((near fun m => { m with red := { m.red with st := 3 } }).mod.red.st = 0 ∨ (near fun m => { m with red := { m.red with st := 3 } }).mod.red.st = 5)) := by
  decide +kernel

theorem test_debug_step_runs : nextIs (exec (.jtagStep (.lane 2)) (dbg 2)) (fun m => (m.lane 2).pc == 0x8001 && (m.lane 2).halted) = true := by
  decide +kernel

/-- The module in boot phase `p`, running from its PLLs. -/
def Sys2Proof.Tests.booting (p : Nat) (f : Module → Module) : State :=
  near fun m => f (Module.setStat Ent.bootPhase p { m with power := { m.power with stage := .run } })

/-- A valid bank of a sequence number. -/
def Sys2Proof.Tests.bankOf (seq : Nat) : Bank := ⟨true, true, seq, T80.zero, 0, ⟨[(keyOf 0x2000 0x60, 1)], [], [(Ent.agateWarnLevel, 7)], [], [fnEngine]⟩⟩

theorem witness_TokensAndLifecycleReset : let s := served fun m => { m with
      sec := { m.sec with level := 2, debugTok := some ⟨1, T80.zero⟩, serviceTok := some ⟨2, T80.zero⟩ }, lanes := [(2, { Lane.init with halted := true })] }
    s.mod.sec.debugTok.isSome = true ∧ s.mod.sec.level ≠ 0 ∧ (∀ y ∈ s.mod.odp.sessions, y.id ≠ 0) ∧ Sparse.risesFrom none s.mod.lanes = true ∧
    s.mod.sec.serviceTok.isSome = true := by decide +kernel

theorem witness_TokensAndLifecycleReset_reset : let s : State := { near (fun m => { m with sec := { m.sec with lifecycleDue := true } }) with fuses := ⟨[4, 1], 0, true, true⟩ }
    s.mod.sec.lifecycleDue = true ∧ s.fuses.eraseDue = true ∧ s.fuses.lifecycle = 4 ∧ State.reset.mod.sec.lifecycleDue = false ∧
    ({ s with fuses := ⟨[1, 3, 2, 1], 0, true, true⟩ } : State).fuses.rows.tail.headD 0 = 3 ∧ State.reset.fuses.eraseDue = false := by decide

theorem witness_RuntimeAndBootScan : let s := booting 0 (fun m => { m with nv := { m.nv with flash0 := [], flash1 := [], slotPref := 1 } })
    s.mod.power.stage = .run ∧ s.mod.stat Ent.bootPhase = 0 ∧ s.mod.power.recovery = false ∧ s.fuses.lifecycle ≠ 4 ∧ s.mod.nv.slotPref < 2 ∧
    ¬ slotPasses s 0 ∧ ¬ slotPasses s 1 ∧ (booting 2 id).mod.power.stage = .run ∧ (booting 2 id).mod.stat Ent.bootPhase = 2 ∧
    (booting 2 id).mod.power.recovery = false := by
  unfold slotPasses; decide +kernel

theorem witness_BankImagesStartsReady : let s := booting 3 (fun m => { m with nv := { m.nv with bank0 := some (bankOf 0xFFFFFFFF), bank1 := some (bankOf 0), saveOpen := true } })
    s.mod.power.stage = .run ∧ s.mod.power.recovery = false ∧ s.mod.stat Ent.bootPhase = 3 ∧ s.mod.bank 1 = some (bankOf 0) ∧
    bankGood (some (bankOf 0)) = true ∧ s.mod.nv.ptr = none ∧ s.mod.bank 0 = some (bankOf 0xFFFFFFFF) ∧ newerSeq 0 0xFFFFFFFF ∧
    Sparse.risesFrom none (bankOf 0).body.rw = true ∧ Sparse.risesFrom none (bankOf 0).body.rws = true ∧
    bankGood (booting 3 id).mod.nv.bank0 = false ∧ bankGood (booting 3 id).mod.nv.bank1 = false := by
  unfold newerSeq; decide +kernel

theorem witness_BankImagesStartsReady_pointer : pointsTo (booting 3 (fun m => { m with nv := { m.nv with bank1 := some (bankOf 4), ptr := some ⟨1, 254, 4⟩ } })).mod 1 :=
  ⟨⟨1, 254, 4⟩, by decide, by decide, by decide, by decide, by decide⟩

theorem witness_BankImagesStartsReady_images : let s := booting 4 (Module.setShadB Ent.kimgImage [1])
    s.mod.stat Ent.bootPhase = 4 ∧ (fnKernel, Ent.kimgImage) ∈ bankImages ∧ signedKind Ent.kimgImage = some 2 ∧ s.mod.shadB Ent.kimgImage ≠ [] ∧
    (sigCheck s.fuses 2 (s.mod.shadB Ent.kimgImage) s.mod).1 ≠ 0 ∧ (booting 5 id).mod.stat Ent.bootPhase = 5 ∧ (booting 5 id).mod.power.booted = false ∧
    (booting 5 id).mod.bootRunning.filter isFn = [] ∧ (booting 5 id).mod.power.dramFault = false ∧ (booting 5 id).mod.red.hold = false := by decide +kernel

/-- A module out of its bay, seated, charging or running, in a phase of ride-through. -/
def Sys2Proof.Tests.bay (i : Insertion) (r : RidePhase) (f : Power → Power) : State :=
  near fun m => { m with power := f { m.power with insertion := i, ride := r } }

theorem witness_ClocksStartAndTrip : let s := bay .released .none (fun p => { p with stage := .off, pwrOk := true })
    s.mod.power.stage = .off ∧ s.mod.power.insertion = .released ∧ s.mod.power.pwrOk = true ∧
    (near fun m => { m with power := { m.power with stage := .plls } }).mod.power.stage = .plls ∧
    bit ((near fun m => { m with power := { m.power with stage := .plls } }).mod.stat Ent.clkPllLock) 3 = false ∧
    (near fun m => { m with power := { m.power with switching := [.mgmt, .loop] } }).mod.power.switching.contains .loop = true ∧
    (near (Module.setStat Ent.clkMonitorArmed 1)).mod.stat Ent.clkMonitorArmed ≠ 0 ∧ (near (Module.setStat Ent.clkMonitorArmed 1)).mod.cfault = false ∧
    State.reset.mod.stat Ent.clkRcFault = 0 := by decide +kernel

theorem witness_RideThrough : let s := bay .released .none id
    s.mod.power.ride = .none ∧ (near (Module.setStat Ent.bootReady 1)).mod.stat Ent.pwrState ≠ 2 ∧ (near (Module.setStat Ent.bootReady 1)).mod.stat Ent.bootReady ≠ 0 ∧
    s.mod.stat Ent.bootReady = 0 ∧ (bay .released .persist id).mod.stat Ent.clkStep ≤ 2 ∧
    (bay .released .persist id).mod.agate.queue = [] ∧ (bay .released .persist id).mod.agate.raised = [] ∧
    (bay .released .persist fun p => { p with inputGood := true }).mod.power.inputGood = true ∧
    (bay .released .persist fun p => { p with inputGood := true }).mod.power.thermalHold = false := by decide +kernel

theorem energyUj_eq (mv x : Nat) (h : mv * mv - 900000000 = x) : energyUj mv = Config.bankUf % 65536 * x / 2000000 := by subst h; rfl

theorem energy_above (c x : Nat) (h : 189 ≤ c) (hx : 1404000000 ≤ x) : 132500 < c * x / 2000000 :=
  Nat.lt_of_lt_of_le (by decide : 132500 < 189 * 1404000000 / 2000000) (Nat.div_le_div_right (Nat.mul_le_mul h hx))

theorem witness_RideThrough_energy : energyUj 0 ≤ 132500 ∧ (189 ≤ Config.bankUf % 65536 → 132500 < energyUj 48000) := by
  refine ⟨?_, fun h => ?_⟩
  · rw [energyUj_eq 0 0 (by decide), Nat.mul_zero, Nat.zero_div]; exact Nat.zero_le _
  · rw [energyUj_eq 48000 _ rfl]; exact energy_above _ _ h (by decide)

theorem witness_GatesDeepThermalInsertion :
    (near fun m => { m with power := { m.power with gateReq := [13] } }).mod.power.gateReq.contains (13 : Fin 14).val = true ∧
    (near fun m => { m with power := { m.power with deepEntry := true } }).mod.power.deepEntry = true ∧
    (near (Module.setStat Ent.pwrState 2)).mod.stat Ent.pwrState = 2 ∧
    bit ((near (Module.setBoth Ent.pwrWakeMask 16)).mod.cfg Ent.pwrWakeMask) (4 : Fin 5) = true ∧
    (bay .released .held fun p => { p with thermalHold := true }).mod.power.thermalHold = true ∧
    (bay .rails .none id).mod.power.insertion = .rails ∧ (near (Module.setStat Ent.modThermal 1)).mod.stat Ent.modThermal = 1 := by decide +kernel

theorem test_glitch_counts : nextIs (exec (.presentNGlitch 1) (bay .released .none id)) (fun m => m.stat Ent.modPresentGlitches == 1) = true := by
  decide +kernel

theorem test_charge_time_saturates : nextIs (exec (.bankCharged 70000) (bay .charging .none id))
    (fun m => m.stat Ent.modChargeMs == 65535 && m.power.insertion == .charged && m.power.diode && !m.power.charger) = true := by decide +kernel

/-! ### Time -/

/-- An announce of a grandmaster; `k` sets its identity apart. -/
def Sys2Proof.Tests.ann (k : Nat) : Announce := ⟨0, State.reset.mod.cfg Ent.ptpDomain, k, 1, true, 99, 128, 6, 0x21, 100, 128, 0, 37, true, false, false⟩

/-- The time unit runs in a state, with that master on KR0. -/
def Sys2Proof.Tests.timed (st : TState) (f : Time → Time) : State :=
  near fun m => Module.setStat Ent.ptpPortActive 0 { m with
    funcs := [(fnTime, { FuncRec.init with st := .running })], tick := { m.tick with epoch := some 100, cycle := 50 },
    time := f { m.time with st := st, ctr := 10 ^ 12 * 2 ^ 32, master := some (ann 77), delays := [100, 102], lastMeas := some (999 * 10 ^ 9 * 2 ^ 32) } }

/-- A message of the master, with a time it carries. -/
def Sys2Proof.Tests.ptp (twoStep : Bool) (origin : Int) : PtpMsg := ⟨0, State.reset.mod.cfg Ent.ptpDomain, 77, 1, 5, twoStep, origin, 0, 0⟩

theorem witness_PtpMeasures : ∀ b : Bool, masterSent (timed .locked id) (ptp b 7) ∧ (timed .locked id).mod.agate.raised = [] ∧
    (timed .locked id).mod.time.delays ≠ [] ∧ (timed .locked fun t => { t with delays := [] }).mod.time.delays = [] ∧
    ¬ masterSent (timed .locked id) { ptp b 7 with port := 2 } := by
  intro b
  have hp : (timed .locked id).mod.stat Ent.ptpPortActive = 0 := by decide +kernel
  refine ⟨⟨by decide +kernel, rfl, hp, ann 77, rfl, rfl, rfl⟩, by decide +kernel, by decide +kernel, by decide +kernel, ?_⟩
  rintro ⟨-, -, -, a, h, -, k⟩
  cases h; cases k

theorem witness_PtpMeasures_replies : let s := timed .locked fun t => { t with sync := some ⟨5, 1000, 0⟩, dreq := some (5, 2000), msDiff := some 300 }
    s.mod.time.sync = some ⟨5, 1000, 0⟩ ∧ (ptp true 7).seq = 5 ∧ s.mod.time.dreq = some (5, 2000) ∧ s.mod.time.msDiff = some 300 ∧
    masterSent s { ptp true 7 with toIdentity := Config.clockIdentity } ∧ s.mod.running fnTime = true ∧ s.mod.time.master.isSome = true ∧
    s.mod.time.st ≠ .master :=
  ⟨rfl, rfl, rfl, rfl, ⟨by decide +kernel, rfl, by decide +kernel, ann 77, rfl, rfl, rfl⟩, by decide +kernel, rfl, by decide +kernel⟩

theorem witness_PtpMeasures_measured : let v := (timed .locked id).mod
    plainThreshold v ∧ v.time.st = .locked ∧ v.time.gmJump = false ∧ (0 : Int).natAbs ≤ v.cfg Ent.timeJumpThreshold ∧
    v.cfg Ent.timeJumpThreshold < (10 ^ 12 : Int).natAbs ∧ (999 * 10 ^ 9 * 2 ^ 32 < v.time.ctr) ∧
    (timed .acquiring fun t => { t with stepped := true, lockRun := 15 }).mod.time.lockRun = 15 ∧ (0 : Int).natAbs < v.cfg Ent.timeLockWindow ∧
    (timed .acquiring fun t => { t with agree := [1, 2] }).mod.time.agree = [1, 2] ∧ v.stopped fnEngine = true := by
  unfold plainThreshold; decide +kernel

theorem witness_MastersAndCalendar : let s : State := { timed .locked id with mod := (timed .locked id).mod.setCfg Ent.ptpPortSelect 2 }
    let a := ann (Config.clockIdentity + 1)
    s.mod.running fnTime = true ∧ a.domain = s.mod.cfg Ent.ptpDomain ∧ a.identity ≠ Config.clockIdentity ∧ a.ptpScale = true ∧ s.mod.cfg Ent.ptpPortSelect ≤ 2 := by
  refine ⟨by decide +kernel, by decide +kernel, ?_, rfl, by decide +kernel⟩
  exact Nat.succ_ne_self _

theorem witness_MastersAndCalendar_rows : (timed .acquiring id).mod.time.st = .acquiring ∧ (timed .locked id).mod.cfg Ent.ptpMode ≠ 1 ∧
    (∀ x ∈ (timed .locked fun t => { t with heard := [(3, ann 77)] }).mod.time.heard, ∃ y, (timed .locked id).mod.time.master = some y ∧
      x.2.identity = y.identity ∧ x.2.port = y.port ∧ x.2.link = y.link) ∧
    (timed .master id).mod.time.st = .master ∧ (timed .locked id).mod.cfgOn Ent.calAutoTrim = true ∧
    bit ((near (Module.setStat Ent.timeLeap 2)).mod.stat Ent.timeLeap) 1 = true := by
  refine ⟨rfl, by decide +kernel, ?_, rfl, by decide +kernel, by decide +kernel⟩
  intro x h
  have : x = (3, ann 77) := List.mem_singleton.mp h
  subst this; exact ⟨ann 77, rfl, rfl, rfl, rfl⟩

theorem witness_CalendarLossLatches : let s := booting 5 (fun m => { m with cal := { m.cal with lost := true }, power := { m.power with dramFault := true } })
    s.mod.cal.lost = true ∧ s.mod.power.stage = .run ∧ s.mod.stat Ent.bootPhase = 5 ∧ s.mod.power.recovery = false ∧ s.mod.power.booted = false ∧
    s.mod.power.dramFault = true := by decide +kernel

/-! ### Field bus -/

/-- Port 2 up as `x`, in epoch 100, with station 4 of ID 123h and a filter of all else. -/
def Sys2Proof.Tests.bus (x : Port) (f : Module → Module) : State :=
  near fun m => f ((((({ m with
    funcs := [(fnEngine, { FuncRec.init with st := .running }), (fnPort 2, { FuncRec.init with st := .running })],
    red := { m.red with hold := true }, tick := { m.tick with epoch := some 100, cycle := 50 }, ports := [(2, x)] } : Module).setCfg (Ent.fbstInId 2 4) 0x123).setCfg
    (Ent.fbstInLen 2 4) 4).setCfg (Ent.fbstTimeout 2 4) 3).setCfg (Ent.fbstRejoin 2 4) 2)

/-- A frame pending since tick 3. -/
def Sys2Proof.Tests.pf (id : Nat) : PendFrame := ⟨⟨id, [1, 2]⟩, 3, 50, false, false, false⟩

/-- A port that is error active in its first basic cycle. -/
def Sys2Proof.Tests.port0 : Port := { Port.init with bus := 2, tec := 5, recv := 127, basic := some 0 }

theorem witness_PortFramesErrorsSleep : let x := { withObj port0 3 ⟨some { pf 0x55 with started := true }, some (pf 0x66), 0⟩ with wire := .obj 3 }
    let s := bus x id
    s.mod.agate.raised = [] ∧ (s.mod.port 2).wire = .obj 3 ∧ ((s.mod.port 2).obj 3).cur = some { pf 0x55 with started := true } ∧ onBus (s.mod.port 2) ∧ s.mod.holder = true ∧
    (s.mod.port 2).tec + 8 < 256 ∧ 256 ≤ (bus { x with tec := 248, bus := 3 } id |>.mod.port 2).tec + 8 := by
  unfold onBus; decide +kernel

theorem witness_PortFramesErrorsSleep_received : let s := bus port0 (Module.setCfg (Ent.fbFilter 2 7) (2 ^ 63))
    (s.mod.port 2).recv ≤ 127 ∧ (s.mod.port 2).wire = .none ∧ stationOf s.mod 2 0x123 = some 4 ∧ s.mod.holder = true ∧
    s.mod.cfg (Ent.fbstInLen 2 4) ≤ [1, 2, 3, 4].length ∧ [1, 2, 3].length < s.mod.cfg (Ent.fbstInLen 2 4) ∧ stationOf s.mod 2 0x124 = none ∧
    filterOf s.mod 2 0x124 = some 7 ∧ bit (s.mod.cfg (Ent.fbFilter 2 7)) 59 = false ∧ (s.mod.port 2).rx.length < 512 ∧
    filterOf (bus port0 id).mod 2 0x124 = none ∧ ¬ onBus (bus { port0 with bus := 6 } id |>.mod.port 2) ∧
    (bus { port0 with bus := 7 } id |>.mod.port 2).bus = 7 ∧ onBus ((bus port0 fun m => { m with red := { m.red with hold := false, lines := 1 } }).mod.port 2) ∧
    (bus port0 fun m => { m with red := { m.red with hold := false, lines := 1 } }).mod.holder = false := by
  unfold onBus; decide +kernel

theorem witness_PortFramesErrorsSleep_states : let s := bus { Port.init with bus := 5, sleepReq := true } id
    (s.mod.port 2).bus = 5 ∧ s.mod.holder = true ∧ (s.mod.port 2).sleepAfter = false ∧ quietPort (s.mod.port 2) ∧ (s.mod.port 2).sleepReq = true ∧
    ((bus { Port.init with bus := 6 } (Module.setCfg (Ent.fbWakeMode 2) 1)).mod.cfg (Ent.fbWakeMode 2) = 1) ∧
    wakeMatch (bus { Port.init with bus := 6 } (Module.setCfg (Ent.fbWakeMode 2) 2)).mod 2 ⟨0, []⟩ = true ∧
    (bus { port0 with queue := [pf 9, pf 8] } (Module.setCfg (Ent.fbFallbackAge 2) 97)).mod.cfg (Ent.fbFallbackOrder 2) = 0 ∧
    portUp (bus port0 id).mod 2 = true ∧ (pf 9).tick + 97 ≤ 100 := by
  unfold quietPort; decide +kernel

/-- A matrix of 100 ticks whose window 1 opens at cycle 60 of its first tick, a slot of station 4. -/
def Sys2Proof.Tests.matrix : List Byte :=
  leBytes 6 0 ++ leBytes 2 100 ++ [2, 1] ++ List.replicate 34 0 ++ leBytes 2 0 ++ leBytes 2 60 ++ leBytes 8 0 ++ leBytes 2 0 ++ leBytes 2 (2 * 2 ^ 13 + 4)

theorem witness_WindowsAndStations : let s := bus { withStation port0 4 { Station.init with st := 1, misses := 3, good := 2 } with checkDue := [4] } (Module.setCfgB (Ent.fbMatrix 2) matrix)
    portUp s.mod 2 = true ∧ outObject s.mod.cfg 2 4 = none ∧ ((s.mod.port 2).station 4).st ≠ 2 ∧ s.mod.cfg (Ent.fbstTimeout 2 4) ≤ ((s.mod.port 2).station 4).misses ∧
    s.mod.cfg (Ent.fbstRejoin 2 4) ≤ ((s.mod.port 2).station 4).good ∧ (s.mod.port 2).bus ≠ 6 ∧ s.mod.holder = true ∧ (4 : Fin 32).val ∈ (s.mod.port 2).checkDue ∧
    s.mod.tick.epoch = some 100 ∧ (s.mod.port 2).basic = some 0 ∧ 1 < mxW (s.mod.cfgB (Ent.fbMatrix 2)) ∧
    windowAt (s.mod.cfgB (Ent.fbMatrix 2)) 100 1 / 4000 = 100 ∧ s.mod.tick.cycle ≤ windowAt (s.mod.cfgB (Ent.fbMatrix 2)) 100 1 % 4000 ∧
    mxKind matrix 1 = 0 ∧ cellKind (mxCell matrix 0 1) = 2 := by decide +kernel

theorem witness_WindowsAndStations_end : let s := bus { port0 with window := some 1 } (Module.setCfgB (Ent.fbMatrix 2) matrix)
    (s.mod.port 2).window = some 1 ∧ (s.mod.port 2).wire = .none ∧ windowObj (s.mod.cfgB (Ent.fbMatrix 2)) 0 1 = none := by decide +kernel

/-! ### Onboard I/O and the trunk -/

/-- Discrete inputs and outputs, current output 9 and trunk link 1 run in epoch 100; channel 9 of link 1 writes word 1234h, which an instance waits for. -/
def Sys2Proof.Tests.ioSt (f : Module → Module) : State :=
  near fun m => f (((((({ m with
    funcs := [(fnEngine, { FuncRec.init with st := .running }), (fnTrunk 1, { FuncRec.init with st := .running }), (fnDi, { FuncRec.init with st := .running }),
      (fnDo, { FuncRec.init with st := .running }), (fnChan 9, { FuncRec.init with st := .running })],
    tick := { m.tick with epoch := some 100, cycle := 50 }, disp := { m.disp with insts := [⟨inNumber 1 9, 0, 100, [], .waiting, 0, 0, false, 0⟩] } }
    : Module).setCfg (Ent.trunkChan 1 9) 0x1234).setStat (Ent.trunkState 1) 2).setCfg (Ent.chanMode 9) 5).setCfg (Ent.trunkRbBase 1) 0xFFFFFFFF))

/-- A frame of epoch 100 whose two blocks are good. -/
def Sys2Proof.Tests.goodFrame : List Byte :=
  let be := fun (v : Nat) => [BitVec.ofNat 8 (v / 256), BitVec.ofNat 8 v]
  let recs : List Byte := (List.range 8).flatMap fun k => leBytes 3 (0x812345 + k)
  let head : List Byte := [0xA5, 100, 2, 0, 0, 0]
  head ++ be (crc16 (head.drop 1)) ++ recs ++ be (crc16 recs) ++ recs ++ be (crc16 recs)

theorem witness_OnboardPoints : let s := ioSt (modChan 9 fun x => { x with complCount := 65535 })
    s.mod.active (fnChan 9) = true ∧ isOutput s.mod 9 = true ∧ (s.mod.chan 9).alarm = false ∧ (s.mod.chan 9).complCount ≠ 0 ∧
    s.mod.cfg (Ent.chanComplTime 9) ≤ (s.mod.chan 9).complCount ∧ Sparse.get (fun _ => 0) s.mod.io.bankFault 7 = 0 ∧
    Sparse.get (fun _ => 0) (ioSt fun m => { m with io := { m.io with bankFault := [(7, 3)] } }).mod.io.bankFault 7 ≠ 0 ∧ s.mod.active fnDi = true ∧
    s.mod.active fnDo = true ∧ Sparse.get (fun _ => 0) s.mod.io.doCause 31 ≠ 4 := by decide +kernel

theorem witness_OnboardPoints_di : let s := ioSt fun m => { m with io := { m.io with diCount := [(31, 65536)], doOff := 2 ^ 31 } }
    s.mod.cfg (Ent.diFilter 31) + 1 ≤ Sparse.get (fun _ => 0) s.mod.io.diCount 31 ∧ bit s.mod.io.doOff 31 = true ∧
    (s.mod.setCfg Ent.doRetry 1).cfg Ent.doRetry ≠ 0 := by decide +kernel

theorem witness_TrunkLinks : let s := ioSt id
    trunkUp s.mod 1 = true ∧ trunkUp s.mod 0 = false ∧ (s.mod.trunk 1).seen = false ∧
    s.mod.cfg (Ent.trunkLossLimit 1) ≤ ((ioSt (modTrunk 1 fun x => { x with lost := 255 })).mod.trunk 1).lost + 1 ∧ solo s.mod ∧ frameOk goodFrame 100 = true ∧
    frameOk goodFrame 101 = false ∧ blockOk goodFrame 1 = true ∧ blockOk goodFrame 2 = false ∧ linkLanding s.mod 1 1 ≤ 1200 ∧ s.mod.tick.cycle ≤ 1200 ∧
    1 ∉ (s.mod.trunk 1).landed ∧ s.mod.forces = [] ∧ isAddr (s.mod.cfg (Ent.trunkRbBase 1)) = false ∧ (9, 0x1234) ∈ trunkMap s.mod 1 := by
  unfold solo; decide +kernel

theorem witness_TrunkLinks_timeout : let s := ioSt id
    s.mod.active (fnTrunk 1) = true ∧ mapUsed (s.mod.cfg (Ent.trunkChan 1 9)) = true ∧ mapOut (s.mod.cfg (Ent.trunkChan 1 9)) = false ∧
    ∃ i ∈ s.mod.disp.insts, i.desc = inNumber 1 (9 : Fin 128) ∧ i.epoch = 100 := by decide +kernel

theorem witness_TrunkLinks_start : let r := rq 5 0 0 0 (fnTrunk 1) []
    linkWaits (served (modTrunk 1 fun x => { x with waiting := some (5, r) })) 1 r sess := by unfold linkWaits solo; decide +kernel

theorem test_trunk_block_writes : nextIs (exec (.trunkBlockLanded 1 1 goodFrame) (ioSt id))
    (fun m => m.word 0x1234 == recordWord 0x812346 0 100 && m.disp.insts == [] && (m.trunk 1).landed == [1]) = true := by decide +kernel

theorem test_do_fault_turns_off : nextIs (exec (.doFault 31 2) (ioSt id)) (fun m => m.io.doOff == 2 ^ 31 && m.stat Ent.doFault == 2 ^ 31) = true := by
  decide +kernel

/-! ### The tick, axes, acquisition and records -/

/-- The pins of an instant. -/
def Sys2Proof.Tests.cap : Capture := ⟨[], [], [], 5, 0, 15, [], 0⟩

/-- The engine alone, in a state, an epoch and a discipline, with a host's word waiting. -/
def Sys2Proof.Tests.ticked (st : FState) (e : Option Nat) (d : Discipline) (words : List (Nat × Q)) : State :=
  { srv with mod := { fnIn [(fnEngine, st)] srv.mod with
      tick := { srv.mod.tick with epoch := e, cycle := 3999, disc := d }, odp := { srv.mod.odp with pendWords := words },
      red := { srv.mod.red with computing := true } } }

theorem witness_TickCommands : ∀ d ∈ ([.locked, .aligning, .free] : List Discipline), let s := ticked .running (some 9) d [(0x1234, 7)]
    engineAlone s.mod { FuncRec.init with st := .running } ∧ s.mod.ticking = true ∧ s.mod.tick.epoch = some 9 ∧
    (d = .locked → strobeLost s.mod = true) ∧ (d = .free → strobeLost s.mod = false) ∧ s.mod.red.takeover = none ∧ owned s.mod 0x1236 = true := by
  unfold engineAlone idleLanesEmpty solo; decide +kernel

theorem witness_TickCommands_word : owned (ticked .running (some 9) .free [(0x1234, 7)]).mod 0x1234 = false :=
  (owned_parts srv.mod _ _ _ _).trans witness_word_free

theorem witness_TickCommands_ends : let s := ticked .stopping (some 9) .free []
    engineAlone s.mod { FuncRec.init with st := .stopping } ∧ s.mod.tick.epoch = some 9 ∧ s.mod.odp.pendWords = [] ∧
    engineAlone (ticked .starting none .free []).mod { FuncRec.init with st := .starting } ∧
    ((ticked .starting none .free []).mod.setShad Ent.tickAlignStart 0).shad Ent.tickAlignStart = 0 ∧
    (ticked .starting none .free []).mod.ticking = true ∧ (near (Module.setStat Ent.pwrState 2)).mod.ticking = false := by
  unfold engineAlone idleLanesEmpty solo; decide +kernel

/-- Slots 5 and 6 of group 1 run in epoch 100, slot 5 with its output staged; at cycle `c`, with these instances. -/
def Sys2Proof.Tests.grouped (c : Nat) (insts : List Inst) : State :=
  near fun m => (((({ m with
    red := { m.red with computing := true },
    funcs := [(5, { FuncRec.init with st := .running }), (6, { FuncRec.init with st := .running }), (fnEngine, { FuncRec.init with st := .running })],
    tick := { m.tick with epoch := some 100, cycle := c }, disp := { m.disp with insts := insts, live := [(5, some (dsc 0 1 5 [])), (6, some (dsc 0 1 6 [5]))] },
    loop := { m.loop with runs := [(5, { SlotRun.init with epoch := some 100, staged := some 0x81000007, finish := some 300 }),
      (6, { SlotRun.init with epoch := some 100, late := true })] } } : Module).setCfg (Ent.loopGroup 5) 1).setCfg (Ent.loopGroup 6) 1).setCfg
    (Ent.loopOutAddr 5) 0x77).setCfg (Ent.loopOutAddr 6) 0x78

theorem witness_TickCommands_tags : let s := grouped 400 [⟨5, 1, 100, [], .waiting, 0, 0, false, 0⟩, ⟨6, 1, 100, [], .waiting, 0, 0, false, 0⟩]
    s.mod.red.takeover = none ∧ solo s.mod ∧ s.mod.red.owed = [] ∧ s.mod.slate.runs = [] ∧ idleLanesEmpty s.mod ∧ s.mod.tick.epoch = some 100 ∧
    s.mod.tick.cycle ≤ 400 ∧ s.mod.disp.released ≠ some 100 ∧ s.mod.disp.insts.Nodup := by
  unfold solo idleLanesEmpty; decide +kernel

theorem witness_TickCommands_marshalling : let s := grouped 400 [⟨5, 1, 100, [], .ready, 0, 0, false, 0⟩, ⟨6, 1, 96, [], .ready, 0, 0, false, 0⟩]
    s.mod.tick.epoch = some 100 ∧ solo s.mod ∧ idleLanesEmpty s.mod ∧ s.mod.slate.runs = [] ∧ marshalled s.mod 1 (sampleEpoch 1 100) = false ∧
    (periodCycle s.mod 1 (s.mod.cfg (Ent.groupPhase 1) - 80)).isSome = true ∧ groupSlots s.mod 1 100 ≠ [] ∧ slotFinal s.mod 1 (s.mod.slotRun 6) = false := by
  unfold solo idleLanesEmpty; decide +kernel

/-- Group 1 marshalled at epoch 100; slot 6 with status cells, a following error and `runs` overruns. -/
def Sys2Proof.Tests.alarmed (runs : Nat) : State :=
  { grouped 3199 [] with mod := setMem 6 0x1F2 1 runs (setMem 5 0x1F3 2 4 (setMem 5 6 1 1 ((((grouped 3199 []).mod.setCfg (Ent.loopFeTime 5) 4).setCfg
    (Ent.loopFeLimit 5) 100) |> fun m => { m with tick := { m.tick with marsh := [(1, 101)] } }))) }

theorem witness_TickCommands_strobe : let s := alarmed 3
    loopsAlone s.mod ∧ strobeAt s.mod 1 100 3200 ∧ (∀ w ∈ groupWrites s.mod 1 (sampleEpoch 1 100), w.1 < 2 ^ 18) ∧
    groupWrites s.mod 1 (sampleEpoch 1 100) ≠ [] ∧ (s.mod.slotRun 6).late = true ∧ s.mod.running 6 = true := by
  unfold loopsAlone strobeAt solo idleLanesEmpty; decide +kernel

theorem witness_AlarmsHooksAndStages : let s := alarmed 255
    s.mod.active 6 = true ∧ s.mod.memN 6 0x1F2 1 ≠ 0 ∧ s.mod.cfg (Ent.groupOverrunLimit 1) ≤ s.mod.memN 6 0x1F2 1 ∧
    s.mod.stat (Ent.groupOverrunActive 1) = 0 ∧ (∀ d ∈ s.mod.loop.overDue, d.1 ≠ 1) ∧ s.mod.active 5 = true ∧ s.mod.cfg (Ent.loopKernel 5) = 0 ∧
    (s.mod.slotRun 5).epoch ≠ none ∧ s.mod.memN 5 6 1 = 1 ∧ 0 < s.mod.cfgQ (Ent.loopFeLimit 5) ∧ s.mod.cfg (Ent.loopFeTime 5) ≤ s.mod.memN 5 0x1F3 2 ∧
    bit (s.mod.memN 5 0x1F0 2) 6 = false ∧ 0x0303 ∉ (s.mod.slotRun 5).codes := by decide +kernel

/-- Run 63 of an all-zero image evaluates its first exit by hook 0, which has been signalled for epoch 100. -/
def Sys2Proof.Tests.hooked : State :=
  near fun m => Module.setCfgB (Ent.recipeImage 63) [0] { m with
    tick := { m.tick with epoch := some 100, cycle := 5 }, disp := { m.disp with hooks := [(0, 0, 100)] },
    slate := { m.slate with
      runs := [(63, { Run.init with evalEpoch := some 100, step := some 0, st := .running, results := [none], quals := [0] })],
      building := [(63, ⟨1, 0, 1, 3, false⟩)] } }

theorem witness_AlarmsHooksAndStages_hook : hookDue hooked.mod 63 0 7 100 100 0 ∧
    (100 - 100) * 4000 + 7 + 82 ≤ hooked.mod.cfg (Ent.groupPhase (rcGroup (hooked.mod.cfgB (Ent.recipeImage 63)))) ∧
    hookDue hooked.mod 63 0 3999 100 100 0 ∧ hooked.mod.cfg (Ent.groupPhase (rcGroup (hooked.mod.cfgB (Ent.recipeImage 63)))) < (100 - 100) * 4000 + 3999 + 82 ∧
    hooked.mod.slate.building = [(63, ⟨1, 0, 1, 3, false⟩)] := by
  unfold hookDue solo; decide +kernel

theorem test_strobe_writes_and_counts : nextIs (exec (.outputStrobe 1) (alarmed 3))
    (fun m => m.word 0x77 == 0x81000007 && m.memN 6 0x1F2 1 == 4 && m.tick.cycle == 3200) = true := by decide +kernel

/-- Axis 3 in a state, with limits, stall detection, homing travel, stepping and an encoder set up. -/
def Sys2Proof.Tests.axisSt (f : Axis → Axis) : State :=
  near fun m => modAxis 3 f (((((((({ m with
    funcs := [(fnAxis 3, { FuncRec.init with st := .running })], tick := { m.tick with epoch := some 0 } } : Module).setCfg (Ent.axisLimitStop 3) 0x30).setCfg
    (Ent.axisLimitQual 3) 2).setCfg (Ent.axisStallWindow 3) 5).setCfg (Ent.axisStallTime 3) 4).setCfg (Ent.axisStallAction 3) 2).setCfg (Ent.axisHomeTravel 3) 10).setCfg
    (Ent.axisMicrosteps 3) 65535 |> fun m => (m.setCfg (Ent.axisEncMode 3) 1).setCfg (Ent.axisSource 3) 2)

/-- Moving onto its negative limit, stalled. -/
def Sys2Proof.Tests.tripping (x : Axis) : Axis :=
  { x with st := .moving, beforeSt := .moving, prof := ⟨500, 1000000, 70, 1⟩, before := ⟨400, 1000000, 60, 1⟩, seg0 := 400, seg1 := 500, inNeg := true, qualNeg := 2, stallCount := 4 }

theorem witness_AxisInputs : let s := axisSt tripping
    tripDue true s.mod 3 = true ∧ tripDue false s.mod 3 = false ∧ movingGroup s.mod 3 = none ∧ (s.mod.axis 3).beforeSt ≠ .homing ∧
    (s.mod.axis 3).beforeSt ≠ .fault ∧ limitRamped s.mod 3 true = false ∧ stopsAlone s.mod 3 ∧ stallDue s.mod 3 = true ∧
    stallDue (axisSt id).mod 3 = false ∧ (s.mod.axis 3).beforeSt ≠ .stepin ∧ s.mod.cfg (Ent.axisStallAction 3) = 2 := by
  unfold stopsAlone; decide +kernel

theorem witness_AxisInputs_homing : let s := fun (k : Nat) => axisSt fun x => { tripping x with
      st := .homing, beforeSt := .homing, homeMode := k, homePhase := .search, prof := ⟨10 * 65536 + 1, 0, 3, 1⟩ }
    tripDue true (s 1).mod 3 = true ∧ (∃ k ∈ [1, 2, 3, 4, 5, 6], refLimit ((s k).mod.axis 3).homeMode = some true) ∧ refLimit ((s 1).mod.axis 3).homeMode ≠ some true ∧
    (s 1).mod.active (fnAxis 3) = true ∧ (s 1).mod.cfg (Ent.axisHomeTravel 3) * 65536 < (((s 1).mod.axis 3).prof.p - ((s 1).mod.axis 3).homeFrom).natAbs := by
  decide +kernel

theorem witness_AxisInputs_steps : let s := axisSt fun x => { x with st := .standstill }
    solo s.mod ∧ s.mod.active (fnAxis 3) = true ∧ s.mod.cfg (Ent.axisSource 3) = 2 ∧ (s.mod.axis 3).siTimes = [] ∧ s.mod.cfg (Ent.axisMicrosteps 3) = 65535 ∧
    s.mod.cfg (Ent.axisEncMode 3) ≠ 0 ∧ (s.mod.axis 3).encAB < 4 ∧ (axisSt fun x => { x with st := .fault }).mod.axis 3 ≠ s.mod.axis 3 := by
  unfold solo; decide +kernel

theorem test_quadrature_a_first : nextIs (exec (.quadratureEdge 3 2) (axisSt fun x => { x with encAB := 0, encHw := 10 }))
    (fun m => (m.axis 3).encHw == 11 && m.stat (Ent.axisEncErrors 3) == 0) = true := by decide +kernel

theorem test_quadrature_both_edges : nextIs (exec (.quadratureEdge 3 3) (axisSt fun x => { x with encAB := 0, encHw := 10 }))
    (fun m => (m.axis 3).encHw == 10 && m.stat (Ent.axisEncErrors 3) == 1) = true := by decide +kernel

/-- A block of two samples of epoch `e`, of group 0. -/
def Sys2Proof.Tests.blk (e : Nat) : Block := ⟨e, 0, 0, 0, [0x80000001, 0x80000002], []⟩

/-- The stream and window 2 run in epoch 100; the window listens to TRIG_IN1's falling edge. -/
def Sys2Proof.Tests.acquiring (f : Module → Module) : State :=
  near fun m => f (((({ m with
    red := { m.red with computing := true }, funcs := [(fnStream, { FuncRec.init with st := .running }), (fnWin 2, { FuncRec.init with st := .running })],
    tick := { m.tick with epoch := some 100, cycle := 500 }, acq := { m.acq with closed := [(0, 99)] } } : Module).setCfg (Ent.winTrigSource 2) 3).setCfg
    (Ent.winTrigEdge 2) 1).setCfg (Ent.winPre 2) 5 |>.setCfg (Ent.winSizeMb 2) 1)

/-- Window 2 in a state, with this ring. -/
def Sys2Proof.Tests.windowed (st : WinState) (since : Nat) (ring : List Block) (trig : Option Trig) : State :=
  acquiring (modWin 2 fun x => { x with st := st, armedAt := since, ring := ring, trig := trig })

theorem witness_AcquisitionSteps_copy : let s := acquiring fun m => { m with acq := { m.acq with marks := [7, 8, 7] }, pi := [(7, 0x80000003)] }
    s.mod.acq.marks = 7 :: [8, 7] ∧ s.mod.closedTo (wGroup (s.mod.word 7)) ≤ wordEpoch s.mod (s.mod.word 7) ∧
    wordEpoch s.mod 0x80000003 < ({ s.mod with acq := { s.mod.acq with closed := [(0, 200)] } } : Module).closedTo 0 ∧
    State.reset.mod.acq.marks = [] := by decide +kernel

theorem witness_AcquisitionSteps_block : let s := windowed .armed 90 [blk 98] none
    blockDue s.mod 0 100 ∧ ¬ blockDue s.mod 0 99 ∧ s.mod.acq.marks = [] ∧ (∀ u, u < 16 → s.mod.cfg (Ent.winTrigSource u) ≠ 1) ∧ s.mod.active (fnWin 2) = true ∧
    s.mod.cfg (Ent.winGroup 2) = 0 ∧ (s.mod.win 2).st = .armed ∧ (s.mod.win 2).armedAt ≤ 99 ∧ (s.mod.win 2).ring.length < s.mod.cfg (Ent.winPre 2) ∧
    (captureBytes ((s.mod.win 2).ring ++ [⟨99, 0, 0, s.mod.cfg (Ent.winPacking 2), (winChans s.mod 2).map (fun c => winSample s.mod 0 c.1 99), []⟩])).length ≤ slotBytes s.mod 2 := by
  unfold blockDue; decide +kernel

theorem witness_AcquisitionSteps_stream : let s := acquiring fun m => { m with acq := { m.acq with staging := (List.range 100).map blk, session := 9 } }
    solo s.mod ∧ s.mod.running fnStream = true ∧ s.mod.acq.session ≠ 0 ∧ ∃ n, n ∈ List.range 100 ∧ 0 < n ∧ n ≤ s.mod.acq.staging.length ∧
      ((s.mod.acq.staging.take n).flatMap stagedBytes).length ≤ 1404 ∧ 1404 < ((s.mod.acq.staging.take (n + 1)).flatMap stagedBytes).length := by
  unfold solo; decide +kernel

theorem witness_AcquisitionSteps_pin : let s := windowed .armed 90 [blk 99] none
    solo s.mod ∧ s.mod.tick.epoch = some 100 ∧ pinListens s.mod 2 1 true ∧ (∀ u, u < 16 → u ≠ 2 → ¬ pinListens s.mod u 1 true) ∧
    (∀ u, u < 16 → s.mod.cfg (Ent.winTrigSource u) ≠ 4) ∧ (s.mod.win 2).st = .armed ∧
    (∀ w, w < 16 → ¬ pinListens s.mod w 0 true) ∧ ((windowed .armed 101 [] none).mod.win 2).armedAt = 101 ∧
    ((windowed .triggered 90 [blk 99] (some ⟨5, 0, 100, T80.zero⟩)).mod.win 2).trig = some ⟨5, 0, 100, T80.zero⟩ := by
  unfold solo pinListens; decide +kernel

theorem witness_AcquisitionSteps_rearm : let s := windowed .rearm 90 [] none
    (s.mod.win 2).st = .rearm ∧ (s.mod.win 2).rearm = 0 ∧ s.mod.running (fnWin 2) = true ∧ armSlot s.mod 2 = some 0 ∧
    ((windowed .done 90 [] none).mod.win 2).st ≠ .rearm ∧ (∃ n ∈ [0, 1, 2, 3, 4], armSlot (s.mod.setCfg (Ent.winSlots 2) n) 2 = none) ∧
    (s.mod.win 2).waitNoted = false := by decide +kernel

theorem test_pin_triggers_the_window : nextIs (exec (.trigInEdge 1 true) (windowed .armed 90 [blk 99, blk 100] none))
    (fun m => (m.win 2).st == .triggered && (m.win 2).ring.length + (m.win 2).post.length == 2 && (m.win 2).missed == 0) = true := by decide +kernel

/-- An event of a lane. -/
def Sys2Proof.Tests.ev : Event := ⟨0x550, 0x0904, 0, T80.zero, some 3, leBytes 4 7⟩

/-- The recorder with `used` records, its warning given or not, and two records waiting, the first a clear if so said. -/
def Sys2Proof.Tests.recording (used : Nat) (warned clear : Bool) : State :=
  acquiring fun m => { m with agate := { m.agate with queue := [⟨7, 0, ev, clear⟩, ⟨8, 0, ev, false⟩], nextSeq := 9, used := used, warned := warned } }

theorem witness_RecordsAndWindows : ∀ w ∈ [(5, false), (2097151, true), (2097152, true)], ∀ c ∈ [true, false], let s := recording w.1 w.2 c
    writesOwn s.mod ∧ s.mod.agate.queue = ⟨7, 0, ev, c⟩ :: [⟨8, 0, ev, false⟩] ∧ s.mod.agate.used = w.1 ∧
    (w.1 = 5 → (s.mod.agate.used + 1) * 100 < s.mod.cfg Ent.agateWarnLevel * 2097152) ∧ (acquiring id).mod.agate.queue = [] := by
  unfold writesOwn solo; decide +kernel

theorem witness_RecordsAndWindows_warned : let s := recording 2097150 false false
    writesOwn s.mod ∧ s.mod.agate.warned = false ∧ s.mod.cfg Ent.agateWarnLevel * 2097152 ≤ (s.mod.agate.used + 1) * 100 := by
  unfold writesOwn solo; decide +kernel

theorem witness_RecordsAndWindows_close : let s := acquiring fun m => { m with agate := { m.agate with
      windows := [⟨ev, ev, 0, 3600000⟩, ⟨ev, ev, 70000, 0⟩, ⟨{ ev with time := ⟨99999, 0⟩ }, ev, 1, 1⟩] } }
    let run := fun (w : RepWin) => w.opening.time.toNs + w.len * 1000000 ≤ s.mod.nowNs
    s.mod.agate.raised = [] ∧ s.mod.agate.windows.filter (fun w => decide (run w)) = [⟨ev, ev, 70000, 0⟩] ∧
    s.mod.agate.queue.length < 4096 ∧ s.mod.agate.dropRun = none := by decide +kernel

theorem test_record_stands_in_its_slot : nextIs (exec .recordWrite (recording 5 false false))
    (fun m => m.agate.used == 6 && m.slotOf 5 == recordBytes 7 0 ev && m.agate.queue.length == 1) = true := by decide +kernel

/-! ### The pair -/

/-- An enabled member past boot in epoch 100 with its session, the engine RUNNING. -/
def Sys2Proof.Tests.member (f : Module → Module) : State :=
  near fun m => f ((({ m with
    red := { m.red with computing := true, retryDue := true }, power := { m.power with booted := true, ride := .none }
    funcs := [(fnEngine, { FuncRec.init with st := .running })], tick := { m.tick with epoch := some 100, cycle := 1500 }, pi := [(5, 0x80000001)]
    odp := { m.odp with sessions := [sess] } } : Module).setCfg Ent.redEnable 1).setStat Ent.pwrState 0)

/-- The member with its link UP, three frames kept, and its redundancy record changed. -/
def Sys2Proof.Tests.linked (f : Red → Red) : State :=
  member fun m => { m with red := f { m.red with link := 2, replay := [(⟨false, 7, 100, .tick .free⟩, 0), (⟨false, 8, 100, .tick .free⟩, 3)] } }

/-- The member itself, in slot 1, as its own partner. -/
def Sys2Proof.Tests.twin (m : Module) : Partner := { ownPartner m with slot := 1 }

theorem witness_ItpelLink : (member id).mod.red.link ≠ 2 ∧ (member fun m => m.setCfg Ent.redEnable 0).mod.cfgOn Ent.redEnable = false ∧ (linked id).mod.red.link = 2 := by
  decide +kernel

theorem witness_ItpelLink_up : resyncDue (linkedTo 5 (twin (member id).mod) (member id).mod) := by
  refine ⟨?_, by decide +kernel⟩
  have h : (linkedTo 5 (twin (member id).mod) (member id).mod).red.link = 2 ∧ (member id).mod.cfgOn Ent.redEnable = true ∧ (member id).mod.stat Ent.modSlot = 0 := by decide +kernel
  simp [pairFormed, linkedTo, twin, ownPartner, Module.cfgOn, Module.cfg, Module.stat] at h ⊢
  simp [h]

theorem witness_ItpelLink_down : let s := linked fun r => { r with hold := true, st := 3, lines := 0 }
    let t := linked fun r => { r with st := 3, lines := 1 }
    s.mod.red.link = 2 ∧ s.mod.odp.withheld = [] ∧ s.mod.power.booted = true ∧ s.mod.red.hold = true ∧ s.mod.red.lines = 0 ∧ s.mod.red.st ≠ 2 ∧
    t.mod.red.hold = false ∧ t.mod.red.lines = 1 ∧ t.mod.red.st ≠ 4 := by decide +kernel

theorem witness_ItpelLink_resend : let s := linked id
    s.mod.red.replay = [] ++ (⟨false, 7, 100, .tick .free⟩, 0) :: [(⟨false, 8, 100, .tick .free⟩, 3)] ∧
    s.mod.red.replay = [(⟨false, 7, 100, .tick .free⟩, 0)] ++ (⟨false, 8, 100, .tick .free⟩, 3) :: [] ∧
    (∀ x ∈ [((⟨false, 7, 100, .tick .free⟩ : ItFrame), 0)], x.1.seq ≠ 8) ∧ (∀ x ∈ s.mod.red.replay, x.1.seq ≠ 9) := by decide +kernel

theorem witness_ItpelLink_forward : let s := linked fun r => { r with hold := true, st := 3 }
    s.mod.red.link = 2 ∧ s.mod.red.hold = true ∧ s.mod.standby = false ∧ s.mod.agate.raised = [] ∧ s.mod.power.recovery = false ∧ s.mod.ticking = true ∧
    imageReq (rq 1 0 0x8000 5 0 []) ∧ s.mod.agate.windows = [] ∧ s.mod.agate.dropRun = none ∧ s.mod.agate.queue.length < 4096 := by
  unfold imageReq; decide +kernel

theorem witness_ItpelLink_answer : let s := linked fun r => { r with st := 3, forwards := [rq 1 0 0x8000 5 0 []] }
    s.mod.red.link = 2 ∧ s.mod.agate.raised = [] ∧ rq 1 0 0x8000 5 0 [] ∈ s.mod.red.forwards ∧ s.mod.odp.sessions.find? (fun y => y.id == 5) = some sess ∧
    sess.tx + 1 < 2 ^ 48 := by decide +kernel

/-- A member that joins (1), verifies (2) or stands by (3). -/
def Sys2Proof.Tests.hearing (st : Nat) (f : Red → Red) : State := linked fun r => f { r with st := st, hold := false, tickEpoch := some 101 }

theorem witness_LockstepFrames : (∀ st ∈ [1, 2, 3], hears (hearing st id).mod) ∧ ¬ hears (linked id).mod ∧ (linked id).mod.red.link = 2 ∧ (member id).mod.red.link ≠ 2 ∧
    (hearing 3 id).mod.agate.raised = [] ∧ mirrorOf (hearing 3 id).mod 102 = none ∧
    mirrorOf (hearing 3 fun r => { r with mirrors := [⟨102, [], [], [], false⟩] }).mod 102 = some ⟨102, [], [], [], false⟩ ∧
    (hearing 3 id).mod.standby = true ∧ (hearing 3 id).mod.tick.epoch = some 100 ∧ (hearing 1 id).mod.standby = false := by unfold hears; decide +kernel

theorem witness_LockstepFrames_joins : (hearing 1 id).mod.red.st = 1 ∧ (hearing 1 id).mod.agate.raised = [] ∧ (hearing 1 id).mod.tick.epoch ≠ none ∧
    [(0, List.replicate 64 (7 : Byte)), (1, List.replicate 64 8)].map Prod.fst = List.range 2 ∧ isFn 0xFFFF = false ∧
    Sparse.wf dfltCell [(0, dfltCell 0 + 1)] = true ∧ (∃ m : Module, takesRecords m = false) := by
  refine ⟨by decide +kernel, by decide +kernel, by decide +kernel, by decide +kernel, by decide +kernel, by decide +kernel, State.reset.mod, by decide +kernel⟩

theorem witness_LockstepFrames_records : takesRecords (hearing 3 id).mod = true := by decide +kernel

theorem witness_LockstepFrames_digest : let s := hearing 3 fun r => { r with hold := true, digests := [⟨1, 1, 100, 7⟩, ⟨0, 1, 100, 7⟩] }
    s.mod.red.link = 2 ∧ s.mod.red.hold = true ∧ s.mod.lockstep = true ∧ s.mod.odp.withheld = [] ∧
    s.mod.red.digests = [⟨1, 1, 100, 7⟩] ++ ⟨0, 1, 100, 7⟩ :: [] := by decide +kernel

theorem witness_LockstepFrames_health : let s := hearing 2 id
    s.mod.red.link = 2 ∧ s.mod.red.st = 2 ∧ s.mod.red.hold = false ∧ (hearing 3 id).mod.lockstep = true ∧ (hearing 0 id).mod.red.st = 0 ∧
    ((hearing 0 id).mod.setCfg Ent.redEnable 0).cfgOn Ent.redEnable = false := by decide +kernel

theorem witness_LockstepFrames_ends : let s := hearing 3 fun r => { r with waiting := true, strobeHeld := true }
    s.mod.red.suspended = 0 ∧ s.mod.red.waiting = true ∧ s.mod.standby = true ∧ s.mod.red.strobeHeld = true ∧ s.mod.lockstep = true ∧ s.mod.odp.withheld = [] ∧
    (hearing 5 fun r => { r with suspended := 3 }).mod.red.suspended ≠ 0 ∧ (hearing 2 fun r => { r with hold := true, verifyCount := 999 }).mod.red.verifyCount < 1000 ∧
    (hearing 3 fun r => { r with hold := true, digests := [⟨0, 1, 100, 7⟩] }).mod.red.digests ≠ [] := by decide +kernel

theorem witness_LockstepFrames_retry : let s := linked fun r => { r with partner := some (twin (member id).mod) }
    resyncDue { s.mod with red := { s.mod.red with retryDue := true } } := by
  refine ⟨?_, by decide +kernel⟩
  have h : (member id).mod.cfgOn Ent.redEnable = true ∧ (member id).mod.stat Ent.modSlot = 0 := by decide +kernel
  simp [pairFormed, linked, member, near, twin, ownPartner, Module.cfgOn, Module.cfg, Module.stat] at h ⊢
  simp [h]

theorem test_digest_that_differs_ends_lockstep : nextIs (exec (.digestFrame ⟨0, 1, 100, 8⟩) (hearing 2 fun r => { r with hold := true, verifyFails := 2, digests := [⟨0, 1, 100, 7⟩] }))
    (fun m => m.red.st == 5 && m.red.reason == 8 && m.red.hold) = true := by decide +kernel

/-- A member with no partner here, its functions STOPPED but the engine, that may take runs cold. -/
def Sys2Proof.Tests.lone (f : Red → Red) : State :=
  member fun m => ({ m with red := f m.red } : Module).setStat Ent.cfgActiveBank 2 |>.setCfg Ent.redColdTakeover 1

theorem witness_TokenMoves : coldHere (lone fun r => { r with lines := 1 }).mod ∧ hotHere (linked fun r => { r with st := 3, lines := 1 }).mod 100 ∧
    (linked fun r => { r with st := 3, lines := 1 }).mod.red.lines ≠ 0 ∧ memberA (lone id).mod = true ∧ State.reset.mod.power.booted = false := by
  unfold coldHere hotHere tokenOpen; decide +kernel

theorem witness_TokenMoves_holder : let s := linked fun r => { r with st := 3, hold := true, lines := 0, pwrOk := false }
    s.mod.red.lines ≠ 1 ∧ s.mod.red.lines ≠ 2 ∧ s.mod.power.booted = true ∧ s.mod.red.hold = true ∧ s.mod.odp.withheld = [] ∧ s.mod.red.st ≠ 2 ∧ s.mod.red.pwrOk = false ∧
    (linked fun r => { r with hold := true, lines := 2 }).mod.red.lines ≠ 0 ∧ (lone fun r => { r with hold := true, lines := 0, pwrOk := false }).mod.red.link ≠ 2 := by
  decide +kernel

/-- Member B: a partner in a lower slot. -/
def Sys2Proof.Tests.second (f : Red → Red) : State :=
  member fun m => ({ m with red := f { m.red with link := 2, partner := some { twin m with slot := 0 } } } : Module).setStat Ent.modSlot 1

theorem witness_TokenMoves_second : let s := second fun r => { r with lines := 2, st := 5 }
    memberA s.mod = false ∧ s.mod.red.lines ≠ 0 ∧ s.mod.red.lines ≠ 1 ∧ s.mod.red.hold = false ∧ s.mod.red.partner.isSome = true ∧
    (second fun r => { r with hold := true }).mod.red.hold = true := by decide +kernel

theorem witness_TokenMoves_power : let t := lone fun r => { r with claimWait := true, lines := 0 }
    let s := lone fun r => { r with lines := 2, st := 4, pwrOk := true, fromHold := true }
    s.mod.red.pwrOk = true ∧ s.mod.red.hold = false ∧ s.mod.red.lines = 2 ∧ s.mod.red.link ≠ 2 ∧ s.mod.red.fromHold = true ∧ coldHere s.mod ∧
    t.mod.red.claimWait = true ∧ t.mod.red.hold = false ∧ t.mod.red.lines ≠ 1 ∧ coldHere t.mod ∧
    (linked fun r => { r with hold := true, lines := 0 }).mod.red.hold = true := by unfold coldHere tokenOpen; decide +kernel

theorem witness_TokenMoves_drop : let s := member fun m => { m with red := { m.red with hold := true, releaseDue := some 2, wiring := true }, tick := { m.tick with cycle := 1 } }
    s.mod.red.hold = true ∧ s.mod.stopped fnEngine = false ∧ s.mod.odp.withheld = [] ∧ s.mod.red.releaseDue = some 2 ∧ s.mod.tick.cycle ≤ 1 ∧ strobesDone s.mod = true ∧
    (member id).mod.stopped fnEngine = false ∧ State.reset.mod.stopped fnEngine = true := by decide +kernel

theorem witness_TokenMoves_wiring : let s := member fun m => ({ m with red := { m.red with wiring := true, lines := 1 } } : Module).setCfg Ent.redEnable 0
    s.mod.red.wiring = true ∧ s.mod.red.lines ≠ 2 ∧ s.mod.lockstep = false ∧ s.mod.cfgOn Ent.redEnable = false := by decide +kernel

theorem test_watchdog_drops_the_token : nextIs (exec .lodestoneWatchdog (member fun m => { m with red := { m.red with hold := true } }))
    (fun m => !m.red.hold && !m.red.computing && m.red.dogExpired && m.agate.queue.isEmpty) = true := by decide +kernel
end

section
/-! ### Idling: a step on an empty queue (log 2) -/

namespace Sys2Proof.Machine

/-- Of the two arms of `step`, the one that runs no command. -/
theorem step_of_pending_nil {s : State} (h : s.pending = []) : step s = .next { s with mod := idleCycle s.mod } := by
  unfold step
  rw [h]

@[simp] theorem idleCycle_tick_cycle (m : Module) : (idleCycle m).tick.cycle = m.tick.cycle + 1 := rfl

/-- The frame of an idle cycle: beside the tick, only the time counter's record moves (R396, R397). -/
theorem idleCycle_eq_with_tick_time (m : Module) :
    idleCycle m = { m with tick := (idleCycle m).tick, time := (idleCycle m).time } := rfl

/-- Settles O2: an idle step is `idleCycle` on the module, with the queue and the fuses left as they stand. -/
theorem emptyQueueIdlesOneCycle : Obligations.EmptyQueueIdlesOneCycle := by
  intro s hempty
  exact ⟨idleCycle s.mod, step_of_pending_nil hempty, idleCycle_tick_cycle s.mod, idleCycle_eq_with_tick_time s.mod⟩

end Sys2Proof.Machine
end

section
/-! ### Folds over a list, and a word written to the process image (R32, R254, R279, R341) -/

namespace Sys2Proof.Machine

/-- What every pass of a fold keeps, the fold keeps. -/
theorem forL_induct {σ α : Type} (P : σ → Prop) {f : α → σ → σ} (l : List α) {s : σ} (h0 : P s)
    (hstep : ∀ a ∈ l, ∀ s, P s → P (f a s)) : P (forL l f s) := by
  induction l generalizing s with
  | nil => exact h0
  | cons a l ih =>
    exact ih (hstep a List.mem_cons_self s h0) fun b hb => hstep b (List.mem_cons_of_mem a hb)

/-- The axes that follow a word are all that its arrival changes (R254). -/
theorem toFollowers_eq_with_axes (a : Nat) (w : Word) (m : Module) :
    ∃ axes, toFollowers a w m = { m with motion := { m.motion with axes := axes } } := by
  unfold toFollowers
  refine forL_induct (fun t => ∃ axes, t = { m with motion := { m.motion with axes := axes } }) _ ⟨m.motion.axes, rfl⟩ ?_
  rintro x - t ⟨axes, rfl⟩
  exact ⟨_, rfl⟩

/-- The output channels that a word drives are all that noting it changes (R279). -/
theorem toChannels_eq_with_chans (a : Nat) (w : Word) (m : Module) :
    ∃ chans, toChannels a w m = { m with io := { m.io with chans := chans } } := by
  unfold toChannels
  split
  · refine forL_induct (fun t => ∃ chans, t = { m with io := { m.io with chans := chans } }) _ ⟨m.io.chans, rfl⟩ ?_
    rintro x - t ⟨chans, rfl⟩
    exact ⟨_, rfl⟩
  · exact ⟨m.io.chans, rfl⟩

/-- Everything that a word written to the process image changes. -/
theorem putWord_eq (a : Nat) (w : Word) (m : Module) :
    ∃ axes chans marks, putWord a w m = { m with
      pi := Sparse.set dfltWord m.pi (a % 2 ^ 18) w, motion := { m.motion with axes := axes }
      io := { m.io with chans := chans }, acq := { m.acq with marks := marks } } := by
  obtain ⟨axes, hf⟩ := toFollowers_eq_with_axes (a % 2 ^ 18) w { m with pi := Sparse.set dfltWord m.pi (a % 2 ^ 18) w }
  obtain ⟨chans, hc⟩ := toChannels_eq_with_chans (a % 2 ^ 18) w (toFollowers (a % 2 ^ 18) w { m with pi := Sparse.set dfltWord m.pi (a % 2 ^ 18) w })
  rw [hf] at hc
  unfold putWord
  simp only [hf, hc]
  split
  · exact ⟨axes, chans, _, rfl⟩
  · exact ⟨axes, chans, m.acq.marks, rfl⟩

@[simp] theorem putWord_pi (a : Nat) (w : Word) (m : Module) : (putWord a w m).pi = Sparse.set dfltWord m.pi (a % 2 ^ 18) w := by
  obtain ⟨_, _, _, h⟩ := putWord_eq a w m
  rw [h]

/-- A word of the process image after a write. -/
theorem word_putWord (a b : Nat) (w : Word) (m : Module) :
    (putWord a w m).word b = if b = a % 2 ^ 18 then w else m.word b := by
  unfold Module.word
  rw [putWord_pi, Sparse.get_set]

/-- Settles O7: the image after the write is `Sparse.set`, and `putWord_eq` names the other parts that move. -/
theorem wordWriteReadsBack : Obligations.WordWriteReadsBack := by
  intro m a w hwf
  refine ⟨?_, ?_, fun b hb => ?_, ?_⟩
  · unfold Module.piWf
    rw [putWord_pi]
    exact Sparse.wf_set dfltWord m.pi _ w hwf
  · rw [word_putWord, if_pos rfl]
  · rw [word_putWord, if_neg hb]
  · obtain ⟨axes, chans, marks, h⟩ := putWord_eq a w m
    rw [h]

end Sys2Proof.Machine
end

section
/-! ### A waiting `Inst` whose descriptor is not live, at the release of the input tags (R18, R160) -/

namespace Sys2Proof.Machine

/-- A waiting `Inst` of descriptor 0 in epoch 0. -/
def orphanInst : Inst := ⟨0, 0, 0, [], .waiting, 0, 0, false, 0⟩

/-- Epoch 0 runs, at cycle 0, in a module as reset leaves it but for `orphanInst`: no descriptor is live. -/
def orphaned : State :=
  { State.reset with mod := { Module.reset with
    tick := { Tick.reset with epoch := some 0 }, disp := { Disp.reset with insts := [orphanInst] } } }

/-- The three conditions of R160 stand for `orphanInst` once the tags of epoch 0 are out: with no descriptor it misses no input. -/
theorem canReady_orphanInst :
    canReady { orphaned.mod with disp := { orphaned.mod.disp with released := some 0 } } orphanInst = true := by decide +kernel

/-- `makeReady` finds no descriptor by which to put `orphanInst` on a list, and leaves it waiting. -/
theorem inputTagRelease_keeps_orphanInst : orphanInst ∈ (inputTagRelease orphaned.mod).disp.insts := by decide +kernel

/-- What the command leaves is what `inputTagRelease` makes of the module, its events admitted. -/
theorem exec_inputTagRelease (s : State) :
    exec .inputTagRelease s = .next { s with mod := settle (inputTagRelease s.mod) } := rfl

/-- Refutes O53: of every `Inst` whose last condition the release meets, the statement says that it no longer waits.
In the state `orphaned`, `orphanInst` meets `canReady` with its descriptor not live, and then `makeReady` leaves it waiting. -/
theorem not_tickCommands : ¬ Obligations.TickCommands := by
  unfold Obligations.TickCommands
  rintro ⟨-, -, -, hrelease, -⟩
  have hlanes : idleLanesEmpty orphaned.mod := fun _ _ _ => rfl
  obtain ⟨m, hexec, -, -, -, -, -, hmeets, -⟩ :=
    (hrelease orphaned rfl).2 0 rfl rfl rfl hlanes rfl (by decide) (by decide) (by decide)
  rw [exec_inputTagRelease] at hexec
  injection hexec with hstate
  have hm : settle (inputTagRelease orphaned.mod) = m := congrArg State.mod hstate
  refine hmeets orphanInst (by decide) canReady_orphanInst ?_
  rw [← hm, settle_disp]
  exact inputTagRelease_keeps_orphanInst

end Sys2Proof.Machine
end

section
/-! ### The mode, the setpoint and the limits of a loop period (R89, R90, R92, R98) -/

namespace Sys2Proof.Machine

/-! #### The mode (R98) -/

/-- A mask meets a number where a bit is set in both. -/
theorem land_ne_zero_iff_exists_bit (v mask : Nat) : Nat.land v mask ≠ 0 ↔ ∃ i, bit v i = true ∧ bit mask i = true := by
  have hbit : ∀ i, (Nat.land v mask).testBit i = (v.testBit i && mask.testBit i) := Nat.testBit_and v mask
  constructor
  · intro h
    obtain ⟨i, hi⟩ := Nat.exists_testBit_of_ne_zero h
    rw [hbit, Bool.and_eq_true] at hi
    exact ⟨i, hi⟩
  · rintro ⟨i, hv, hmask⟩ h
    have hi := hbit i
    rw [h, Nat.zero_testBit, show v.testBit i = true from hv, show mask.testBit i = true from hmask] at hi
    exact Bool.false_ne_true hi

/-- Only the low five bits of a mask below 32 can be set. -/
theorem lt_five_of_bit {mask i : Nat} (hmask : mask < 32) (h : bit mask i = true) : i < 5 := by
  have hge : 2 ^ i ≤ mask := Nat.ge_two_pow_of_testBit h
  exact (Nat.pow_lt_pow_iff_right (a := 2) (by decide)).mp (by omega)

/-- The mask of the SAFE latches is that of STALE_SAFE and FE_SAFE (Table 3.8). -/
theorem land_safeLatches_ne_zero_iff (lat : Nat) : Nat.land lat 0x0A ≠ 0 ↔ bit lat 1 = true ∨ bit lat 3 = true := by
  have hmask : ∀ i < 5, bit 0x0A i = true → i = 1 ∨ i = 3 := by decide
  rw [land_ne_zero_iff_exists_bit]
  constructor
  · rintro ⟨i, hlat, hi⟩
    obtain rfl | rfl := hmask i (lt_five_of_bit (by decide) hi) hi
    · exact .inl hlat
    · exact .inr hlat
  · rintro (h | h)
    · exact ⟨1, h, rfl⟩
    · exact ⟨3, h, rfl⟩

/-- The mask of the MAN latches is that of STALE_MAN, FE_MAN and GROUP_MAN (Table 3.8). -/
theorem land_manLatches_ne_zero_iff (lat : Nat) :
    Nat.land lat 0x15 ≠ 0 ↔ bit lat 0 = true ∨ bit lat 2 = true ∨ bit lat 4 = true := by
  have hmask : ∀ i < 5, bit 0x15 i = true → i = 0 ∨ i = 2 ∨ i = 4 := by decide
  rw [land_ne_zero_iff_exists_bit]
  constructor
  · rintro ⟨i, hlat, hi⟩
    obtain rfl | rfl | rfl := hmask i (lt_five_of_bit (by decide) hi) hi
    · exact .inl hlat
    · exact .inr (.inl hlat)
    · exact .inr (.inr hlat)
  · rintro (h | h | h)
    · exact ⟨0, h, rfl⟩
    · exact ⟨2, h, rfl⟩
    · exact ⟨4, h, rfl⟩

section
variable {lat : Nat} (req : Nat) (casInit innerCas : Bool)

theorem resolveMode_of_safeLatch (h : bit lat 1 = true ∨ bit lat 3 = true) : resolveMode lat req casInit innerCas = 4 := by
  have hsafe := (land_safeLatches_ne_zero_iff lat).mpr h
  unfold resolveMode
  rw [if_pos (bne_iff_ne.mpr hsafe)]

theorem resolveMode_of_manLatch (h1 : bit lat 1 = false) (h3 : bit lat 3 = false)
    (h : bit lat 0 = true ∨ bit lat 2 = true ∨ bit lat 4 = true) : resolveMode lat req casInit innerCas = 0 := by
  have hsafe : ¬ Nat.land lat 0x0A ≠ 0 := by rw [land_safeLatches_ne_zero_iff, h1, h3]; decide
  have hman := (land_manLatches_ne_zero_iff lat).mpr h
  unfold resolveMode
  rw [if_neg (by rwa [bne_iff_ne]), if_pos (bne_iff_ne.mpr hman)]

/-- With neither a SAFE nor a MAN latch, CAS_SHED and CAS_INIT decide over the requested mode. -/
theorem resolveMode_of_unlatched (h0 : bit lat 0 = false) (h1 : bit lat 1 = false) (h2 : bit lat 2 = false)
    (h3 : bit lat 3 = false) (h4 : bit lat 4 = false) :
    resolveMode lat req casInit innerCas =
      if req == 2 && bit lat 5 then 1 else if casInit && (req == 1 || req == 2) && !innerCas then 3 else req := by
  have hsafe : ¬ Nat.land lat 0x0A ≠ 0 := by rw [land_safeLatches_ne_zero_iff, h1, h3]; decide
  have hman : ¬ Nat.land lat 0x15 ≠ 0 := by rw [land_manLatches_ne_zero_iff, h0, h2, h4]; decide
  unfold resolveMode
  rw [if_neg (by rwa [bne_iff_ne]), if_neg (by rwa [bne_iff_ne])]

end

/-! #### Clamps and steps (R90, R92) -/

theorem clampI_of_le {lo hi : Int} (v : Int) (h : lo ≤ hi) : clampI v lo hi = max lo (min v hi) := if_pos h

/-- From `p` as far towards `t` as `d` allows. -/
def stepTowards (p d t : Int) : Int := max (p - d) (min t (p + d))

theorem natAbs_stepTowards_sub_le {d : Int} (p t : Int) (hd : 0 < d) : (stepTowards p d t - p).natAbs ≤ d.natAbs := by
  unfold stepTowards; omega

theorem stepTowards_between {lo hi p d t : Int} (hd : 0 < d) (hp : lo ≤ p ∧ p ≤ hi) (ht : lo ≤ t ∧ t ≤ hi) :
    lo ≤ stepTowards p d t ∧ stepTowards p d t ≤ hi := by
  unfold stepTowards; omega

theorem clamp_between {lo hi : Int} (v : Int) (h : lo ≤ hi) : lo ≤ max lo (min v hi) ∧ max lo (min v hi) ≤ hi := by omega

/-- A clamp brings no value further from a point between the limits. -/
theorem natAbs_clamp_sub_le {lo hi p : Int} (v : Int) (hlo : lo ≤ p) (hhi : p ≤ hi) :
    (max lo (min v hi) - p).natAbs ≤ (v - p).natAbs := by omega

theorem effSetpoint_cas (pvTrack : Bool) (sp cas pv prev ramp : Int) {lo hi : Int} (h : lo ≤ hi) :
    effSetpoint 2 pvTrack sp cas pv prev lo hi ramp = max lo (min cas hi) := clampI_of_le cas h

theorem effSetpoint_auto_of_no_ramp (pvTrack : Bool) (sp cas pv prev : Int) {lo hi : Int} (h : lo ≤ hi) :
    effSetpoint 1 pvTrack sp cas pv prev lo hi 0 = max lo (min sp hi) := clampI_of_le sp h

theorem effSetpoint_auto_of_ramp (pvTrack : Bool) (sp cas pv prev : Int) {lo hi ramp : Int} (h : lo ≤ hi) (hramp : 0 < ramp) :
    effSetpoint 1 pvTrack sp cas pv prev lo hi ramp = stepTowards prev ramp (max lo (min sp hi)) := by
  rw [← clampI_of_le sp h]
  exact if_neg (Int.ne_of_gt hramp)

theorem limitOut_of_no_rate (un oPrev : Int) {rate lo hi : Int} (h : lo ≤ hi) (hrate : rate ≤ 0) :
    limitOut un oPrev rate lo hi = max lo (min un hi) := by
  unfold limitOut
  rw [if_neg (Int.not_lt.mpr hrate), clampI_of_le un h]

theorem limitOut_of_rate (un oPrev : Int) {rate lo hi : Int} (h : lo ≤ hi) (hrate : 0 < rate) :
    limitOut un oPrev rate lo hi = max lo (min (stepTowards oPrev rate un) hi) := by
  unfold limitOut
  rw [if_pos hrate, clampI_of_le _ h, stepTowards]

theorem limitOut_between (un oPrev rate : Int) {lo hi : Int} (h : lo ≤ hi) :
    lo ≤ limitOut un oPrev rate lo hi ∧ limitOut un oPrev rate lo hi ≤ hi := by
  unfold limitOut
  rw [clampI_of_le _ h]
  exact clamp_between _ h

/-- Settles O18: the mode by the two latch masks; setpoint and output are clamps and steps from the previous value. -/
theorem loopModeSetpointAndLimits : Obligations.LoopModeSetpointAndLimits := by
  refine ⟨fun lat req casInit innerCas => ⟨?_, ?_, fun h0 h1 h2 h3 h4 => ?_⟩,
    fun pvTrack sp cas pv prev lo hi ramp h => ⟨?_, ?_, fun hramp => ?_, rfl⟩,
    fun un oPrev rate lo hi h => ⟨?_, ?_, fun hrate hlo hhi => ?_, fun hrate => ?_⟩⟩
  · exact resolveMode_of_safeLatch req casInit innerCas
  · exact resolveMode_of_manLatch req casInit innerCas
  · rw [resolveMode_of_unlatched req casInit innerCas h0 h1 h2 h3 h4]
    refine ⟨fun h5 hcas => ?_, fun h5 hinit hinner hreq => ?_, fun hinner hreq => ?_⟩
    · simp [h5, hcas]
    · simp [h5, hinit, hinner, hreq]
    · rw [if_neg, if_neg]
      · rcases hinner with h | h <;> simp [h]
      · rcases hreq with h | h <;> simp [h]
  · exact effSetpoint_cas pvTrack sp cas pv prev ramp h
  · exact effSetpoint_auto_of_no_ramp pvTrack sp cas pv prev h
  · rw [effSetpoint_auto_of_ramp pvTrack sp cas pv prev h hramp]
    exact ⟨natAbs_stepTowards_sub_le prev _ hramp,
      fun hlo hhi => stepTowards_between hramp ⟨hlo, hhi⟩ (clamp_between sp h)⟩
  · exact (limitOut_between un oPrev rate h).1
  · exact (limitOut_between un oPrev rate h).2
  · rw [limitOut_of_rate un oPrev h hrate]
    exact Nat.le_trans (natAbs_clamp_sub_le _ hlo hhi) (natAbs_stepTowards_sub_le oPrev un hrate)
  · exact limitOut_of_no_rate un oPrev h hrate

end Sys2Proof.Machine
end

section
/-! ### Loop memory: what a write of a slot's cells changes and leaves (R82), and OVERRUN_ACTION and FE_ALARM (R105, R107) -/

namespace Sys2Proof.Machine

/-! #### Cells of a slot (R82) -/

/-- Two bytes of the loop memory stand at one address only where slot and offset agree. -/
theorem slotAddr_inj {k n i j : Nat} (hk : k < 1024) (hn : n < 1024) (hi : i < 512) (hj : j < 512)
    (h : slotAddr k i = slotAddr n j) : k = n ∧ i = j := by
  unfold slotAddr at h; omega

/-- Beside the cells themselves a write of cells changes nothing. -/
theorem setMem_eq_with_mem (n off len v : Nat) (m : Module) :
    ∃ mem, setMem n off len v m = { m with loop := { m.loop with mem := mem } } := by
  induction len generalizing off v m with
  | zero => exact ⟨m.loop.mem, rfl⟩
  | succ len ih =>
    obtain ⟨mem, h⟩ := ih (off + 1) (v / 256)
      { m with loop := { m.loop with mem := Sparse.set dfltByte m.loop.mem (slotAddr n off) (BitVec.ofNat 8 v) } }
    exact ⟨mem, h⟩

@[simp] theorem setMem_pi (n off len v : Nat) (m : Module) : (setMem n off len v m).pi = m.pi := by
  obtain ⟨_, h⟩ := setMem_eq_with_mem n off len v m
  rw [h]

@[simp] theorem setMem_funcs (n off len v : Nat) (m : Module) : (setMem n off len v m).funcs = m.funcs := by
  obtain ⟨_, h⟩ := setMem_eq_with_mem n off len v m
  rw [h]

@[simp] theorem setMem_agate (n off len v : Nat) (m : Module) : (setMem n off len v m).agate = m.agate := by
  obtain ⟨_, h⟩ := setMem_eq_with_mem n off len v m
  rw [h]

@[simp] theorem slotRun_setMem (n off len v : Nat) (m : Module) (k : Nat) : (setMem n off len v m).slotRun k = m.slotRun k := by
  obtain ⟨_, h⟩ := setMem_eq_with_mem n off len v m
  rw [h]; rfl

theorem slotRun_congr {m m' : Module} (h : m.loop = m'.loop) (k : Nat) : m.slotRun k = m'.slotRun k := by
  unfold Module.slotRun; rw [h]

theorem memB_congr {m m' : Module} (h : m.loop = m'.loop) (k i : Nat) : m.memB k i = m'.memB k i := by
  unfold Module.memB; rw [h]

/-- A byte at no address written stays. -/
theorem memB_setMem_of_ne {n off len k i : Nat} (v : Nat) (m : Module) (h : ∀ j < len, slotAddr k i ≠ slotAddr n (off + j)) :
    (setMem n off len v m).memB k i = m.memB k i := by
  induction len generalizing off v m with
  | zero => rfl
  | succ len ih =>
    rw [setMem, ih _ _ fun j hj => by
      rw [Nat.add_assoc, Nat.add_comm 1 j]
      exact h (j + 1) (by omega)]
    exact Sparse.get_set_ne _ _ _ (h 0 (by omega))

/-- A byte of another cell of the slots stays. -/
theorem memB_setMem_frame {n off len k i : Nat} (v : Nat) (m : Module) (hn : n < 1024) (hlen : off + len ≤ 512)
    (hk : k < 1024) (hi : i < 512) (h : k = n → i < off ∨ off + len ≤ i) : (setMem n off len v m).memB k i = m.memB k i := by
  refine memB_setMem_of_ne v m fun j hj heq => ?_
  obtain ⟨rfl, rfl⟩ := slotAddr_inj hk hn hi (by omega) heq
  have := h rfl
  omega

/-- A cell reads as its bytes do. -/
theorem memN_of_memB {m m' : Module} {n off len : Nat} (h : ∀ j < len, m'.memB n (off + j) = m.memB n (off + j)) :
    m'.memN n off len = m.memN n off len := by
  induction len generalizing off with
  | zero => rfl
  | succ len ih =>
    rw [Module.memN, Module.memN, ih fun j hj => by
      rw [Nat.add_assoc, Nat.add_comm 1 j]
      exact h (j + 1) (by omega)]
    rw [show m'.memB n off = m.memB n off from h 0 (by omega)]

theorem memN_setMem_frame {n off len k i c : Nat} (v : Nat) (m : Module) (hn : n < 1024) (hlen : off + len ≤ 512)
    (hk : k < 1024) (hc : i + c ≤ 512) (h : k = n → i + c ≤ off ∨ off + len ≤ i) :
    (setMem n off len v m).memN k i c = m.memN k i c :=
  memN_of_memB fun j hj => memB_setMem_frame v m hn hlen hk (by omega) fun hkn => by have := h hkn; omega

theorem memN_lt (m : Module) (n off len : Nat) : m.memN n off len < 256 ^ len := by
  induction len generalizing off with
  | zero => exact Nat.one_pos
  | succ len ih =>
    have hlow : (m.memB n off).toNat < 256 := (m.memB n off).isLt
    have hhigh := ih (off + 1)
    rw [Module.memN, Nat.pow_succ]
    omega

/-- A cell reads back what was written, cut to its length. -/
theorem memN_setMem_same {n off len : Nat} (v : Nat) (m : Module) (hn : n < 1024) (hlen : off + len ≤ 512) :
    (setMem n off len v m).memN n off len = v % 256 ^ len := by
  induction len generalizing off v m with
  | zero => rw [Nat.pow_zero, Nat.mod_one]; rfl
  | succ len ih =>
    have hlow : (setMem n off (len + 1) v m).memB n off = BitVec.ofNat 8 v := by
      rw [setMem, memB_setMem_frame _ _ hn (by omega) hn (by omega) (by omega)]
      exact Sparse.get_set_same _ _ _ _
    rw [Module.memN, hlow, setMem, ih _ _ (by omega), Nat.pow_succ', BitVec.toNat_ofNat, Nat.mod_mul]

/-! #### Events of a period (R109) -/

@[simp] theorem raiseEpoch_loop (e source code : Nat) (body : List Byte) (m : Module) : (raiseEpoch e source code body m).loop = m.loop := rfl
@[simp] theorem raiseEpoch_pi (e source code : Nat) (body : List Byte) (m : Module) : (raiseEpoch e source code body m).pi = m.pi := rfl
@[simp] theorem raiseEpoch_funcs (e source code : Nat) (body : List Byte) (m : Module) : (raiseEpoch e source code body m).funcs = m.funcs := rfl

theorem raiseEpoch_raised (e source code : Nat) (body : List Byte) (m : Module) :
    (raiseEpoch e source code body m).agate.raised =
      m.agate.raised ++ [⟨source, code, notLocked m, m.now, some e, padTo 28 body⟩] := rfl

/-- With no event of its own a command leaves what `settle` makes of its module. -/
theorem after_nil_settle (m : Module) : after [] m (settle m) := by
  unfold after; rw [List.append_nil]

/-! #### OVERRUN_ACTION (R107) -/

/-- The slot's overrun count has reached its group's limit, and no action of the group is in force or due. -/
def overrunFalls (n : Nat) (m : Module) : Prop :=
  let g := m.cfg (Ent.loopGroup n) % 8
  m.active n = true ∧ m.memN n 0x1F2 1 ≠ 0 ∧ m.cfg (Ent.groupOverrunLimit g) ≤ m.memN n 0x1F2 1 ∧
    m.stat (Ent.groupOverrunActive g) = 0 ∧ ∀ d ∈ m.loop.overDue, d.1 ≠ g

/-- The condition of `overrunReach`. -/
theorem overrunReach_condition_iff (n : Nat) (m : Module) :
    (m.active n && decide (m.cfg (Ent.groupOverrunLimit (m.cfg (Ent.loopGroup n) % 8)) ≤ m.memN n 0x1F2 1) &&
      !decide (m.memN n 0x1F2 1 = 0) && m.stat (Ent.groupOverrunActive (m.cfg (Ent.loopGroup n) % 8)) == 0 &&
      !(m.loop.overDue.any fun d => d.1 == m.cfg (Ent.loopGroup n) % 8)) = true ↔ overrunFalls n m := by
  unfold overrunFalls
  simp only [Bool.and_eq_true, decide_eq_true_eq, Bool.not_eq_true', decide_eq_false_iff_not, beq_iff_eq, List.any_eq_false]
  constructor
  · rintro ⟨⟨⟨⟨hactive, hlimit⟩, hcount⟩, hforce⟩, hdue⟩
    exact ⟨hactive, hcount, hlimit, hforce, hdue⟩
  · rintro ⟨hactive, hcount, hlimit, hforce, hdue⟩
    exact ⟨⟨⟨⟨hactive, hlimit⟩, hcount⟩, hforce⟩, hdue⟩

theorem overrunReach_of_falls {n : Nat} {m : Module} (h : overrunFalls n m) :
    overrunReach n m = { m with loop := { m.loop with overDue := m.loop.overDue ++ [(m.cfg (Ent.loopGroup n) % 8, n)] } } :=
  if_pos ((overrunReach_condition_iff n m).mpr h)

theorem overrunReach_of_not_falls {n : Nat} {m : Module} (h : ¬ overrunFalls n m) : overrunReach n m = m :=
  if_neg fun hc => h ((overrunReach_condition_iff n m).mp hc)

theorem exec_overrunAction (n : Fin 1024) (s : State) :
    exec (.overrunAction n) s = .next { s with mod := overrunReach n s.mod } := rfl

/-! #### FE_ALARM (R105) -/

/-- The slot's following error has stood for its time on the fixed kernel, and its alarm is neither set nor staged. -/
def feStands (n : Nat) (m : Module) : Prop :=
  m.active n = true ∧ m.cfg (Ent.loopKernel n) = 0 ∧ (m.slotRun n).epoch ≠ none ∧ (m.memN n 6 1 = 1 ∨ m.memN n 6 1 = 2) ∧
    0 < m.cfgQ (Ent.loopFeLimit n) ∧ m.cfg (Ent.loopFeTime n) ≤ m.memN n 0x1F3 2 ∧ bit (m.memN n 0x1F0 2) 6 = false ∧
    0x0303 ∉ (m.slotRun n).codes

/-- The latch that an fe_action sets: FE_MAN, FE_SAFE or none (Table 3.8). -/
def feLatch (act : Nat) : Nat := if act = 1 then 4 else if act = 2 then 8 else 0

/-- The cells that FE_ALARM writes: the status flags and the latches. -/
def feCells (n : Nat) (m : Module) : Module :=
  setMem n 7 1 (Nat.lor (m.memN n 7 1) (feLatch (m.cfg (Ent.loopFeAction n)))) (setMem n 0x1F0 2 (Nat.lor (m.memN n 0x1F0 2) flFE) m)

/-- The condition of `feReach`. -/
theorem feReach_condition_iff (n : Nat) (m : Module) :
    (m.active n && m.cfg (Ent.loopKernel n) == 0 && (m.slotRun n).epoch.isSome && (m.memN n 6 1 == 1 || m.memN n 6 1 == 2) &&
      decide (0 < m.cfgQ (Ent.loopFeLimit n)) && decide (m.cfg (Ent.loopFeTime n) ≤ m.memN n 0x1F3 2) &&
      !bit (m.memN n 0x1F0 2) 6 && !((m.slotRun n).codes.contains 0x0303)) = true ↔ feStands n m := by
  unfold feStands
  simp [and_assoc, Option.isSome_iff_ne_none]

theorem feReach_of_stands {n : Nat} {m : Module} (h : feStands n m) :
    feReach n m = raiseEpoch ((m.slotRun n).epoch.getD 0) n 0x0303 (slotBody (feCells n m) n) (feCells n m) :=
  if_pos ((feReach_condition_iff n m).mpr h)

theorem feReach_of_not_stands {n : Nat} {m : Module} (h : ¬ feStands n m) : feReach n m = m :=
  if_neg fun hc => h ((feReach_condition_iff n m).mp hc)

theorem exec_feAlarm (n : Fin 1024) (s : State) :
    exec (.feAlarm n) s = .next { s with mod := settle (feReach n s.mod) } := rfl

@[simp] theorem feCells_pi (n : Nat) (m : Module) : (feCells n m).pi = m.pi := by simp [feCells]
@[simp] theorem feCells_funcs (n : Nat) (m : Module) : (feCells n m).funcs = m.funcs := by simp [feCells]
@[simp] theorem feCells_agate (n : Nat) (m : Module) : (feCells n m).agate = m.agate := by simp [feCells]
@[simp] theorem slotRun_feCells (n k : Nat) (m : Module) : (feCells n m).slotRun k = m.slotRun k := by simp [feCells]

theorem bit_lor (v w j : Nat) : bit (Nat.lor v w) j = (bit v j || bit w j) := Nat.testBit_or v w j

/-- FE_ALARM's flag is bit 6 of the status flags (Table 3.6). -/
theorem bit_flFE (j : Nat) : bit flFE j = decide (j = 6) :=
  (Nat.testBit_two_pow (n := 6) (m := j)).trans (decide_eq_decide.mpr eq_comm)

/-- FE_MAN is bit 2 and FE_SAFE bit 3 of the latches (Table 3.8). -/
theorem bit_feLatch (act j : Nat) : bit (feLatch act) j = decide ((act = 1 ∧ j = 2) ∨ (act = 2 ∧ j = 3)) := by
  have hman : bit 4 j = decide (2 = j) := Nat.testBit_two_pow (n := 2)
  have hsafe : bit 8 j = decide (3 = j) := Nat.testBit_two_pow (n := 3)
  unfold feLatch
  split
  · next h => subst h; rw [hman]; simp [eq_comm]
  · split
    · next h => subst h; rw [hsafe]; simp [eq_comm]
    · next h1 h2 => simp [bit, h1, h2]

theorem feLatch_lt (act : Nat) : feLatch act < 256 := by
  unfold feLatch; split
  · decide
  · split <;> decide

section
variable {n : Nat} (m : Module) (hn : n < 1024)
include hn

theorem memN_feCells_flags : (feCells n m).memN n 0x1F0 2 = Nat.lor (m.memN n 0x1F0 2) flFE := by
  have hlt : Nat.lor (m.memN n 0x1F0 2) flFE < 2 ^ 16 := Nat.or_lt_two_pow (memN_lt m n 0x1F0 2) (by decide)
  unfold feCells
  rw [memN_setMem_frame _ _ hn (by decide) hn (by decide) (fun _ => .inr (by decide)), memN_setMem_same _ _ hn (by decide)]
  exact Nat.mod_eq_of_lt hlt

theorem memN_feCells_latches :
    (feCells n m).memN n 7 1 = Nat.lor (m.memN n 7 1) (feLatch (m.cfg (Ent.loopFeAction n))) := by
  have hlt : Nat.lor (m.memN n 7 1) (feLatch (m.cfg (Ent.loopFeAction n))) < 2 ^ 8 :=
    Nat.or_lt_two_pow (memN_lt m n 7 1) (feLatch_lt _)
  unfold feCells
  rw [memN_setMem_same _ _ hn (by decide)]
  exact Nat.mod_eq_of_lt hlt

/-- Of all loop memory, only the bytes of the flags and of the latches change. -/
theorem memB_feCells_frame {k i : Nat} (hk : k < 1024) (hi : i < 512) (h : (k, i) ∉ [(n, 0x1F0), (n, 0x1F1), (n, 7)]) :
    (feCells n m).memB k i = m.memB k i := by
  have hcell : k = n → i ≠ 0x1F0 ∧ i ≠ 0x1F1 ∧ i ≠ 7 := by rintro rfl; simpa using h
  unfold feCells
  rw [memB_setMem_frame _ _ hn (by decide) hk hi fun hkn => by have := hcell hkn; omega,
    memB_setMem_frame _ _ hn (by decide) hk hi fun hkn => by have := hcell hkn; omega]

end

/-- FE_ALARM of a slot whose following error stands: flag, latch and event, and nothing else (R105). -/
theorem feAlarm_completes (s : State) (n : Fin 1024) (h : feStands n s.mod) :
    completes (.feAlarm n) s fun m =>
      bit (m.memN n 0x1F0 2) 6 = true ∧ (∀ j, j ≠ 6 → bit (m.memN n 0x1F0 2) j = bit (s.mod.memN n 0x1F0 2) j) ∧
      (∀ j, j < 8 → bit (m.memN n 7 1) j = (bit (s.mod.memN n 7 1) j ||
        decide ((s.mod.cfg (Ent.loopFeAction n) = 1 ∧ j = 2) ∨ (s.mod.cfg (Ent.loopFeAction n) = 2 ∧ j = 3)))) ∧
      (∀ k i, k < 1024 → i < 512 → (k, i) ∉ [(n.val, 0x1F0), (n.val, 0x1F1), (n.val, 7)] → m.memB k i = s.mod.memB k i) ∧
      m.pi = s.mod.pi ∧ m.funcs = s.mod.funcs ∧ m.slotRun n = s.mod.slotRun n ∧
      ∃ x e, m = settle x ∧ x.agate.raised = s.mod.agate.raised ++ [e] ∧ e.source = n.val ∧ e.code = 0x0303 ∧
        e.epoch = (s.mod.slotRun n).epoch := by
  obtain ⟨e, hepoch⟩ : ∃ e, (s.mod.slotRun n).epoch = some e := by
    obtain ⟨-, -, hrun, -⟩ := h
    exact Option.ne_none_iff_exists'.mp hrun
  have hloop : (settle (feReach n s.mod)).loop = (feCells n s.mod).loop := by
    rw [settle_loop, feReach_of_stands h, raiseEpoch_loop]
  refine ⟨settle (feReach n s.mod), exec_feAlarm n s, ?_, fun j hj => ?_, fun j _ => ?_, fun k i hk hi hki => ?_, ?_, ?_, ?_,
    feReach n s.mod, ⟨n, 0x0303, notLocked (feCells n s.mod), (feCells n s.mod).now, some e, padTo 28 (slotBody (feCells n s.mod) n)⟩,
    rfl, ?_, rfl, rfl, hepoch.symm⟩
  · rw [memN_congr hloop, memN_feCells_flags s.mod n.isLt, bit_lor, bit_flFE]
    simp
  · rw [memN_congr hloop, memN_feCells_flags s.mod n.isLt, bit_lor, bit_flFE]
    simp [hj]
  · rw [memN_congr hloop, memN_feCells_latches s.mod n.isLt, bit_lor, bit_feLatch]
  · rw [memB_congr hloop, memB_feCells_frame s.mod n.isLt hk hi hki]
  · rw [settle_pi, feReach_of_stands h, raiseEpoch_pi, feCells_pi]
  · rw [settle_funcs, feReach_of_stands h, raiseEpoch_funcs, feCells_funcs]
  · rw [slotRun_congr hloop, slotRun_feCells]
  · rw [feReach_of_stands h, raiseEpoch_raised, feCells_agate, hepoch]
    rfl

end Sys2Proof.Machine
end

section
/-! ### Runs of Slate: HOOK_EXIT_EVALUATION and STAGE_BUILD_COMPLETE (R185, R189) -/

namespace Sys2Proof.Machine

/-! #### The cycle of the tick (log 11) -/

/-- A command that names its cycle moves the tick and the time counter. -/
theorem toCycle_eq_with_tick_time (c : Nat) (m : Module) :
    ∃ t d, toCycle c m = { m with tick := { m.tick with cycle := d }, time := t } := by
  unfold toCycle
  split
  · exact ⟨_, c, rfl⟩
  · exact ⟨m.time, m.tick.cycle, rfl⟩

/-! #### A run's record -/

@[simp] theorem rrun_modRun_same (r : Nat) (f : Run → Run) (m : Module) : (modRun r f m).rrun r = f (m.rrun r) :=
  Sparse.get_mod_same _ _ _ _

theorem rrun_modRun_ne {r q : Nat} (f : Run → Run) (m : Module) (h : q ≠ r) : (modRun r f m).rrun q = m.rrun q :=
  Sparse.get_mod_ne _ _ _ h

@[simp] theorem rrun_bump (k r : Nat) (m : Module) : (m.bump k).rrun r = m.rrun r := rfl

@[simp] theorem rrun_settle (m : Module) (r : Nat) : (settle m).rrun r = m.rrun r := by
  unfold Module.rrun; rw [settle_slate]

/-- `m'` has the exits of run `r`, the other runs, the words and the functions of `m`, and every count but those of staged entries. -/
structure KeepsExits (r : Nat) (m m' : Module) : Prop where
  pi : m'.pi = m.pi
  funcs : m'.funcs = m.funcs
  others : ∀ q, q ≠ r → m'.rrun q = m.rrun q
  quals : (m'.rrun r).quals = (m.rrun r).quals
  results : (m'.rrun r).results = (m.rrun r).results
  stat : ∀ k, k ≠ Ent.slateEntriesUsed → k ≠ Ent.slateEntriesPeak → m'.stat k = m.stat k

theorem KeepsExits.refl (r : Nat) (m : Module) : KeepsExits r m m := ⟨rfl, rfl, fun _ _ => rfl, rfl, rfl, fun _ _ _ => rfl⟩

theorem KeepsExits.trans {r : Nat} {a b c : Module} (h : KeepsExits r a b) (g : KeepsExits r b c) : KeepsExits r a c where
  pi := g.pi.trans h.pi
  funcs := g.funcs.trans h.funcs
  others q hq := (g.others q hq).trans (h.others q hq)
  quals := g.quals.trans h.quals
  results := g.results.trans h.results
  stat k hu hp := (g.stat k hu hp).trans (h.stat k hu hp)

theorem keepsExits_modRun {r : Nat} {f : Run → Run} (m : Module) (hq : (f (m.rrun r)).quals = (m.rrun r).quals)
    (hr : (f (m.rrun r)).results = (m.rrun r).results) : KeepsExits r m (modRun r f m) where
  pi := rfl
  funcs := rfl
  others _ h := rrun_modRun_ne f m h
  quals := by rw [rrun_modRun_same, hq]
  results := by rw [rrun_modRun_same, hr]
  stat _ _ _ := rfl

theorem keepsExits_setStat (r v : Nat) {k : Nat} (m : Module) (hk : k = Ent.slateEntriesUsed ∨ k = Ent.slateEntriesPeak) :
    KeepsExits r m (m.setStat k v) :=
  ⟨rfl, rfl, fun _ _ => rfl, rfl, rfl, fun _ hu hp => stat_setStat_ne v m fun h => hk.elim (hu <| h.trans ·) (hp <| h.trans ·)⟩

theorem keepsExits_countEntries (r : Nat) (m : Module) : KeepsExits r m (countEntries m) := by
  have hused := keepsExits_setStat r (entriesUsed m) m (.inl rfl)
  unfold countEntries Module.peak
  dsimp only
  split
  · exact hused.trans (keepsExits_setStat r _ _ (.inr rfl))
  · exact hused

/-- Which stages wait to be built is no matter of the exits. -/
theorem keepsExits_building (r : Nat) (l : List (Nat × Stage)) (m : Module) :
    KeepsExits r m { m with slate := { m.slate with building := l } } :=
  ⟨rfl, rfl, fun _ _ => rfl, rfl, rfl, fun _ _ _ => rfl⟩

/-- Queueing a stage counts entries and puts the stage in its place, and evaluates no exit. -/
theorem keepsExits_queueStage (r : Nat) (st : Stage) (m : Module) : KeepsExits r m (queueStage r st m) :=
  ((keepsExits_modRun m rfl rfl).trans (keepsExits_building r _ _)).trans (keepsExits_countEntries r _)

/-- A step that resolves notes where it leads and stages it; its exits stay as evaluated (R186, R192). -/
theorem keepsExits_tryResolve (r c : Nat) (m : Module) : KeepsExits r m (tryResolve r c m) := by
  unfold tryResolve
  dsimp only
  split
  · exact .refl r m
  · split
    · split
      · split
        · exact keepsExits_modRun m rfl rfl
        · exact (keepsExits_modRun m rfl rfl).trans (keepsExits_queueStage r _ _)
      · exact keepsExits_modRun m rfl rfl
    · exact .refl r m

/-! #### One exit evaluated (R185) -/

/-- The QUAL count of exit `i` after an evaluation of its term. -/
def qualAfter (x : Run) (i : Nat) (value : Bool) : Nat := if value = true then min 65535 (x.quals.getD i 0 + 1) else 0

theorem quals_evalExit (r i : Nat) (value : Bool) (m : Module) :
    ((evalExit r i value m).rrun r).quals = (m.rrun r).quals.set i (qualAfter (m.rrun r) i value) := by
  unfold evalExit
  rw [rrun_modRun_same]
  rfl

theorem results_evalExit {r k : Nat} (i : Nat) (value : Bool) {m : Module} (hstep : (m.rrun r).step = some k) :
    ((evalExit r i value m).rrun r).results = (m.rrun r).results.set i
      (some (decide ((rcExit (m.cfgB (Ent.recipeImage r)) k i).qual ≤ qualAfter (m.rrun r) i value))) := by
  unfold evalExit
  rw [rrun_modRun_same, hstep]
  rfl

theorem rrun_evalExit_ne {r q : Nat} (i : Nat) (value : Bool) (m : Module) (h : q ≠ r) :
    (evalExit r i value m).rrun q = m.rrun q := rrun_modRun_ne _ _ h

@[simp] theorem evalExit_pi (r i : Nat) (value : Bool) (m : Module) : (evalExit r i value m).pi = m.pi := rfl
@[simp] theorem evalExit_funcs (r i : Nat) (value : Bool) (m : Module) : (evalExit r i value m).funcs = m.funcs := rfl
@[simp] theorem evalExit_stat (r i : Nat) (value : Bool) (m : Module) (k : Nat) : (evalExit r i value m).stat k = m.stat k := rfl

/-! #### HOOK_EXIT_EVALUATION (R185) -/

theorem not_standby_of_solo {m : Module} (h : solo m) : m.standby = false := by
  unfold Module.standby; rw [show m.red.st = 0 from h]; rfl

theorem sendDecision_of_solo {m : Module} (e : Nat) (d : Decision) (h : solo m) : sendDecision e d m = m := by
  unfold sendDecision Module.lockstep; rw [show m.red.st = 0 from h]; rfl

/-- A hook that is due is evaluated, or is late, by its cycle against the group's phase. -/
theorem hookEvaluate_of_due {m : Module} {r i cycle e now k : Nat} (h : hookDue m r i cycle e now k) :
    hookEvaluate r i cycle m =
      if m.cfg (Ent.groupPhase (rcGroup (m.cfgB (Ent.recipeImage r)))) < (now - e) * 4000 + cycle + 82 then
        (evalExit r i false m).bump (Ent.recipeLateHooks r)
      else tryResolve r ((now - e) * 4000 + cycle + 1)
        (evalExit r i (exitTerm m (m.rrun r) (rcGroup (m.cfgB (Ent.recipeImage r))) e (rcExit (m.cfgB (Ent.recipeImage r)) k i)) m) := by
  obtain ⟨hsolo, htick, hepoch, hstep, heval, hopen, -, hhook, -, -, hsignal⟩ := h
  have hsolo' : solo ((evalExit r i false m).bump (Ent.recipeLateHooks r)) := hsolo
  unfold hookEvaluate
  simp only [hstep, hepoch, htick, heval, hopen, List.contains_iff_mem.mpr hsignal, not_standby_of_solo hsolo,
    sendDecision_of_solo _ _ hsolo']
  rw [if_neg (by simpa using hhook)]
  simp

/-- Without a running epoch, an evaluation under way, an open exit or a signal, a hook evaluates nothing. -/
theorem hookEvaluate_of_quiet {m : Module} {r i : Nat} (cycle : Nat)
    (h : m.tick.epoch = none ∨ (m.rrun r).evaluating = false ∨ (m.rrun r).results[i]? ≠ some none ∨ m.disp.hooks = []) :
    hookEvaluate r i cycle m = m := by
  unfold hookEvaluate
  dsimp only
  split
  · next k e now hstep hepoch htick =>
    rw [if_pos]
    rcases h with h | h | h | h
    · rw [h] at htick; exact absurd htick (Option.some_ne_none now).symm
    · simp [h]
    · simp [h]
    · simp [h]
  · rfl

theorem exec_hookExitEvaluation (r : Fin 64) (i : Fin 8) (cycle : Nat) (s : State) :
    exec (.hookExitEvaluation r i cycle) s = .next { s with mod := settle (hookEvaluate r i cycle (toCycle cycle s.mod)) } := rfl

/-- The hook is evaluated in a module of which only the cycle and the time counter have moved. -/
theorem exec_hookExitEvaluation_moved (r : Fin 64) (i : Fin 8) (cycle : Nat) (s : State) :
    ∃ t d, exec (.hookExitEvaluation r i cycle) s = .next { s with
      mod := settle (hookEvaluate r i cycle { s.mod with tick := { s.mod.tick with cycle := d }, time := t }) } := by
  obtain ⟨t, d, hcycle⟩ := toCycle_eq_with_tick_time cycle s.mod
  exact ⟨t, d, by rw [exec_hookExitEvaluation, hcycle]⟩

/-- The count of late hooks is none of the recorder's, nor of the staged entries. -/
theorem recipeLateHooks_ne (r : Fin 64) : Ent.recipeLateHooks r ∉ recordKeys ∧
    Ent.recipeLateHooks r ≠ Ent.slateEntriesUsed ∧ Ent.recipeLateHooks r ≠ Ent.slateEntriesPeak := by
  revert r; decide

section
variable {m : Module} {r : Fin 64} {i : Fin 8} {cycle e now k : Nat} (h : hookDue m r i cycle e now k)
include h

/-- By cycle Φ - 82 the exit takes its term's value, and nothing but its run moves. -/
theorem hookEvaluate_in_time
    (hc : (now - e) * 4000 + cycle + 82 ≤ m.cfg (Ent.groupPhase (rcGroup (m.cfgB (Ent.recipeImage r))))) :
    let bs := m.cfgB (Ent.recipeImage r)
    let n := qualAfter (m.rrun r) i (exitTerm m (m.rrun r) (rcGroup bs) e (rcExit bs k i))
    let m' := settle (hookEvaluate r i cycle m)
    (m'.rrun r).quals = (m.rrun r).quals.set i n ∧
      (m'.rrun r).results = (m.rrun r).results.set i (some (decide ((rcExit bs k i).qual ≤ n))) ∧ m'.pi = m.pi ∧
      m'.funcs = m.funcs ∧ (∀ q, q ≠ r.val → m'.rrun q = m.rrun q) ∧
      m'.stat (Ent.recipeLateHooks r) = m.stat (Ent.recipeLateHooks r) := by
  have heval := hookEvaluate_of_due h
  rw [if_neg (Nat.not_lt.mpr hc)] at heval
  obtain ⟨-, -, -, hstep, -⟩ := h
  obtain ⟨hrecords, hused, hpeak⟩ := recipeLateHooks_ne r
  have hkeeps := heval ▸ keepsExits_tryResolve r _ _
  refine ⟨?_, ?_, ?_, ?_, fun q hq => ?_, ?_⟩
  · rw [rrun_settle, hkeeps.quals, quals_evalExit]
  · rw [rrun_settle, hkeeps.results, results_evalExit _ _ hstep]
  · rw [settle_pi, hkeeps.pi, evalExit_pi]
  · rw [settle_funcs, hkeeps.funcs, evalExit_funcs]
  · rw [rrun_settle, hkeeps.others q hq, rrun_evalExit_ne _ _ _ hq]
  · rw [settle_stat _ hrecords, hkeeps.stat _ hused hpeak, evalExit_stat]

/-- After cycle Φ - 82 the exit counts from 0 again, and the hook is late. -/
theorem hookEvaluate_late
    (hc : m.cfg (Ent.groupPhase (rcGroup (m.cfgB (Ent.recipeImage r)))) < (now - e) * 4000 + cycle + 82) :
    let m' := settle (hookEvaluate r i cycle m)
    (m'.rrun r).quals = (m.rrun r).quals.set i 0 ∧ m'.pi = m.pi ∧ m'.funcs = m.funcs ∧
      (∀ q, q ≠ r.val → m'.rrun q = m.rrun q) ∧
      m'.stat (Ent.recipeLateHooks r) = countedBy 1 (Ent.recipeLateHooks r) m := by
  obtain ⟨hrecords, -, -⟩ := recipeLateHooks_ne r
  rw [hookEvaluate_of_due h, if_pos hc]
  refine ⟨?_, ?_, ?_, fun q hq => ?_, ?_⟩
  · rw [rrun_settle, rrun_bump, quals_evalExit]
    rfl
  · rw [settle_pi, Module.bump_pi, evalExit_pi]
  · rw [settle_funcs, Module.bump_funcs, evalExit_funcs]
  · rw [rrun_settle, rrun_bump, rrun_evalExit_ne _ _ _ hq]
  · rw [settle_stat _ hrecords, stat_bump_same, evalExit_stat]
    rfl

end

/-- Without a signal, a running epoch or an evaluation under way, only the cycle of the tick moves. -/
theorem hookExitEvaluation_quiet (s : State) (r : Fin 64) (i : Fin 8) (cycle : Nat)
    (h : s.mod.tick.epoch = none ∨ (s.mod.rrun r).evaluating = false ∨ (s.mod.rrun r).results[i.val]? ≠ some none ∨ s.mod.disp.hooks = []) :
    completes (.hookExitEvaluation r i cycle) s (after [] (toCycle cycle s.mod)) := by
  obtain ⟨t, d, hcycle⟩ := toCycle_eq_with_tick_time cycle s.mod
  refine ⟨_, exec_hookExitEvaluation r i cycle s, ?_⟩
  rw [hookEvaluate_of_quiet cycle (by rw [hcycle]; exact h)]
  exact after_nil_settle _

/-! #### STAGE_BUILD_COMPLETE (R189) -/

theorem length_mapFirst {α : Type} (p : α → Bool) (f : α → α) (l : List α) : (mapFirst p f l).length = l.length := by
  induction l with
  | nil => rfl
  | cons a l ih =>
    unfold mapFirst
    split
    · rfl
    · rw [List.length_cons, ih, List.length_cons]

/-- An element that does not meet the condition stays. -/
theorem mem_mapFirst_of_not {α : Type} {p : α → Bool} {f : α → α} {l : List α} {y : α} (hp : p y = false) (hy : y ∈ l) :
    y ∈ mapFirst p f l := by
  induction l with
  | nil => exact hy
  | cons a l ih =>
    unfold mapFirst
    split
    · next ha =>
      obtain rfl | hl := List.mem_cons.mp hy
      · rw [hp] at ha; exact absurd ha Bool.false_ne_true
      · exact List.mem_cons_of_mem _ hl
    · exact List.mem_cons.mpr ((List.mem_cons.mp hy).imp_right ih)

/-- The one value that meets the condition stands mapped, where it stood at all. -/
theorem map_mem_mapFirst {α : Type} {p : α → Bool} {f : α → α} {l : List α} {y : α} (hp : ∀ a, p a = true ↔ a = y) (hy : y ∈ l) :
    f y ∈ mapFirst p f l := by
  induction l with
  | nil => exact absurd hy List.not_mem_nil
  | cons a l ih =>
    unfold mapFirst
    split
    · next ha => rw [(hp a).mp ha]; exact List.mem_cons_self
    · next ha =>
      obtain rfl | hl := List.mem_cons.mp hy
      · exact absurd ((hp y).mpr rfl) ha
      · exact List.mem_cons_of_mem _ (ih hl)

theorem exec_stageBuildComplete (s : State) : exec .stageBuildComplete s = .next { s with mod := stageBuilt s.mod } := rfl

theorem stageBuilt_of_nil {m : Module} (h : m.slate.building = []) : stageBuilt m = m := by
  unfold stageBuilt; rw [h]

/-- The stage first in order leaves the order of building and stands built in its run. -/
theorem stageBuilt_of_cons {m : Module} {r : Nat} {st : Stage} {rest : List (Nat × Stage)} (h : m.slate.building = (r, st) :: rest) :
    stageBuilt m =
      modRun r (fun x => { x with stages := mapFirst (fun y => y == st) (fun y => { y with built := true }) x.stages })
        { m with slate := { m.slate with building := rest } } := by
  unfold stageBuilt; rw [h]

/-- The stage first in order is built; every other stage and run stays (R189). -/
theorem stageBuildComplete_completes (s : State) {r : Nat} {st : Stage} {rest : List (Nat × Stage)}
    (h : s.mod.slate.building = (r, st) :: rest) :
    completes .stageBuildComplete s fun m =>
      m = { s.mod with slate := m.slate } ∧ m.slate = { s.mod.slate with runs := m.slate.runs, building := rest } ∧
      (∀ q, q ≠ r → m.rrun q = s.mod.rrun q) ∧ m.rrun r = { s.mod.rrun r with stages := (m.rrun r).stages } ∧
      (m.rrun r).stages.length = (s.mod.rrun r).stages.length ∧
      (st ∈ (s.mod.rrun r).stages → { st with built := true } ∈ (m.rrun r).stages) ∧
      ∀ y ∈ (s.mod.rrun r).stages, y ≠ st → y ∈ (m.rrun r).stages := by
  refine ⟨_, exec_stageBuildComplete s, ?_⟩
  rw [stageBuilt_of_cons h]
  dsimp only
  rw [rrun_modRun_same]
  refine ⟨rfl, rfl, fun q hq => rrun_modRun_ne _ _ hq, rfl, length_mapFirst _ _ _, fun hst => ?_, fun y hy hne => ?_⟩
  · exact map_mem_mapFirst (f := fun y : Stage => { y with built := true }) (fun _ => beq_iff_eq) hst
  · exact mem_mapFirst_of_not (beq_eq_false_iff_ne.mpr hne) hy

/-- Settles O54, event by event: where its condition stands, what its operation does is a lemma above;
where it does not, the operation leaves the module as it is. -/
theorem alarmsHooksAndStages : Obligations.AlarmsHooksAndStages := by
  refine ⟨fun s n => ⟨fun hdue => ?_, fun hdue => ?_⟩, fun s n => ⟨fun hdue => ?_, fun hdue => ?_⟩,
    fun s r i cycle e now k h => ⟨fun hc => ?_, fun hc => ?_⟩, fun s r i cycle h => ?_, fun s => ⟨fun h => ?_, fun r st rest h => ?_⟩⟩
  · exact ⟨_, exec_overrunAction n s, overrunReach_of_falls hdue⟩
  · exact ⟨_, exec_overrunAction n s, overrunReach_of_not_falls hdue⟩
  · exact feAlarm_completes s n hdue
  · refine ⟨_, exec_feAlarm n s, ?_⟩
    rw [feReach_of_not_stands hdue]
    exact after_nil_settle s.mod
  · obtain ⟨t, d, hexec⟩ := exec_hookExitEvaluation_moved r i cycle s
    exact ⟨_, hexec, hookEvaluate_in_time (m := { s.mod with tick := { s.mod.tick with cycle := d }, time := t }) h hc⟩
  · obtain ⟨t, d, hexec⟩ := exec_hookExitEvaluation_moved r i cycle s
    exact ⟨_, hexec, hookEvaluate_late (m := { s.mod with tick := { s.mod.tick with cycle := d }, time := t }) h hc⟩
  · exact hookExitEvaluation_quiet s r i cycle h
  · exact ⟨_, exec_stageBuildComplete s, stageBuilt_of_nil h⟩
  · exact stageBuildComplete_completes s h

end Sys2Proof.Machine
end

section
/-! ### A result tag taken by its consumers (R157 to R160) -/

namespace Sys2Proof.Machine

/-! #### Lanes with nothing in flight -/

theorem drainIdle_of_idleLanesEmpty {m : Module} (h : idleLanesEmpty m) : drainIdle m = m := by
  refine forL_induct (· = m) (List.range 16) rfl ?_
  rintro l hl t rfl
  split
  · next hidle =>
    unfold drainLane
    rw [h l (List.mem_range.mp hl) (Option.isNone_iff_eq_none.mp hidle)]
    rfl
  · rfl

/-! #### Counts (R518) -/

theorem stat_bump_countedBy (k : Nat) (m : Module) : (m.bump k).stat k = countedBy 1 k m := stat_bump_same k m

/-- Counts add up, the type's largest value being the last that either reaches. -/
theorem countedBy_add {a k : Nat} {m v : Module} (b : Nat) (h : v.stat k = countedBy a k m) :
    countedBy b k v = countedBy (a + b) k m := by
  unfold countedBy at *
  rw [h]
  obtain rfl | ha := Nat.eq_zero_or_pos a
  · rw [if_pos rfl, Nat.zero_add]
  · rw [if_neg (Nat.ne_of_gt ha), if_neg (show a + b ≠ 0 by omega)]
    split <;> omega

/-! #### What becoming ready leaves (R160, R168) -/

/-- `m'` is `m` but for the dispatcher's lists and the counts that readiness takes. -/
structure ReadiesOnly (m m' : Module) : Prop where
  frame : ∃ d st, m' = { m with disp := d, dict := { m.dict with stat := st } }
  stat : ∀ k, k ≠ Ent.dispReadyPeak → (∀ g, k ≠ Ent.dispGroupLastReady g) → (∀ g, k ≠ Ent.dispGroupLate g) → m'.stat k = m.stat k

theorem ReadiesOnly.refl (m : Module) : ReadiesOnly m m := ⟨⟨m.disp, m.dict.stat, rfl⟩, fun _ _ _ _ => rfl⟩

theorem ReadiesOnly.trans {a b c : Module} (h : ReadiesOnly a b) (g : ReadiesOnly b c) : ReadiesOnly a c where
  frame := by
    obtain ⟨d, st, rfl⟩ := h.frame
    obtain ⟨d', st', rfl⟩ := g.frame
    exact ⟨d', st', rfl⟩
  stat k hp hr hl := (g.stat k hp hr hl).trans (h.stat k hp hr hl)

theorem readiesOnly_disp (d : Disp) (m : Module) : ReadiesOnly m { m with disp := d } := ⟨⟨d, m.dict.stat, rfl⟩, fun _ _ _ _ => rfl⟩

theorem readiesOnly_setStat {k : Nat} (v : Nat) (m : Module)
    (hk : k = Ent.dispReadyPeak ∨ ∃ g, k = Ent.dispGroupLastReady g ∨ k = Ent.dispGroupLate g) : ReadiesOnly m (m.setStat k v) where
  frame := ⟨m.disp, (m.setStat k v).dict.stat, rfl⟩
  stat j hp hr hl := stat_setStat_ne v m fun h => by
    obtain rfl | ⟨g, rfl | rfl⟩ := hk
    · exact hp h
    · exact hr g h
    · exact hl g h

theorem readiesOnly_peak (v : Nat) (m : Module) : ReadiesOnly m (m.peak Ent.dispReadyPeak v) := by
  unfold Module.peak
  split
  · exact readiesOnly_setStat v m (.inl rfl)
  · exact .refl m

theorem readiesOnly_issueTag (d e : Nat) (m : Module) : ReadiesOnly m (issueTag d e m) := by
  unfold issueTag
  split
  · exact readiesOnly_disp _ m
  · exact .refl m

theorem readiesOnly_makeReady (delay : Nat) (i : Inst) (m : Module) : ReadiesOnly m (makeReady delay i m) := by
  have hlast := readiesOnly_setStat (min 65535 (m.absCycle + delay - i.epoch * 4000)) m (.inr ⟨i.group, .inl rfl⟩)
  unfold makeReady
  dsimp only
  split
  · exact hlast
  · split
    · exact (hlast.trans (readiesOnly_disp _ _)).trans (readiesOnly_issueTag _ _ _)
    · refine ReadiesOnly.trans ?_ (readiesOnly_peak _ _)
      refine ReadiesOnly.trans ?_ (readiesOnly_disp _ _)
      split
      · exact hlast.trans (readiesOnly_setStat _ _ (.inr ⟨i.group, .inr rfl⟩))
      · exact hlast

theorem readiesOnly_refreshReady (delay : Nat) (m : Module) : ReadiesOnly m (refreshReady delay m) :=
  forL_induct (ReadiesOnly m) _ (.refl m) fun i _ _ h => h.trans (readiesOnly_makeReady delay i _)

/-- A discarded tag is none of the counts that readiness takes. -/
theorem dispTagsDiscarded_refreshReady (delay : Nat) (m : Module) :
    (refreshReady delay m).stat Ent.dispTagsDiscarded = m.stat Ent.dispTagsDiscarded :=
  (readiesOnly_refreshReady delay m).stat _ (by decide)
    (fun g => by unfold Ent.dispTagsDiscarded Ent.dispGroupLastReady; omega)
    (fun g => by unfold Ent.dispTagsDiscarded Ent.dispGroupLate; omega)

/-! #### A tag at its addressed consumers (R159) -/

/-- An `Inst` once the consumers `cs` were offered a tag of `p`: it notes `p` once for each of them whose waiting `Inst` it is. -/
def creditTag (p : Nat) (t : BitVec 64) (cs : List Nat) (i : Inst) : Inst :=
  { i with got := i.got ++ List.replicate ((cs.filter fun c => takesTag t c i).length) p }

/-- The number of consumers among `cs` of which no `Inst` takes the tag. -/
def unclaimed (t : BitVec 64) (cs : List Nat) (l : List Inst) : Nat := (cs.filter fun c => !l.any (takesTag t c)).length

@[simp] theorem takesTag_creditTag (p : Nat) (t : BitVec 64) (cs : List Nat) (c : Nat) (i : Inst) :
    takesTag t c (creditTag p t cs i) = takesTag t c i := rfl

@[simp] theorem creditTag_nil (p : Nat) (t : BitVec 64) (i : Inst) : creditTag p t [] i = i := by simp [creditTag]

theorem creditTag_singleton (p c : Nat) (t : BitVec 64) (i : Inst) :
    creditTag p t [c] i = if takesTag t c i then { i with got := i.got ++ [p] } else i := by
  unfold creditTag
  by_cases h : takesTag t c i <;> simp [h]

theorem creditTag_cons (p c : Nat) (t : BitVec 64) (cs : List Nat) (i : Inst) :
    creditTag p t (c :: cs) i = creditTag p t cs (creditTag p t [c] i) := by
  rw [creditTag_singleton]
  unfold creditTag
  by_cases h : takesTag t c i
  · have hgot : ∀ d, takesTag t d { i with got := i.got ++ [p] } = takesTag t d i := fun _ => rfl
    simp [h, hgot, List.replicate_succ]
  · simp [h]

theorem unclaimed_cons (t : BitVec 64) (c : Nat) (cs : List Nat) (l : List Inst) :
    unclaimed t (c :: cs) l = unclaimed t [c] l + unclaimed t cs l := by
  unfold unclaimed
  rw [← List.length_append, ← List.filter_append, List.singleton_append]

/-- Noting a producer changes nothing of which tags an `Inst` takes. -/
theorem unclaimed_map_creditTag (p : Nat) (t : BitVec 64) (ds cs : List Nat) (l : List Inst) :
    unclaimed t cs (l.map (creditTag p t ds)) = unclaimed t cs l := by
  simp [unclaimed, List.any_map, Function.comp_def]

/-- An addressed consumer with a waiting `Inst` of the tag's epoch accepts the tag. -/
theorem tagToConsumer_of_taken (p : Nat) {c : Nat} {t : BitVec 64} {m : Module} (h : m.disp.insts.any (takesTag t c) = true) :
    tagToConsumer p t c m = { m with disp := { m.disp with insts := m.disp.insts.map (creditTag p t [c]) } } := by
  rw [funext (creditTag_singleton p c t)]
  exact if_pos h

/-- For an addressed consumer without one the tag is discarded. -/
theorem tagToConsumer_of_untaken (p : Nat) {c : Nat} {t : BitVec 64} {m : Module} (h : ¬ m.disp.insts.any (takesTag t c) = true) :
    tagToConsumer p t c m = m.bump Ent.dispTagsDiscarded := if_neg h

theorem map_creditTag_of_untaken (p : Nat) {c : Nat} {t : BitVec 64} {l : List Inst} (h : ¬ l.any (takesTag t c) = true) :
    l.map (creditTag p t [c]) = l := by
  refine (List.map_congr_left fun i hi => ?_).trans (List.map_id l)
  rw [creditTag_singleton, if_neg fun htakes => h (List.any_eq_true.mpr ⟨i, hi, htakes⟩)]
  rfl

/-- One addressed consumer: each `Inst` that takes the tag notes the producer, and beside them only counts move. -/
theorem tagToConsumer_eq (p c : Nat) (t : BitVec 64) (m : Module) :
    ∃ st, tagToConsumer p t c m = { m with
      disp := { m.disp with insts := m.disp.insts.map (creditTag p t [c]) }, dict := { m.dict with stat := st } } := by
  by_cases h : m.disp.insts.any (takesTag t c) = true
  · exact ⟨m.dict.stat, tagToConsumer_of_taken p h⟩
  · rw [tagToConsumer_of_untaken p h, map_creditTag_of_untaken p h]
    exact ⟨_, rfl⟩

theorem dispTagsDiscarded_tagToConsumer (p c : Nat) (t : BitVec 64) (m : Module) :
    (tagToConsumer p t c m).stat Ent.dispTagsDiscarded = countedBy (unclaimed t [c] m.disp.insts) Ent.dispTagsDiscarded m := by
  by_cases h : m.disp.insts.any (takesTag t c) = true
  · have hnone : unclaimed t [c] m.disp.insts = 0 := by simp [unclaimed, h]
    rw [tagToConsumer_of_taken p h, hnone]
    rfl
  · have hone : unclaimed t [c] m.disp.insts = 1 := by simp [unclaimed, h]
    rw [tagToConsumer_of_untaken p h, hone]
    exact stat_bump_countedBy _ m

/-- The addressed consumers, one after another. -/
theorem forL_tagToConsumer_eq (p : Nat) (t : BitVec 64) (cs : List Nat) (m : Module) :
    ∃ st, forL cs (tagToConsumer p t) m = { m with
      disp := { m.disp with insts := m.disp.insts.map (creditTag p t cs) }, dict := { m.dict with stat := st } } := by
  induction cs generalizing m with
  | nil =>
    rw [funext (creditTag_nil p t), List.map_id']
    exact ⟨m.dict.stat, rfl⟩
  | cons c cs ih =>
    obtain ⟨st, hc⟩ := tagToConsumer_eq p c t m
    obtain ⟨st', hcs⟩ := ih (tagToConsumer p t c m)
    refine ⟨st', hcs.trans ?_⟩
    rw [hc, List.map_map, funext (creditTag_cons p c t cs)]
    rfl

theorem dispTagsDiscarded_forL_tagToConsumer (p : Nat) (t : BitVec 64) (cs : List Nat) (m : Module) :
    (forL cs (tagToConsumer p t) m).stat Ent.dispTagsDiscarded =
      countedBy (unclaimed t cs m.disp.insts) Ent.dispTagsDiscarded m := by
  induction cs generalizing m with
  | nil => rfl
  | cons c cs ih =>
    have hinsts : (tagToConsumer p t c m).disp.insts = m.disp.insts.map (creditTag p t [c]) := by
      obtain ⟨st, hc⟩ := tagToConsumer_eq p c t m
      rw [hc]
    rw [unclaimed_cons, ← countedBy_add _ (dispTagsDiscarded_tagToConsumer p c t m),
      ← unclaimed_map_creditTag p t [c] cs, ← hinsts]
    exact ih (tagToConsumer p t c m)

/-! #### TAG_ACCEPT (R157 to R160) -/

/-- The tag has left its producer's path. -/
def tagGone (p : Nat) (t : BitVec 64) (m : Module) : Module := { m with disp := { m.disp with tags := m.disp.tags.erase (p, t) } }

theorem exec_tagAccept_of_idleLanesEmpty {s : State} (h : idleLanesEmpty s.mod) (p : Nat) (t : BitVec 64) :
    exec (.tagAccept p t) s = .next { s with mod := settle (tagAccept p t s.mod) } := by
  conv => rhs; rw [← drainIdle_of_idleLanesEmpty h]
  rfl

/-- A tag without its producer's descriptor, or that does not match it, is discarded. -/
theorem tagAccept_of_not_matches {p : Nat} {t : BitVec 64} {m : Module} (h : ∀ x, m.desc p = some x → tagMatches p x t = false) :
    tagAccept p t m = (tagGone p t m).bump Ent.dispTagsDiscarded := by
  unfold tagAccept
  dsimp only
  split
  · rfl
  · next x hx => rw [h x hx]; rfl

/-- A tag that matches its producer goes to the consumers that its MASK addresses. -/
theorem tagAccept_of_matches {p : Nat} {t : BitVec 64} {m : Module} {x : Desc} (hx : m.desc p = some x) (h : tagMatches p x t = true) :
    tagAccept p t m = refreshReady 1 (forL (addressedBy m p t) (tagToConsumer p t) (tagGone p t m)) := by
  unfold tagAccept
  dsimp only
  split
  · next hnone => cases hx.symm.trans hnone
  · next y hy =>
    obtain rfl : x = y := Option.some.inj (hx.symm.trans hy)
    rw [if_pos h]
    unfold addressedBy forL
    rw [List.foldl_map]
    rfl

theorem dispTagsDiscarded_not_recordKey : Ent.dispTagsDiscarded ∉ recordKeys := by decide

/-- Settles O19, by whether the tag matches its producer: a discard is counted, and else the addressed consumers take it in turn. -/
theorem tagTakenByAddressedInstances : Obligations.TagTakenByAddressedInstances := by
  intro s p t hidle
  refine ⟨_, exec_tagAccept_of_idleLanesEmpty hidle p t, ?_⟩
  dsimp only
  rw [settle_pi, settle_loop, settle_lanes, settle_disp, settle_stat _ dispTagsDiscarded_not_recordKey]
  by_cases hmatch : ∃ x, s.mod.desc p = some x ∧ tagMatches p x t = true
  · obtain ⟨x, hx, htag⟩ := hmatch
    rw [tagAccept_of_matches hx htag, dispTagsDiscarded_refreshReady, dispTagsDiscarded_forL_tagToConsumer]
    obtain ⟨st, hoffer⟩ := forL_tagToConsumer_eq p t (addressedBy s.mod p t) (tagGone p t s.mod)
    obtain ⟨d, st', hready⟩ := (readiesOnly_refreshReady 1 (forL (addressedBy s.mod p t) (tagToConsumer p t) (tagGone p t s.mod))).frame
    refine ⟨?_, ?_, ?_, fun hno => ?_, fun _ _ _ => ⟨⟨_, rfl, ?_⟩, rfl⟩⟩
    · rw [hready, hoffer]; rfl
    · rw [hready, hoffer]; rfl
    · rw [hready, hoffer]; rfl
    · exact absurd htag (Bool.eq_false_iff.mp (hno x hx))
    · rw [hoffer]; rfl
  · have hno : ∀ x, s.mod.desc p = some x → tagMatches p x t = false := fun x hx =>
      Bool.eq_false_iff.mpr fun htag => hmatch ⟨x, hx, htag⟩
    rw [tagAccept_of_not_matches hno]
    exact ⟨rfl, rfl, rfl, fun _ => ⟨rfl, stat_bump_countedBy _ _⟩, fun x hx htag => absurd ⟨x, hx, htag⟩ hmatch⟩

end Sys2Proof.Machine
end

section
/-! ### Pops and the issue of operations (R115, R132, R164 to R166) -/

namespace Sys2Proof.Machine

/-! #### The order of what is ready (R164) -/

theorem deadline_le_of_instBefore {a b : Inst} (ha : a.st = .ready) (hb : b.st = .ready) (h : instBefore a b = true) :
    a.deadline ≤ b.deadline := by
  have hkeys := of_decide_eq_true h
  rw [ha, hb, List.cons_lt_cons_iff, List.cons_lt_cons_iff] at hkeys
  omega

theorem deadline_le_of_not_instBefore {a b : Inst} (ha : a.st = .ready) (hb : b.st = .ready) (h : ¬ instBefore a b = true) :
    b.deadline ≤ a.deadline := by
  refine Nat.le_of_not_lt fun hlt => h (decide_eq_true ?_)
  rw [ha, hb, List.cons_lt_cons_iff, List.cons_lt_cons_iff]
  exact .inr ⟨rfl, .inl hlt⟩

theorem firstInst_cons_of_none (i : Inst) {l : List Inst} (h : firstInst l = none) : firstInst (i :: l) = some i := by
  rw [firstInst, h]

theorem firstInst_cons_of_some (i : Inst) {l : List Inst} {j : Inst} (h : firstInst l = some j) :
    firstInst (i :: l) = some (if instBefore j i then j else i) := by
  rw [firstInst, h]
  exact (apply_ite some _ _ _).symm

theorem eq_nil_of_firstInst {l : List Inst} (h : firstInst l = none) : l = [] := by
  cases l with
  | nil => rfl
  | cons i l =>
    cases hl : firstInst l with
    | none => rw [firstInst_cons_of_none i hl] at h; cases h
    | some j => rw [firstInst_cons_of_some i hl] at h; cases h

theorem mem_of_firstInst {l : List Inst} {h : Inst} (hfirst : firstInst l = some h) : h ∈ l := by
  induction l generalizing h with
  | nil => cases hfirst
  | cons i l ih =>
    cases hl : firstInst l with
    | none =>
      rw [firstInst_cons_of_none i hl] at hfirst
      cases hfirst
      exact List.mem_cons_self
    | some j =>
      rw [firstInst_cons_of_some i hl] at hfirst
      cases hfirst
      split
      · exact List.mem_cons_of_mem i (ih hl)
      · exact List.mem_cons_self

/-- Where every `Inst` is ready, the first in order has the earliest deadline. -/
theorem deadline_le_of_firstInst {l : List Inst} {h : Inst} (hready : ∀ j ∈ l, j.st = .ready) (hfirst : firstInst l = some h) :
    ∀ j ∈ l, h.deadline ≤ j.deadline := by
  induction l generalizing h with
  | nil => cases hfirst
  | cons i l ih =>
    obtain ⟨hi, hl⟩ := List.forall_mem_cons.mp hready
    cases hrest : firstInst l with
    | none =>
      rw [firstInst_cons_of_none i hrest] at hfirst
      cases hfirst
      rw [eq_nil_of_firstInst hrest]
      simp
    | some k =>
      have hk := hl k (mem_of_firstInst hrest)
      have hle := ih hl hrest
      rw [firstInst_cons_of_some i hrest] at hfirst
      cases hfirst
      split
      · next hbefore => exact List.forall_mem_cons.mpr ⟨deadline_le_of_instBefore hk hi hbefore, hle⟩
      · next hbefore =>
        exact List.forall_mem_cons.mpr ⟨Nat.le_refl _, fun j hj => Nat.le_trans (deadline_le_of_not_instBefore hk hi hbefore) (hle j hj)⟩

/-! #### What a lane takes (R164, R165) -/

/-- Where any `Inst` is ready, the one taken is, and no ready one has an earlier deadline. -/
theorem popChoice_ready {m : Module} {l : Nat} {i : Inst} (hsome : ∃ j ∈ m.disp.insts, j.st = .ready) (h : popChoice m l = some i) :
    i.st = .ready ∧ ∀ j ∈ m.disp.insts, j.st = .ready → i.deadline ≤ j.deadline := by
  have hmem : ∀ j, j ∈ m.disp.insts.filter (fun i => i.st == .ready) ↔ j ∈ m.disp.insts ∧ j.st = .ready := by simp
  obtain ⟨r, hr, hrready⟩ := hsome
  have hcand : (m.disp.insts.filter fun i => i.st == .ready).isEmpty = false :=
    List.isEmpty_eq_false_iff_exists_mem.mpr ⟨r, (hmem r).mpr ⟨hr, hrready⟩⟩
  unfold popChoice at h
  dsimp only at h
  rw [hcand] at h
  generalize m.disp.insts.filter (fun i => i.st == .ready) = cand at hmem h
  split at h
  · cases h
  · next head hhead =>
    have hfirst := deadline_le_of_firstInst (fun j hj => ((hmem j).mp hj).2) hhead
    split at h
    · next k hk =>
      cases h
      have hin := List.mem_filter.mp (mem_of_firstInst hk)
      simp only [Bool.and_eq_true, beq_iff_eq] at hin
      obtain ⟨hin, ⟨-, hdeadline⟩, -⟩ := hin
      exact ⟨((hmem i).mp hin).2, fun j hj hst => hdeadline ▸ hfirst j ((hmem j).mpr ⟨hj, hst⟩)⟩
    · cases h
      exact ⟨((hmem i).mp (mem_of_firstInst hhead)).2, fun j hj hst => hfirst j ((hmem j).mpr ⟨hj, hst⟩)⟩

theorem popChoice_of_none {m : Module} (l : Nat) (h : ∀ j ∈ m.disp.insts, j.st ≠ .ready ∧ j.st ≠ .late) : popChoice m l = none := by
  have hready : m.disp.insts.filter (fun i => i.st == .ready) = [] :=
    List.filter_eq_nil_iff.mpr fun j hj => by simpa using (h j hj).1
  have hlate : m.disp.insts.filter (fun i => i.st == .late) = [] :=
    List.filter_eq_nil_iff.mpr fun j hj => by simpa using (h j hj).2
  unfold popChoice
  rw [hready, hlate]
  rfl

/-! #### PREFETCH_POP (R165, R166) -/

/-- A module at another cycle of its tick, with the time counter's record there. -/
def movedTo (d : Nat) (t : Time) (m : Module) : Module := { m with tick := { m.tick with cycle := d }, time := t }

theorem toCycle_eq_movedTo (c : Nat) (m : Module) : ∃ d t, toCycle c m = movedTo d t m := by
  obtain ⟨t, d, h⟩ := toCycle_eq_with_tick_time c m
  exact ⟨d, t, h⟩

theorem lane_settle (m : Module) (l : Nat) : (settle m).lane l = m.lane l := lane_congr (settle_lanes m) l

/-- A free slot takes the operation of what was chosen. -/
theorem prefetchPop_of_choice {m : Module} {l : Nat} {i : Inst} {c : OpCtx} (hfree : (m.lane l).prefetch = none)
    (hactive : m.active fnEngine = true) (hchoice : popChoice m l = some i) (hop : opOf m i = some c) :
    prefetchPop l m = (modLane l (fun x => { x with prefetch := some c })
      (setInst i.desc i.epoch (fun j => { j with st := .prefetched, popAt := m.absCycle }) m)).bump Ent.dispPops := by
  unfold prefetchPop
  simp [hfree, hactive, hchoice, hop]

theorem prefetchPop_of_nothing {m : Module} {l : Nat} (h : (m.lane l).prefetch ≠ none ∨ popChoice m l = none) : prefetchPop l m = m := by
  unfold prefetchPop
  split
  · rfl
  · next hfree =>
    have hchoice : popChoice m l = none := h.resolve_left fun hfull => hfree (by simp [Option.isSome_iff_ne_none.mpr hfull])
    rw [hchoice]

theorem exec_prefetchPop (l : Fin 16) (cycle : Nat) (s : State) :
    exec (.prefetchPop l cycle) s = .next { s with mod := settle (prefetchPop l (toCycle cycle s.mod)) } := rfl

theorem dispPops_not_recordKey : Ent.dispPops ∉ recordKeys := by decide

/-- A pop fills the lane's prefetch slot and marks the `Inst`; the other lanes, the loop slots and the process image stay. -/
theorem prefetchPop_pops {m : Module} {l : Nat} {i : Inst} {c : OpCtx} (hfree : (m.lane l).prefetch = none)
    (hactive : m.active fnEngine = true) (hchoice : popChoice m l = some i) (hop : opOf m i = some c) :
    let m' := settle (prefetchPop l m)
    (m'.lane l).prefetch = some c ∧ (∀ k, k ≠ l → m'.lane k = m.lane k) ∧
      m'.stat Ent.dispPops = countedBy 1 Ent.dispPops m ∧ m'.pi = m.pi ∧ m'.loop = m.loop ∧
      m'.disp.insts = m.disp.insts.map (fun j => if j.desc == i.desc && j.epoch == i.epoch then
        { j with st := .prefetched, popAt := m.absCycle } else j) := by
  dsimp only
  rw [prefetchPop_of_choice hfree hactive hchoice hop, settle_pi, settle_loop, settle_disp, settle_stat _ dispPops_not_recordKey]
  refine ⟨?_, fun k hk => ?_, stat_bump_countedBy _ _, rfl, rfl, rfl⟩
  · rw [lane_settle, lane_congr (Module.bump_lanes _ _), lane_modLane_same]
  · rw [lane_settle, lane_congr (Module.bump_lanes _ _), lane_modLane_ne _ _ hk]
    rfl

/-! #### OPERATION_ISSUE (R115, R132, R166) -/

/-- The lane is the home lane of the operation's slot; a MOVE has none (R165). -/
def atHome (l : Nat) (c : OpCtx) : Bool :=
  match c.slot with
  | some n => n % 16 == l
  | none => false

theorem atHome_eq_any (l : Nat) (c : OpCtx) : atHome l c = c.slot.any fun n => n % 16 == l := by
  unfold atHome
  cases c.slot <;> rfl

/-- An operation whose `Inst` has been late counts as a late run (R168). -/
def countLateRun (c : OpCtx) (m : Module) : Module :=
  if m.disp.insts.any (fun i => i.desc == c.desc && i.epoch == c.epoch && i.wasLate) then m.bump Ent.dispLateRuns else m

/-- The dispatcher's part of an issue: the `Inst` reads running, and late runs and migrations are counted. -/
def beginOp (l : Nat) (c : OpCtx) (m : Module) : Module :=
  let v := setInst c.desc c.epoch (fun i => { i with st := .running }) (countLateRun c m)
  if atHome l c then v else v.bump Ent.dispMigrations

theorem countLateRun_eq (c : OpCtx) (m : Module) : ∃ st, countLateRun c m = { m with dict := { m.dict with stat := st } } := by
  unfold countLateRun
  split
  · exact ⟨_, rfl⟩
  · exact ⟨m.dict.stat, rfl⟩

theorem dispMigrations_countLateRun (c : OpCtx) (m : Module) : (countLateRun c m).stat Ent.dispMigrations = m.stat Ent.dispMigrations := by
  unfold countLateRun
  split
  · exact stat_bump_ne m (by decide)
  · rfl

theorem beginOp_eq (l : Nat) (c : OpCtx) (m : Module) :
    ∃ st, beginOp l c m = { m with
      disp := { m.disp with insts := m.disp.insts.map fun j =>
        if j.desc == c.desc && j.epoch == c.epoch then { j with st := .running } else j }, dict := { m.dict with stat := st } } := by
  obtain ⟨st, hlate⟩ := countLateRun_eq c m
  unfold beginOp
  rw [hlate]
  dsimp only
  split
  · exact ⟨st, rfl⟩
  · exact ⟨_, rfl⟩

theorem dispMigrations_beginOp (l : Nat) (c : OpCtx) (m : Module) :
    (beginOp l c m).stat Ent.dispMigrations =
      if c.slot.any (fun n => n % 16 == l) then m.stat Ent.dispMigrations else countedBy 1 Ent.dispMigrations m := by
  rw [← atHome_eq_any]
  unfold beginOp
  dsimp only
  split
  · exact dispMigrations_countLateRun c m
  · rw [stat_bump_same]
    exact congrArg (fun v => min (v + 1) (maxOf Ent.dispMigrations)) (dispMigrations_countLateRun c m)

/-- The lane as it enters an operation at an address and a cycle: the other bank is its own (R115, R132). -/
def enterOp (c : OpCtx) (b : RegBank) (pc start : Nat) (x : Lane) : Lane :=
  ({ x with cur := !x.cur, op := some c, pc := pc, count := 0, start := start, delay := 0, target := none, rep := none,
            prefetch := none, abort := none } : Lane).modBank (!x.cur) fun _ => b

@[simp] theorem enterOp_op (c : OpCtx) (b : RegBank) (pc start : Nat) (x : Lane) : (enterOp c b pc start x).op = some c :=
  modBank_op _ _ _
@[simp] theorem enterOp_prefetch (c : OpCtx) (b : RegBank) (pc start : Nat) (x : Lane) : (enterOp c b pc start x).prefetch = none :=
  modBank_prefetch _ _ _
@[simp] theorem enterOp_count (c : OpCtx) (b : RegBank) (pc start : Nat) (x : Lane) : (enterOp c b pc start x).count = 0 := modBank_count _ _ _
@[simp] theorem enterOp_cur (c : OpCtx) (b : RegBank) (pc start : Nat) (x : Lane) : (enterOp c b pc start x).cur = !x.cur := modBank_cur _ _ _
@[simp] theorem enterOp_pc (c : OpCtx) (b : RegBank) (pc start : Nat) (x : Lane) : (enterOp c b pc start x).pc = pc := modBank_pc _ _ _

/-- The bank entered is the operation's. -/
@[simp] theorem enterOp_bank_entered (c : OpCtx) (b : RegBank) (pc start : Nat) (x : Lane) : (enterOp c b pc start x).bank (!x.cur) = b :=
  bank_modBank_same _ _ _

/-- The bank left is as it was. -/
@[simp] theorem enterOp_bank_left (c : OpCtx) (b : RegBank) (pc start : Nat) (x : Lane) :
    (enterOp c b pc start x).bank x.cur = x.bank x.cur := by
  unfold enterOp
  cases x.cur <;> rfl

theorem entryBank_eq_enteredBank (m : Module) (c : OpCtx) : entryBank m c = enteredBank m c := by
  unfold entryBank enteredBank
  cases c.slot <;> rfl

/-- A lane that runs nothing enters the operation of its prefetch slot. -/
theorem takeOp_eq {m : Module} {l : Nat} {c : OpCtx} (hidle : (m.lane l).op = none) (hfull : (m.lane l).prefetch = some c) :
    takeOp l m = modLane l (enterOp c (enteredBank m c) (entryPc m c) (m.absCycle - c.epoch * 4000)) (beginOp l c m) := by
  have htake : takeOp l m = modLane l (enterOp c (entryBank (beginOp l c m) c) (entryPc (beginOp l c m) c)
      ((beginOp l c m).absCycle - c.epoch * 4000)) (beginOp l c m) := by
    unfold takeOp
    simp only [hidle, hfull]
    rfl
  rw [htake, ← entryBank_eq_enteredBank]
  obtain ⟨st, hbegin⟩ := beginOp_eq l c m
  rw [hbegin]
  rfl

/-- A comparison value goes to the pair's records and its link alone (R432). -/
theorem makeDigest_eq (kind which epoch : Nat) (bytes : List Byte) (m : Module) :
    ∃ r o, makeDigest kind which epoch bytes m = { m with red := r, out := o } := by
  unfold makeDigest
  dsimp only
  split
  · exact ⟨m.red, m.out, rfl⟩
  · split
    · exact ⟨_, m.out, rfl⟩
    · unfold sendItpel
      split
      · exact ⟨_, _, rfl⟩
      · exact ⟨m.red, m.out, rfl⟩

theorem slotDigest_eq (n e : Nat) (m : Module) : ∃ r o, slotDigest n e m = { m with red := r, out := o } := by
  unfold slotDigest
  dsimp only
  split
  · exact makeDigest_eq _ _ _ _ _
  · exact ⟨m.red, m.out, rfl⟩

theorem pairIssue_eq (l cycle : Nat) (m : Module) :
    ∃ r o, pairIssue l cycle m = { operationIssue l cycle m with red := r, out := o } := by
  have hkeep : ∃ r o, operationIssue l cycle m = { operationIssue l cycle m with red := r, out := o } := ⟨_, _, rfl⟩
  unfold pairIssue
  dsimp only
  split
  · split
    · split
      · exact slotDigest_eq _ _ _
      · exact hkeep
    · exact hkeep
  · exact hkeep

theorem operationIssue_eq {m : Module} {l : Nat} {c : OpCtx} (cycle : Nat) (hidle : (m.lane l).op = none)
    (hhalt : (m.lane l).halted = false) (hfull : (m.lane l).prefetch = some c) :
    operationIssue l cycle m = takeOp l (toCycle cycle m) := by
  unfold operationIssue
  simp [hidle, hhalt, hfull]

theorem exec_operationIssue (l : Fin 16) (cycle : Nat) (s : State) :
    exec (.operationIssue l cycle) s = .next { s with mod := settle (pairIssue l cycle s.mod) } := rfl

theorem dispMigrations_not_recordKey : Ent.dispMigrations ∉ recordKeys := by decide

/-- The lane enters the operation, whose `Inst` reads running; the other lanes, the loop slots and the process image stay. -/
theorem takeOp_takes {m : Module} {l : Nat} {c : OpCtx} (hidle : (m.lane l).op = none) (hfull : (m.lane l).prefetch = some c) :
    (takeOp l m).lane l = enterOp c (enteredBank m c) (entryPc m c) (m.absCycle - c.epoch * 4000) (m.lane l) ∧
      (∀ k, k ≠ l → (takeOp l m).lane k = m.lane k) ∧ (takeOp l m).pi = m.pi ∧ (takeOp l m).loop = m.loop ∧
      (takeOp l m).disp.insts = m.disp.insts.map (fun j =>
        if j.desc == c.desc && j.epoch == c.epoch then { j with st := .running } else j) ∧
      (takeOp l m).stat Ent.dispMigrations =
        if c.slot.any (fun n => n % 16 == l) then m.stat Ent.dispMigrations else countedBy 1 Ent.dispMigrations m := by
  obtain ⟨st, hbegin⟩ := beginOp_eq l c m
  have hlane : ∀ k, (beginOp l c m).lane k = m.lane k := by rw [hbegin]; exact fun _ => rfl
  rw [takeOp_eq hidle hfull]
  refine ⟨?_, fun k hk => ?_, ?_, ?_, ?_, dispMigrations_beginOp l c m⟩
  · rw [lane_modLane_same, hlane]
  · rw [lane_modLane_ne _ _ hk, hlane]
  · rw [modLane_pi, hbegin]
  · rw [modLane_loop, hbegin]
  · rw [modLane_disp, hbegin]

/-- An issue takes the operation at its cycle; a pair's records and link come last. -/
theorem pairIssue_eq_takeOp {m : Module} {l : Nat} {c : OpCtx} (cycle : Nat) (hidle : (m.lane l).op = none)
    (hhalt : (m.lane l).halted = false) (hfull : (m.lane l).prefetch = some c) :
    ∃ d t r o, pairIssue l cycle m = { takeOp l (movedTo d t m) with red := r, out := o } := by
  obtain ⟨d, t, hcycle⟩ := toCycle_eq_movedTo cycle m
  obtain ⟨r, o, hpair⟩ := pairIssue_eq l cycle m
  rw [operationIssue_eq cycle hidle hhalt hfull, hcycle] at hpair
  exact ⟨d, t, r, o, hpair⟩

/-- Settles O20. A pop and an issue act in a module that the command has only `movedTo` its cycle, so what `prefetchPop` and `takeOp`
make of such a module is what the statement says of the state before. -/
theorem popAndIssue : Obligations.PopAndIssue := by
  refine ⟨fun s l cycle hfree hactive i c hchoice hop => ?_, fun s l cycle hnone => ?_, fun s l cycle c hidle hhalt hfull => ?_⟩
  · refine ⟨_, exec_prefetchPop l cycle s, ?_⟩
    obtain ⟨d, t, hcycle⟩ := toCycle_eq_movedTo cycle s.mod
    rw [hcycle] at hchoice ⊢
    obtain ⟨hlane, hothers, hpops, hpi, hloop, hinsts⟩ := prefetchPop_pops (m := movedTo d t s.mod) hfree hactive hchoice hop
    exact ⟨hlane, hothers, hpops, hpi, hloop, hinsts, fun hready => popChoice_ready hready hchoice⟩
  · refine ⟨_, exec_prefetchPop l cycle s, ?_⟩
    obtain ⟨d, t, hcycle⟩ := toCycle_eq_movedTo cycle s.mod
    have hnothing : prefetchPop l (movedTo d t s.mod) = movedTo d t s.mod :=
      prefetchPop_of_nothing (hnone.imp_right (popChoice_of_none (m := movedTo d t s.mod) l))
    rw [hcycle, hnothing]
    exact ⟨settle_disp _, settle_lanes _, settle_pi _, settle_loop _⟩
  · refine ⟨_, exec_operationIssue l cycle s, ?_⟩
    obtain ⟨d, t, r, o, hissue⟩ := pairIssue_eq_takeOp cycle hidle hhalt hfull
    rw [hissue]
    obtain ⟨hlane, hothers, hpi, hloop, hinsts, hmigrations⟩ := takeOp_takes (m := movedTo d t s.mod) hidle hfull
    generalize takeOp l (movedTo d t s.mod) = v at hlane hothers hpi hloop hinsts hmigrations ⊢
    have hentered := (lane_settle { v with red := r, out := o } l).trans hlane
    unfold laneBank
    dsimp only
    rw [hentered, enterOp_op, enterOp_prefetch, enterOp_count, enterOp_cur, enterOp_pc, enterOp_bank_entered,
      settle_stat _ dispMigrations_not_recordKey, settle_pi, settle_loop, settle_disp]
    exact ⟨rfl, rfl, rfl, rfl, rfl, enterOp_bank_left _ _ _ _ _, rfl, fun k hk => (lane_settle _ k).trans (hothers k hk), hpi,
      congrArg Loop.mem hloop, hinsts, hmigrations⟩

end Sys2Proof.Machine
end

section
/-! ### A limit trip in the segment in which STEPIN has overflowed (R249, R255, R260) -/

namespace Sys2Proof.Machine

/-- An axis whose move of one microstep ended in this segment, and whose waiting coarse steps then overflowed: the stop of STEPIN took
its kind, while the segment began in MOVING and at speed. The input limit+ has qualified. -/
def overflowedAxis : Axis :=
  { Axis.init with
    st := .stopping, kind := .stepin, stopHard := true, toFault := true, fault := 6, prof := ⟨65536, 65536, 0, 1⟩,
    before := ⟨0, 65536, 2 ^ 32, 1⟩, beforeSt := .moving, seg0 := 0, seg1 := 65536, hist := [65536], inPos := true, qualPos := 1 }

/-- Axis 0 runs as `overflowedAxis`, in a module as reset leaves it but that its limit+ is fitted, with a hard stop. -/
def overflowed : State :=
  { State.reset with mod := modAxis 0 (fun _ => overflowedAxis) (((Module.reset.modFn (fnAxis 0) fun x => { x with st := .running }).setCfg
      (Ent.axisLimitStop 0) 0x10).setCfg (Ent.axisLimitQual 0) 1) }

theorem tripDue_overflowed : tripDue false overflowed.mod 0 = true := by decide +kernel

theorem limitRamped_overflowed : limitRamped overflowed.mod 0 false = false := by decide +kernel

theorem stopsAlone_overflowed : stopsAlone overflowed.mod 0 := by
  unfold stopsAlone
  decide +kernel

/-- `redo` brings back the profile and the state of the segment's start, but not the kind: the hard stop then ends as one of STEPIN with
no microstep waiting, which leaves the speed. -/
theorem limitTrip_overflowed_keeps_speed :
    ((atInstant (fun a => limitTrip a false) (tripDue false) 0 overflowed.mod).axis 0).prof.v = 2 ^ 32 := by decide +kernel

/-- What the command leaves is what `atInstant` makes of the module, its events admitted. -/
theorem exec_limitTrip (a : Fin 32) (neg : Bool) (s : State) :
    exec (.limitTrip a neg) s = .next { s with mod := settle (atInstant (fun a => limitTrip a neg) (tripDue neg) a s.mod) } := rfl

@[simp] theorem axis_settle (m : Module) (a : Nat) : (settle m).axis a = m.axis a := by
  unfold Module.axis
  rw [settle_motion]

/-- Refutes O55: of a hard stop that acts on a segment begun in MOVING, the statement says that it leaves the axis at rest.
In the state `overflowed` the axis is of the kind of STEPIN by then, and the stop leaves its profile at the speed of the segment's start. -/
theorem not_axisInputs : ¬ Obligations.AxisInputs := by
  unfold Obligations.AxisInputs
  rintro ⟨htrip, -⟩
  obtain ⟨m, hexec, -, -, -, halone⟩ := (htrip overflowed 0 false).2 tripDue_overflowed
  obtain ⟨-, -, -, -, hhalt⟩ := halone stopsAlone_overflowed.1
  obtain ⟨-, hrest, -, -⟩ := hhalt limitRamped_overflowed stopsAlone_overflowed
  rw [exec_limitTrip] at hexec
  injection hexec with hstate
  have hm : settle (atInstant (fun a => limitTrip a false) (tripDue false) 0 overflowed.mod) = m := congrArg State.mod hstate
  have hspeed : (m.axis 0).prof.v = 2 ^ 32 := by
    rw [← hm, axis_settle]
    exact limitTrip_overflowed_keeps_speed
  exact absurd (hspeed.symm.trans hrest) (by decide)

end Sys2Proof.Machine
end

section
/-! ### The record of a port, and the frame that it may start (R317, R319 to R321) -/

namespace Sys2Proof.Machine

/-! #### A key written twice -/

theorem Sparse.erase_of_absent {α : Type} {m : Sparse α} {k : Nat} (h : ∀ e ∈ m, e.1 ≠ k) : Sparse.erase m k = m := by
  induction m with
  | nil => rfl
  | cons e l ih =>
    unfold Sparse.erase
    rw [if_neg (h e List.mem_cons_self), ih fun x hx => h x (List.mem_cons_of_mem e hx)]

theorem Sparse.erase_insert_same {α : Type} (m : Sparse α) (k : Nat) (v : α) :
    Sparse.erase (Sparse.insert k v m) k = Sparse.erase m k := by
  induction m with
  | nil => simp [Sparse.insert, Sparse.erase]
  | cons e l ih =>
    unfold Sparse.insert
    split
    · rw [Sparse.erase, if_pos rfl]
    · rw [Sparse.erase, Sparse.erase, ih]

/-- Of two writes to one key the second stands, whatever the form of the map. -/
theorem Sparse.set_set_same {α : Type} [DecidableEq α] (d : Nat → α) (m : Sparse α) (k : Nat) (v w : α) :
    Sparse.set d (Sparse.set d m k v) k w = Sparse.set d m k w := by
  have herase : Sparse.erase (Sparse.set d m k v) k = Sparse.erase m k := by
    unfold Sparse.set
    split
    · exact Sparse.erase_of_absent (Sparse.erase_absent m k)
    · rw [Sparse.erase_insert_same]
      exact Sparse.erase_of_absent (Sparse.erase_absent m k)
  unfold Sparse.set at herase ⊢
  rw [herase]

/-! #### Ports, stations and objects -/

@[simp] theorem port_modPort_same (p : Nat) (f : Port → Port) (m : Module) : (modPort p f m).port p = f (m.port p) :=
  Sparse.get_mod_same _ _ _ _

theorem port_modPort_ne {p q : Nat} (f : Port → Port) (m : Module) (h : q ≠ p) : (modPort p f m).port q = m.port q :=
  Sparse.get_mod_ne _ _ _ h

@[simp] theorem port_setStat (k v q : Nat) (m : Module) : (m.setStat k v).port q = m.port q := rfl

@[simp] theorem port_settle (m : Module) (q : Nat) : (settle m).port q = m.port q := by
  unfold Module.port
  rw [settle_ports]

@[simp] theorem station_withStation_same (x : Port) (i : Nat) (y : Station) : (withStation x i y).station i = y :=
  Sparse.get_set_same _ _ _ _

@[simp] theorem obj_withObj_same (x : Port) (o : Nat) (y : TxObj) : (withObj x o y).obj o = y := Sparse.get_set_same _ _ _ _

theorem obj_withObj_ne {o q : Nat} (x : Port) (y : TxObj) (h : q ≠ o) : (withObj x o y).obj q = x.obj q := Sparse.get_set_ne _ _ _ h

@[simp] theorem withStation_withStation (x : Port) (i : Nat) (y z : Station) :
    withStation (withStation x i y) i z = withStation x i z := by
  unfold withStation
  dsimp only
  rw [Sparse.set_set_same]

/-! #### What a port starts -/

theorem map_mapFirst_of_forall {α β : Type} (g : α → β) (c : α → Bool) (f : α → α) (h : ∀ a, g (f a) = g a) (l : List α) :
    (mapFirst c f l).map g = l.map g := by
  induction l with
  | nil => rfl
  | cons a l ih =>
    unfold mapFirst
    split
    · rw [List.map_cons, List.map_cons, h]
    · rw [List.map_cons, List.map_cons, ih]

theorem map_msg_markQueue (msg : CanMsg) (on : Bool) (q : List PendFrame) : (markQueue msg on q).map PendFrame.msg = q.map PendFrame.msg :=
  map_mapFirst_of_forall PendFrame.msg _ (fun f => { f with started := on }) (fun _ => rfl) q

theorem startsOnly_refl (x : Port) : startsOnly x x := ⟨rfl, fun _ => rfl, rfl, fun _ => ⟨rfl, rfl, rfl⟩⟩

/-- What is offered of an object is the frame that it holds. -/
def offersHeld (x : Port) (a : Offer) : Prop := ∀ o, a.2.2 = some o → (x.obj o).cur = some a.2.1

theorem offersHeld_of_objOffer {m : Module} {p o : Nat} {a : Offer} (h : objOffer m p o = some a) : offersHeld (m.port p) a := by
  unfold objOffer at h
  split at h
  · next f hf =>
    cases h
    rintro o' ⟨⟩
    exact hf
  · exact absurd h nofun

theorem offersHeld_of_none {x : Port} {a : Offer} (h : a.2.2 = none) : offersHeld x a := fun o ho => by
  rw [h] at ho
  exact absurd ho nofun

theorem mem_of_lowest {l : List Offer} {a : Offer} (h : lowest l = some a) : a ∈ l := by
  refine List.foldlRecOn (motive := fun acc => ∀ a, acc = some a → a ∈ l) l _ (fun a ha => absurd ha (Option.some_ne_none a).symm) ?_ a h
  rintro acc ih x hx a ha
  split at ha
  · next y =>
    split at ha
    · cases ha; exact hx
    · exact ih a ha
  · cases ha; exact hx

theorem offersHeld_of_lowest {m : Module} {p : Nat} {os : List Nat} {q : List Offer} (hq : ∀ a ∈ q, a.2.2 = none) {a : Offer}
    (h : lowest (os.filterMap (objOffer m p) ++ q) = some a) : offersHeld (m.port p) a := by
  obtain hobj | hqueue := List.mem_append.mp (mem_of_lowest h)
  · obtain ⟨o, -, ho⟩ := List.mem_filterMap.mp hobj
    exact offersHeld_of_objOffer ho
  · exact offersHeld_of_none (hq a hqueue)

/-- Whatever window is open, what may start of an object is the frame that it holds (R317, R320). -/
theorem offersHeld_of_candidate {m : Module} {p : Nat} {a : Offer} (h : (candidate m p).1 = some a) : offersHeld (m.port p) a := by
  have hfree : ∀ os : List Nat, lowest (os.filterMap (objOffer m p) ++
      (match queueOffer m p with | some f => [(arbKey f.msg.idw, f, none)] | none => [])) = some a → offersHeld (m.port p) a := by
    refine fun os => offersHeld_of_lowest ?_
    split
    · rintro b hb
      rw [List.mem_singleton.mp hb]
    · exact fun _ hb => absurd hb List.not_mem_nil
  unfold candidate at h
  dsimp only at h
  split at h
  · exact hfree _ h
  · split at h
    · exact offersHeld_of_objOffer h
    · exact absurd h nofun
    · split at h
      · next x hx =>
        cases h
        rw [← List.append_nil (List.filterMap _ _)] at hx
        exact offersHeld_of_lowest (fun _ hb => absurd hb List.not_mem_nil) hx
      · split at h
        · obtain ⟨f, -, rfl⟩ := Option.map_eq_some_iff.mp h
          exact offersHeld_of_none rfl
        · exact absurd h nofun
    · exact hfree _ h

/-! #### Edits of one port -/

/-- `v` is `m` with port `p` as `x` and the events `evs` waiting: no other port, and nothing else but shown values, differs. -/
structure PortEdit (p : Nat) (m : Module) (evs : List Event) (x : Port) (v : Module) : Prop where
  frame : ∃ ports stat, v = { m with
    ports := ports, agate := { m.agate with raised := evs }, dict := { m.dict with stat := stat } }
  others : ∀ q, q ≠ p → v.port q = m.port q
  port : v.port p = x

namespace PortEdit

variable {p : Nat} {m v : Module} {evs : List Event} {x : Port}

theorem refl (p : Nat) (m : Module) : PortEdit p m m.agate.raised (m.port p) m := ⟨⟨_, _, rfl⟩, fun _ _ => rfl, rfl⟩

theorem of_quiet (p : Nat) (h : m.agate.raised = []) : PortEdit p m [] (m.port p) m := h ▸ refl p m

theorem raised (h : PortEdit p m evs x v) : v.agate.raised = evs := by
  obtain ⟨⟨ports, stat, rfl⟩, -, -⟩ := h
  rfl

theorem cfg (h : PortEdit p m evs x v) : v.cfg = m.cfg := by
  obtain ⟨⟨ports, stat, rfl⟩, -, -⟩ := h
  rfl

theorem setStat (h : PortEdit p m evs x v) (k n : Nat) : PortEdit p m evs x (v.setStat k n) where
  frame := by
    obtain ⟨⟨ports, stat, rfl⟩, -, -⟩ := h
    exact ⟨_, _, rfl⟩
  others := h.others
  port := h.port

theorem bump (h : PortEdit p m evs x v) (k : Nat) : PortEdit p m evs x (v.bump k) := h.setStat k _

theorem modPort (h : PortEdit p m evs x v) (f : Port → Port) : PortEdit p m evs (f x) (modPort p f v) where
  frame := by
    obtain ⟨⟨ports, stat, rfl⟩, -, -⟩ := h
    exact ⟨_, _, rfl⟩
  others q hq := (port_modPort_ne f v hq).trans (h.others q hq)
  port := by rw [port_modPort_same, h.port]

theorem setStation (h : PortEdit p m evs x v) (i : Nat) (y : Station) : PortEdit p m evs (withStation x i y) (setStation p i y v) :=
  h.modPort fun x => withStation x i y

theorem setObj (h : PortEdit p m evs x v) (o : Nat) (y : TxObj) : PortEdit p m evs (withObj x o y) (setObj p o y v) :=
  (h.modPort fun x => withObj x o y).setStat _ _

theorem stationStats (h : PortEdit p m evs x v) (i : Nat) : PortEdit p m evs x (stationStats p i v) :=
  ((h.setStat _ _).setStat _ _).setStat _ _

theorem portStats (h : PortEdit p m evs x v) : PortEdit p m evs x (portStats p v) := by
  have hshown := ((((h.setStat (Ent.fbBusState p) (v.port p).bus).setStat (Ent.fbTec p) (v.port p).tec).setStat
    (Ent.fbRec p) (min 255 (v.port p).recv)).setStat (Ent.fbBasicCycle p) ((v.port p).basic.getD 0xFF)).setStat
    (Ent.fbQueueUsed p) (v.port p).queue.length
  unfold Machine.portStats Module.peak
  dsimp only
  split
  · exact hshown.setStat _ _
  · exact hshown

end PortEdit

/-- An event of the port waits behind the others, with the counts that the port has by then (R338). -/
theorem PortEdit.portEvent {p : Fin 8} {m v : Module} {evs : List Event} {x : Port} (h : PortEdit p m evs x v) (code which detail : Nat) :
    PortEdit p m (evs ++ [busEvent m p code which detail x]) x (portEvent p code which detail v) where
  frame := by
    obtain ⟨⟨ports, stat, rfl⟩, -, rfl⟩ := h
    refine ⟨ports, stat, ?_⟩
    unfold Machine.portEvent raise raiseAt busEvent eventNow
    rw [Nat.zero_add]
    rfl
  others := h.others
  port := h.port

/-! #### The start of a frame -/

/-- Port `x` with the frame of an object on the wire, begun at cycle `sof`. -/
def startObj (sof o : Nat) (f : PendFrame) (x : Port) : Port :=
  withObj { x with sof := sof, wire := .obj o } o { x.obj o with cur := some { f with started := true } }

/-- Port `x` with a frame of the queue on the wire, begun at cycle `sof`. -/
def startQueued (sof : Nat) (msg : CanMsg) (x : Port) : Port :=
  { x with sof := sof, wire := .queued msg, queue := markQueue msg true x.queue }

theorem startsOnly_startObj {x : Port} {o : Nat} {f : PendFrame} (sof : Nat) (hwire : x.wire = .none) (hf : (x.obj o).cur = some f) :
    startsOnly x (startObj sof o f x) := by
  refine ⟨rfl, ?_, rfl, fun o' => ?_⟩
  · rintro (h | h)
    · exact absurd (h.trans hwire) nofun
    · exact absurd hwire h
  · by_cases h : o' = o
    · subst h
      rw [startObj, obj_withObj_same, hf]
      exact ⟨rfl, rfl, rfl⟩
    · rw [startObj, obj_withObj_ne _ _ h]
      exact ⟨rfl, rfl, rfl⟩

theorem startsOnly_startQueued {x : Port} (sof : Nat) (msg : CanMsg) (hwire : x.wire = .none) : startsOnly x (startQueued sof msg x) := by
  refine ⟨rfl, ?_, map_msg_markQueue msg true x.queue, fun _ => ⟨rfl, rfl, rfl⟩⟩
  rintro (h | h)
  · exact absurd (h.trans hwire) nofun
  · exact absurd hwire h

theorem wire_of_mayStart {m : Module} {p : Nat} (h : mayStart m p = true) : (m.port p).wire = .none :=
  beq_iff_eq.mp (Bool.and_eq_true_iff.mp h).2

/-- At an opportunity the port may start a frame, and changes nothing else (R317, R319). -/
theorem PortEdit.offer {p : Nat} {m v : Module} {evs : List Event} {x : Port} (h : PortEdit p m evs x v) :
    ∃ y, startsOnly x y ∧ PortEdit p m evs y (offer p v) := by
  have hnone : startsOnly x x := startsOnly_refl x
  unfold Machine.offer
  split
  · exact ⟨x, hnone, h⟩
  · next hmay =>
    have hwire : x.wire = .none := h.port ▸ wire_of_mayStart (by simpa using hmay)
    split
    · exact ⟨x, hnone, h⟩
    · next a stop hcand =>
      have hheld : offersHeld x a := h.port ▸ offersHeld_of_candidate (by rw [hcand])
      extract_lets bound room begun
      have hbegun : PortEdit p m evs { x with sof := v.absCycle } begun := h.modPort fun y => { y with sof := v.absCycle }
      split
      · exact ⟨x, hnone, h⟩
      · split
        · next o ho =>
          dsimp only
          rw [hbegun.port]
          have hsent := (hbegun.modPort fun z => { z with wire := .obj o }).setObj o { x.obj o with cur := some { a.2.1 with started := true } }
          exact ⟨startObj v.absCycle o a.2.1 x, startsOnly_startObj v.absCycle hwire (hheld o ho), hsent⟩
        · have hsent := hbegun.modPort fun z => { z with wire := .queued a.2.1.msg, queue := markQueue a.2.1.msg true z.queue }
          exact ⟨startQueued v.absCycle a.2.1.msg x, startsOnly_startQueued v.absCycle a.2.1.msg hwire, hsent⟩

end Sys2Proof.Machine
end

section
/-! ### A frame held under an object number past the last (R309, R312, R313) -/

namespace Sys2Proof.Machine

/-- A number at which the shown status of an object of port 2 has the key of the last reception of its station 4.
A port has objects 0 to 127 (R309); no state type bounds the numbers that its record holds. -/
def strayObj : Nat := Ent.fbstLastRx 2 4 - Ent.fbObjStatus 2 0

theorem fbObjStatus_strayObj : Ent.fbObjStatus 2 strayObj = Ent.fbstLastRx 2 4 := by decide

/-- An error-active port that holds one frame, of `strayObj`. -/
def strayPort : Port :=
  { Port.init with bus := 2, objs := [(strayObj, ⟨some ⟨⟨0x55, []⟩, 0, 1, false, false, false⟩, none, 0⟩)] }

/-- A holder whose port 2 runs as `strayPort`, with station 4 of ID 123h, no matrix, and `strayObj` set up as a HOST object. -/
def strayed : State :=
  { State.reset with mod := (({ Module.reset with
      funcs := [(fnPort 2, { FuncRec.init with st := .running })], red := { Red.reset with hold := true }
      ports := [(2, strayPort)] } : Module).setCfg (Ent.fbstInId 2 4) 0x123).setCfg (Ent.fbObj 2 strayObj) (3 * 2 ^ 61) }

/-- The input frame of station 4. -/
def strayedInput : CanMsg := ⟨0x123, []⟩

theorem stationOf_strayedInput : stationOf strayed.mod 2 strayedInput.idw = some 4 := by decide +kernel

theorem fbstInLen_strayed : strayed.mod.cfg (Ent.fbstInLen 2 4) ≤ strayedInput.data.length := by decide +kernel

/-- The reception, at time 0. -/
theorem stamp_strayed : t80Wire (T80.ofNs (strayed.mod.nowNs - 0)) = 0 := by decide +kernel

/-- After the reception the port starts the frame of `strayObj`, whose status PENDING (R312) then stands where the reception's time stood. -/
theorem frameReceived_strayed_lastRx :
    (settle (frameReceived 2 strayedInput false false 0 strayed.mod)).stat (Ent.fbstLastRx 2 4) = 1 := by decide +kernel

/-- What the command leaves is what `frameReceived` makes of the module, its events admitted. -/
theorem exec_canFrameReceived (p : Fin 8) (c : CanMsg) (remote esi : Bool) (age : Nat) (s : State) :
    exec (.canFrameReceived p c remote esi age) s = .next { s with mod := settle (frameReceived p c remote esi age s.mod) } := rfl

/-- Refutes O49: of a station's frame of full length, the statement says for every state that its time of reception is shown.
In the state `strayed` the port starts a frame of `strayObj` in the same row, and by
`fbObjStatus_strayObj` that object's shown status has the same key. -/
theorem not_portFramesErrorsSleep : ¬ Obligations.PortFramesErrorsSleep := by
  unfold Obligations.PortFramesErrorsSleep
  intro h
  obtain ⟨-, -, hreceived, -⟩ := h strayed 2 rfl
  obtain ⟨m, hexec, -, hstation, -⟩ := hreceived strayedInput false false 0 (.inl ⟨.inl rfl, by decide, rfl⟩) rfl
  obtain ⟨-, hshown⟩ := hstation 4 stationOf_strayedInput rfl fbstInLen_strayed
  rw [exec_canFrameReceived] at hexec
  injection hexec with hstate
  have hm : settle (frameReceived 2 strayedInput false false 0 strayed.mod) = m := congrArg State.mod hstate
  have hone : m.stat (Ent.fbstLastRx 2 4) = 1 := by
    rw [← hm]
    exact frameReceived_strayed_lastRx
  exact absurd (hone.symm.trans (hshown.trans stamp_strayed)) (by decide)

end Sys2Proof.Machine
end

section
/-! ### Stations and windows (R310, R315, R317, R318, R327, R330) -/

namespace Sys2Proof.Machine

/-! #### Shown values and counts of a station -/

/-- The shown values of station `i` are those of its record. -/
def stationShown (p i : Nat) (m : Module) : Prop :=
  m.stat (Ent.fbstState p i) = ((m.port p).station i).st ∧ m.stat (Ent.fbstMisses p i) = ((m.port p).station i).misses ∧
    m.stat (Ent.fbstGood p i) = ((m.port p).station i).good

/-- The four entries of a station that its checks write are different ones. -/
theorem station_keys_ne (p i : Nat) :
    Ent.fbstState p i ≠ Ent.fbstMisses p i ∧ Ent.fbstState p i ≠ Ent.fbstGood p i ∧ Ent.fbstMisses p i ≠ Ent.fbstGood p i ∧
      Ent.fbstDrops p i ≠ Ent.fbstState p i ∧ Ent.fbstDrops p i ≠ Ent.fbstMisses p i ∧ Ent.fbstDrops p i ≠ Ent.fbstGood p i := by
  unfold Ent.fbstState Ent.fbstMisses Ent.fbstGood Ent.fbstDrops
  omega

theorem stationShown_stationStats (p i : Nat) (m : Module) : stationShown p i (stationStats p i m) := by
  obtain ⟨hsm, hsg, hmg, -⟩ := station_keys_ne p i
  unfold stationShown stationStats
  simp [stat_setStat, hsm, hsg, hmg]

theorem drops_stationStats (p i : Nat) (m : Module) : (stationStats p i m).stat (Ent.fbstDrops p i) = m.stat (Ent.fbstDrops p i) := by
  obtain ⟨-, -, -, hs, hm, hg⟩ := station_keys_ne p i
  unfold stationStats
  simp [stat_setStat, hs, hm, hg]

/-- No entry of a station is a counter of Agate's. -/
theorem station_keys_notMem_recordKeys (p : Fin 8) (i : Fin 32) :
    Ent.fbstState p i ∉ recordKeys ∧ Ent.fbstMisses p i ∉ recordKeys ∧ Ent.fbstGood p i ∉ recordKeys ∧ Ent.fbstDrops p i ∉ recordKeys := by
  have hp := p.isLt
  have hi := i.isLt
  simp only [recordKeys, Ent.fbstState, Ent.fbstMisses, Ent.fbstGood, Ent.fbstDrops, Ent.agateQueuePeak, Ent.agateQueueOverflow,
    Ent.agateRepeatTableFull, Ent.agateFolded, List.mem_cons, List.not_mem_nil, or_false]
  omega

theorem stationShown_settle {p : Fin 8} {i : Fin 32} {m : Module} (h : stationShown p i m) : stationShown p i (settle m) := by
  obtain ⟨hs, hm, hg, -⟩ := station_keys_notMem_recordKeys p i
  unfold stationShown
  rw [settle_stat _ hs, settle_stat _ hm, settle_stat _ hg, port_settle]
  exact h

/-! #### Lost and online (R327, R330) -/

/-- An edit of the port whose station is shown is the row of a station. -/
theorem stationRow_of_edit {p : Fin 8} {i : Fin 32} {s : State} {evs : List Event} {x : Port} {v : Module}
    (h : PortEdit p s.mod evs x v) (hshown : stationShown p i v) : stationRow p s evs x i (settle v) := by
  have hshown' := stationShown_settle hshown
  unfold stationShown at hshown'
  rw [port_settle, h.port] at hshown'
  refine ⟨⟨v, rfl, ?_, ?_⟩, fun q hq => ?_, ?_, hshown'⟩
  · obtain ⟨⟨ports, stat, rfl⟩, -, -⟩ := h
    rfl
  · obtain ⟨⟨ports, stat, rfl⟩, -, -⟩ := h
    rfl
  · rw [port_settle, h.others q hq]
  · rw [port_settle, h.port]

theorem stationLost_of_kept {p i : Nat} {m : Module}
    (h : ((m.port p).station i).st = 2 ∨ ((m.port p).station i).misses < m.cfg (Ent.fbstTimeout p i)) : stationLost p i m = m := by
  unfold stationLost
  exact if_pos h

/-- The station's record is LOST, the drop is counted, and event 0A04h is raised; without an output object no frame is DISCARDED. -/
theorem stationLost_of_due {p i : Nat} {m : Module} (hst : ((m.port p).station i).st ≠ 2)
    (hmiss : m.cfg (Ent.fbstTimeout p i) ≤ ((m.port p).station i).misses) (hout : outObject m.cfg p i = none) :
    stationLost p i m = stationStats p i (portEvent p 0x0A04 i 0
      ((setStation p i { (m.port p).station i with st := 2 } m).bump (Ent.fbstDrops p i))) := by
  have hkept : outObject ((setStation p i { (m.port p).station i with st := 2 } m).bump (Ent.fbstDrops p i)).cfg p i = none := hout
  unfold stationLost
  dsimp only at hkept ⊢
  rw [if_neg (by omega), hkept]

theorem stationOnline_of_kept {p i : Nat} {m : Module}
    (h : ((m.port p).station i).st = 1 ∨ ((m.port p).station i).good < m.cfg (Ent.fbstRejoin p i)) : stationOnline p i m = m := by
  unfold stationOnline
  exact if_pos h

theorem stationOnline_of_due {p i : Nat} {m : Module} (hst : ((m.port p).station i).st ≠ 1)
    (hgood : m.cfg (Ent.fbstRejoin p i) ≤ ((m.port p).station i).good) :
    stationOnline p i m = stationStats p i (portEvent p 0x0A05 i 0 (setStation p i { (m.port p).station i with st := 1 } m)) := by
  unfold stationOnline
  rw [if_neg (by omega)]

section
variable {p : Fin 8} {i : Fin 32} {s : State} {x : Port} {v : Module}

/-- The row in which a station without output object becomes LOST (R327, R330). -/
theorem stationRow_stationLost (h : PortEdit p s.mod [] x v) (hst : (x.station i).st ≠ 2)
    (hmiss : s.mod.cfg (Ent.fbstTimeout p i) ≤ (x.station i).misses) (hout : outObject s.mod.cfg p i = none) :
    stationRow p s [busEvent s.mod p 0x0A04 i 0 x] (withStation x i { x.station i with st := 2 }) i (settle (stationLost p i v)) := by
  have hedit := ((h.setStation i { x.station i with st := 2 }).bump (Ent.fbstDrops p i)).portEvent 0x0A04 i 0
  rw [stationLost_of_due (h.port ▸ hst) (by rw [h.port, h.cfg]; exact hmiss) (by rw [h.cfg]; exact hout), h.port]
  exact stationRow_of_edit (hedit.stationStats i) (stationShown_stationStats p i _)

/-- The row in which a station becomes ONLINE (R327). -/
theorem stationRow_stationOnline (h : PortEdit p s.mod [] x v) (hst : (x.station i).st ≠ 1)
    (hgood : s.mod.cfg (Ent.fbstRejoin p i) ≤ (x.station i).good) :
    stationRow p s [busEvent s.mod p 0x0A05 i 0 x] (withStation x i { x.station i with st := 1 }) i (settle (stationOnline p i v)) := by
  have hedit := (h.setStation i { x.station i with st := 1 }).portEvent 0x0A05 i 0
  rw [stationOnline_of_due (h.port ▸ hst) (by rw [h.port, h.cfg]; exact hgood), h.port]
  exact stationRow_of_edit (hedit.stationStats i) (stationShown_stationStats p i _)

/-- Becoming LOST is one drop of the station. -/
theorem drops_stationLost (h : PortEdit p s.mod [] x v) (hst : (x.station i).st ≠ 2)
    (hmiss : s.mod.cfg (Ent.fbstTimeout p i) ≤ (x.station i).misses) (hout : outObject s.mod.cfg p i = none) :
    (settle (stationLost p i v)).stat (Ent.fbstDrops p i) = countedBy 1 (Ent.fbstDrops p i) v := by
  obtain ⟨-, -, -, hrecord⟩ := station_keys_notMem_recordKeys p i
  rw [settle_stat _ hrecord, stationLost_of_due (h.port ▸ hst) (by rw [h.port, h.cfg]; exact hmiss) (by rw [h.cfg]; exact hout),
    drops_stationStats]
  exact stat_bump_countedBy _ _

/-! #### The check of a station (R318) -/

/-- The record of a station with a frame since its window's start. -/
def goodChecked (y : Station) : Station := { y with misses := 0, good := min 255 (y.good + 1) }

/-- The record of a station with no frame since its window's start. -/
def missChecked (y : Station) : Station := { y with misses := min 255 (y.misses + 1), good := 0 }

/-- A check first notes a good check or a miss, and shows it. -/
theorem stationCheck_eq (p i : Nat) (m : Module) : stationCheck p i m =
    if ((m.port p).station i).inWindow then
      stationOnline p i (stationStats p i (setStation p i (goodChecked ((m.port p).station i)) m))
    else stationLost p i (stationStats p i (setStation p i (missChecked ((m.port p).station i)) m)) := rfl

variable (h : PortEdit p s.mod [] x v)
include h

theorem noted_edit (y : Station) :
    PortEdit p s.mod [] (withStation x i y) (stationStats p i (setStation p i y v)) := (h.setStation i y).stationStats i

theorem stationRow_stationCheck_online (hwin : (x.station i).inWindow = true) (hst : (x.station i).st ≠ 1)
    (hgood : s.mod.cfg (Ent.fbstRejoin p i) ≤ (goodChecked (x.station i)).good) :
    stationRow p s [busEvent s.mod p 0x0A05 i 0 x] (withStation x i { goodChecked (x.station i) with st := 1 }) i
      (settle (stationCheck p i v)) := by
  have hrow := stationRow_stationOnline (i := i) (noted_edit h (goodChecked (x.station i)))
    (by rw [station_withStation_same]; exact hst) (by rw [station_withStation_same]; exact hgood)
  rw [withStation_withStation, station_withStation_same] at hrow
  rw [stationCheck_eq, h.port, if_pos hwin]
  exact hrow

theorem stationRow_stationCheck_good (hwin : (x.station i).inWindow = true)
    (hkept : (x.station i).st = 1 ∨ (goodChecked (x.station i)).good < s.mod.cfg (Ent.fbstRejoin p i)) :
    stationRow p s [] (withStation x i (goodChecked (x.station i))) i (settle (stationCheck p i v)) := by
  have hnoted := noted_edit (i := i) h (goodChecked (x.station i))
  rw [stationCheck_eq, h.port, if_pos hwin,
    stationOnline_of_kept (by rw [hnoted.port, hnoted.cfg, station_withStation_same]; exact hkept)]
  exact stationRow_of_edit hnoted (stationShown_stationStats p i _)

theorem stationRow_stationCheck_lost (hwin : (x.station i).inWindow = false) (hst : (x.station i).st ≠ 2)
    (hmiss : s.mod.cfg (Ent.fbstTimeout p i) ≤ (missChecked (x.station i)).misses) (hout : outObject s.mod.cfg p i = none) :
    stationRow p s [busEvent s.mod p 0x0A04 i 0 x] (withStation x i { missChecked (x.station i) with st := 2 }) i
      (settle (stationCheck p i v)) := by
  have hrow := stationRow_stationLost (i := i) (noted_edit h (missChecked (x.station i)))
    (by rw [station_withStation_same]; exact hst) (by rw [station_withStation_same]; exact hmiss) hout
  rw [withStation_withStation, station_withStation_same] at hrow
  rw [stationCheck_eq, h.port, if_neg (Bool.eq_false_iff.mp hwin)]
  exact hrow

theorem stationRow_stationCheck_miss (hwin : (x.station i).inWindow = false)
    (hkept : (x.station i).st = 2 ∨ (missChecked (x.station i)).misses < s.mod.cfg (Ent.fbstTimeout p i)) :
    stationRow p s [] (withStation x i (missChecked (x.station i))) i (settle (stationCheck p i v)) := by
  have hnoted := noted_edit (i := i) h (missChecked (x.station i))
  rw [stationCheck_eq, h.port, if_neg (Bool.eq_false_iff.mp hwin),
    stationLost_of_kept (by rw [hnoted.port, hnoted.cfg, station_withStation_same]; exact hkept)]
  exact stationRow_of_edit hnoted (stationShown_stationStats p i _)

end

/-! #### STATION_LOST, STATION_ONLINE and STATION_WINDOW_CHECK -/

theorem exec_stationLost (p : Fin 8) (i : Fin 32) (s : State) : exec (.stationLost p i) s =
    .next { s with mod := settle (if portUp s.mod p then stationLost p i s.mod else s.mod) } := rfl

theorem exec_stationOnline (p : Fin 8) (i : Fin 32) (s : State) : exec (.stationOnline p i) s =
    .next { s with mod := settle (if portUp s.mod p then stationOnline p i s.mod else s.mod) } := rfl

theorem exec_stationWindowCheck (p : Fin 8) (i : Fin 32) (s : State) : exec (.stationWindowCheck p i) s =
    .next { s with mod := settle (windowCheck p i s.mod) } := rfl

/-- Port `x` with station `i` no longer due for a check. -/
def checkTaken (x : Port) (i : Nat) : Port := { x with checkDue := x.checkDue.filter (fun j => j != i) }

/-- A station is checked where its window has ended, by the holder, with the port up and awake (R318, R331, R430). -/
def checkStands (m : Module) (p i : Nat) : Prop :=
  portUp m p = true ∧ m.holder = true ∧ (m.port p).bus ≠ 6 ∧ i ∈ (m.port p).checkDue

theorem windowCheck_of_stands {m : Module} {p i : Nat} (h : checkStands m p i) :
    windowCheck p i m = stationCheck p i (modPort p (fun x => checkTaken x i) m) := by
  obtain ⟨hup, hholder, hbus, hdue⟩ := h
  unfold windowCheck
  rw [if_pos (by simp [hup, hholder, hbus, hdue])]
  rfl

theorem windowCheck_of_not_stands {m : Module} {p i : Nat} (h : ¬ checkStands m p i) : windowCheck p i m = m := by
  unfold windowCheck
  refine if_neg fun hc => h ?_
  simp only [Bool.and_eq_true, bne_iff_ne, List.contains_iff_mem] at hc
  obtain ⟨⟨⟨hup, hholder⟩, hbus⟩, hdue⟩ := hc
  exact ⟨hup, hholder, hbus, hdue⟩

/-! #### Windows (R315, R317, R318) -/

/-- Port `x` as window `w` of basic cycle `r` opens: an EXCLUSIVE window of a station begins that station's period without a frame. -/
def windowOpened (bs : List Byte) (r w : Nat) (x : Port) : Port :=
  let i := bits (mxCell bs r w) 4 0
  if mxKind bs w = 0 ∧ cellKind (mxCell bs r w) = 2 then
    withStation { x with window := some w } i { x.station i with inWindow := false }
  else { x with window := some w }

/-- Stations due for a check by the end of window `w` of basic cycle `r`. -/
def dueByEnd (m : Module) (bs : List Byte) (r w : Nat) : List Nat :=
  if m.holder = true ∧ mxKind bs w = 0 ∧ cellKind (mxCell bs r w) = 2 then [bits (mxCell bs r w) 4 0] else []

theorem toCycle_cycle {c : Nat} {m : Module} (h : m.tick.cycle ≤ c) : (toCycle c m).tick.cycle = c := by
  unfold toCycle
  split
  · rfl
  · omega

/-- The cycle of the tick moves on, and every port stays. -/
theorem edit_toCycle (p c : Nat) (m : Module) : PortEdit p (toCycle c m) m.agate.raised (m.port p) (toCycle c m) := by
  obtain ⟨t, d, hc⟩ := toCycle_eq_with_tick_time c m
  rw [hc]
  exact .refl p _

theorem wireFailed_of_none {m : Module} {p : Nat} (h : (m.port p).wire = .none) : wireFailed p m = m := by
  unfold wireFailed onWire
  rw [h]

theorem exec_windowStart (p : Fin 8) (w : Nat) (s : State) : exec (.windowStart p w) s =
    .next { s with mod := settle (windowStart p w s.mod) } := rfl

theorem exec_windowEnd (p : Fin 8) (w : Nat) (s : State) : exec (.windowEnd p w) s =
    .next { s with mod := settle (windowEnd p w s.mod) } := rfl

section
variable {m : Module} {p e r w : Nat}

/-- A window other than the first opens in its tick, at its cycle, and the port may start a frame. -/
theorem windowStart_of_opens {bs : List Byte} (hbs : m.cfgB (Ent.fbMatrix p) = bs) (hup : portUp m p = true) (he : m.tick.epoch = some e)
    (hr : (m.port p).basic = some r) (hw : w < mxW bs) (hfirst : w ≠ 0) (htick : windowAt bs e w / 4000 = e)
    (hcycle : m.tick.cycle ≤ windowAt bs e w % 4000) :
    ∃ x, startsOnly (windowOpened bs r w (m.port p)) x ∧
      PortEdit p (toCycle (windowAt bs e w % 4000) m) m.agate.raised x (windowStart p w m) := by
  generalize ht : windowAt bs e w = t at htick hcycle ⊢
  unfold windowAt at ht
  unfold windowStart
  rw [he, hr]
  dsimp only
  rw [hbs, ht, if_neg (by simp [hup, hw, htick, hcycle]), if_neg (by simp [hfirst])]
  have hset := (edit_toCycle p (t % 4000) m).modPort fun x => { x with window := some w }
  refine (PortEdit.offer (x := windowOpened bs r w (m.port p)) ?_).imp fun x ⟨hx, hedit⟩ => ⟨hx, hedit.portStats⟩
  unfold windowOpened
  split
  · next hcell =>
    rw [if_pos (by simpa using hcell.symm), hset.port]
    exact hset.setStation _ _
  · next hcell =>
    rw [if_neg (by simpa [and_comm] using hcell)]
    exact hset

theorem windowStart_of_none (h : portUp m p = false ∨ m.tick.epoch = none ∨ (m.port p).basic = none ∨ mxW (m.cfgB (Ent.fbMatrix p)) ≤ w) :
    windowStart p w m = m := by
  unfold windowStart
  dsimp only
  split
  · next e r he hr =>
    refine if_pos ?_
    have hnot : portUp m p = false ∨ mxW (m.cfgB (Ent.fbMatrix p)) ≤ w := by simpa [he, hr] using h
    obtain hup | hw := hnot
    · simp [hup]
    · simp [Nat.not_lt.mpr hw]
  · rfl

theorem windowEnd_of_other (h : (m.port p).window ≠ some w ∨ (m.port p).basic = none) : windowEnd p w m = m := by
  unfold windowEnd
  dsimp only
  split
  · next v r hv hr =>
    refine if_pos ?_
    simpa [hv, hr] using h
  · rfl

/-- With nothing on the wire and no object named, the end of a window closes it, makes its station due, and the port may start a frame. -/
theorem windowEnd_of_open {bs : List Byte} (hbs : m.cfgB (Ent.fbMatrix p) = bs) (hv : (m.port p).window = some w)
    (hr : (m.port p).basic = some r) (hwire : (m.port p).wire = .none) (hobj : windowObj bs r w = none) :
    ∃ x, startsOnly { m.port p with window := none, checkDue := (m.port p).checkDue ++ dueByEnd m bs r w } x ∧
      PortEdit p m m.agate.raised x (windowEnd p w m) := by
  have hdue : (if m.holder && mxKind bs w == 0 && cellKind (mxCell bs r w) == 2 then [bits (mxCell bs r w) 4 0] else []) =
      dueByEnd m bs r w := by
    unfold dueByEnd
    simp [and_assoc]
  unfold windowEnd
  rw [hv, hr]
  dsimp only
  rw [hbs, if_neg (by simp), hobj]
  dsimp only
  rw [wireFailed_of_none hwire, ite_self, hdue]
  have hended := (PortEdit.refl p m).modPort fun x => { x with window := none, checkDue := x.checkDue ++ dueByEnd m bs r w }
  exact hended.offer.imp fun x ⟨hx, hedit⟩ => ⟨hx, hedit.portStats⟩

end

/-! #### The settled statement -/

/-- An edit of the port in which it may start a frame is the row of the port. -/
theorem busRow_of_edit {p : Fin 8} {s : State} {evs : List Event} {x y : Port} {v : Module} (hstarts : startsOnly x y)
    (h : PortEdit p s.mod evs y v) : busRow p s evs x (settle v) := by
  have hport := h.port
  have hothers := h.others
  obtain ⟨ports, stat, rfl⟩ := h.frame
  exact ⟨_, rfl, rfl, rfl, hothers, hport ▸ hstarts⟩

/-- A row that changes nothing, with no event waiting. -/
theorem completes_of_same {c : Instr} {s : State} {v : Module} (hexec : exec c s = .next { s with mod := settle v })
    (hquiet : s.mod.agate.raised = []) (hsame : v = s.mod) : completes c s (· = s.mod) := by
  refine ⟨_, hexec, ?_⟩
  rw [hsame]
  exact settle_quiet hquiet

section
variable {s : State} {p : Fin 8} {i : Fin 32} (hquiet : s.mod.agate.raised = [])
include hquiet

theorem stationLost_completes (hup : portUp s.mod p = true) (hout : outObject s.mod.cfg p i = none)
    (hst : ((s.mod.port p).station i).st ≠ 2) (hmiss : s.mod.cfg (Ent.fbstTimeout p i) ≤ ((s.mod.port p).station i).misses) :
    completes (.stationLost p i) s fun m =>
      stationRow p s [busEvent s.mod p 0x0A04 i 0 (s.mod.port p)]
        (withStation (s.mod.port p) i { (s.mod.port p).station i with st := 2 }) i m ∧
      m.stat (Ent.fbstDrops p i) = countedBy 1 (Ent.fbstDrops p i) s.mod := by
  have hself := PortEdit.of_quiet p hquiet
  refine ⟨_, exec_stationLost p i s, ?_⟩
  rw [if_pos hup]
  exact ⟨stationRow_stationLost hself hst hmiss hout, drops_stationLost hself hst hmiss hout⟩

theorem stationOnline_completes (hup : portUp s.mod p = true) (hst : ((s.mod.port p).station i).st ≠ 1)
    (hgood : s.mod.cfg (Ent.fbstRejoin p i) ≤ ((s.mod.port p).station i).good) :
    completes (.stationOnline p i) s fun m =>
      stationRow p s [busEvent s.mod p 0x0A05 i 0 (s.mod.port p)]
        (withStation (s.mod.port p) i { (s.mod.port p).station i with st := 1 }) i m := by
  refine ⟨_, exec_stationOnline p i s, ?_⟩
  rw [if_pos hup]
  exact stationRow_stationOnline (PortEdit.of_quiet p hquiet) hst hgood

theorem stationLost_keeps (h : portUp s.mod p = false ∨ ((s.mod.port p).station i).st = 2 ∨
    ((s.mod.port p).station i).misses < s.mod.cfg (Ent.fbstTimeout p i)) : completes (.stationLost p i) s (· = s.mod) := by
  refine completes_of_same (exec_stationLost p i s) hquiet ?_
  obtain hdown | hkept := h
  · exact if_neg (Bool.eq_false_iff.mp hdown)
  · rw [stationLost_of_kept hkept, ite_self]

theorem stationOnline_keeps (h : portUp s.mod p = false ∨ ((s.mod.port p).station i).st = 1 ∨
    ((s.mod.port p).station i).good < s.mod.cfg (Ent.fbstRejoin p i)) : completes (.stationOnline p i) s (· = s.mod) := by
  refine completes_of_same (exec_stationOnline p i s) hquiet ?_
  obtain hdown | hkept := h
  · exact if_neg (Bool.eq_false_iff.mp hdown)
  · rw [stationOnline_of_kept hkept, ite_self]

theorem stationWindowCheck_keeps (h : portUp s.mod p = false ∨ s.mod.holder = false ∨ (s.mod.port p).bus = 6 ∨
    i.val ∉ (s.mod.port p).checkDue) : completes (.stationWindowCheck p i) s (· = s.mod) := by
  refine completes_of_same (exec_stationWindowCheck p i s) hquiet (windowCheck_of_not_stands ?_)
  rintro ⟨hup, hholder, hbus, hdue⟩
  simp [hup, hholder, hbus, hdue] at h

/-- With a due check, the row of STATION_WINDOW_CHECK is that of one check (R318). -/
theorem stationWindowCheck_completes (hstands : checkStands s.mod p i) (hout : outObject s.mod.cfg p i = none) :
    completes (.stationWindowCheck p i) s fun m =>
      let X := s.mod.port p
      let Y := X.station i
      let Z := checkTaken X i
      (Y.inWindow = true → Y.st ≠ 1 → s.mod.cfg (Ent.fbstRejoin p i) ≤ (goodChecked Y).good →
        stationRow p s [busEvent s.mod p 0x0A05 i 0 X] (withStation Z i { goodChecked Y with st := 1 }) i m) ∧
      (Y.inWindow = true → (Y.st = 1 ∨ (goodChecked Y).good < s.mod.cfg (Ent.fbstRejoin p i)) →
        stationRow p s [] (withStation Z i (goodChecked Y)) i m) ∧
      (Y.inWindow = false → Y.st ≠ 2 → s.mod.cfg (Ent.fbstTimeout p i) ≤ (missChecked Y).misses →
        stationRow p s [busEvent s.mod p 0x0A04 i 0 X] (withStation Z i { missChecked Y with st := 2 }) i m) ∧
      (Y.inWindow = false → (Y.st = 2 ∨ (missChecked Y).misses < s.mod.cfg (Ent.fbstTimeout p i)) →
        stationRow p s [] (withStation Z i (missChecked Y)) i m) := by
  have htaken := (PortEdit.of_quiet (p : Nat) hquiet).modPort fun x => checkTaken x i
  refine ⟨_, exec_stationWindowCheck p i s, ?_⟩
  rw [windowCheck_of_stands hstands]
  exact ⟨stationRow_stationCheck_online htaken, stationRow_stationCheck_good htaken,
    fun hwin hst hmiss => stationRow_stationCheck_lost htaken hwin hst hmiss hout, stationRow_stationCheck_miss htaken⟩

/-- WINDOW_START of a window other than the first (R315, R317). -/
theorem windowStart_completes {w e r : Nat} {bs : List Byte} (hbs : s.mod.cfgB (Ent.fbMatrix p) = bs) (hup : portUp s.mod p = true)
    (he : s.mod.tick.epoch = some e) (hr : (s.mod.port p).basic = some r) (hw : w < mxW bs) (hfirst : w ≠ 0)
    (htick : windowAt bs e w / 4000 = e) (hcycle : s.mod.tick.cycle ≤ windowAt bs e w % 4000) :
    completes (.windowStart p w) s fun m =>
      startsOnly (windowOpened bs r w (s.mod.port p)) (m.port p) ∧ (∀ q : Nat, q ≠ p → m.port q = s.mod.port q) ∧
      m.tick.cycle = windowAt bs e w % 4000 ∧
      m = { s.mod with ports := m.ports, tick := m.tick, time := m.time, dict := { s.mod.dict with stat := m.dict.stat } } := by
  obtain ⟨x, hx, hedit⟩ := windowStart_of_opens hbs hup he hr hw hfirst htick hcycle
  obtain ⟨t, d, hto⟩ := toCycle_eq_with_tick_time (windowAt bs e w % 4000) s.mod
  have hraised := hedit.raised
  rw [hquiet] at hraised
  refine ⟨_, exec_windowStart p w s, ?_⟩
  rw [settle_quiet hraised]
  refine ⟨hedit.port ▸ hx, fun q hq => (hedit.others q hq).trans ?_, ?_, ?_⟩
  · rw [hto]
    rfl
  · obtain ⟨ports, stat, hframe⟩ := hedit.frame
    rw [hframe]
    exact toCycle_cycle hcycle
  · obtain ⟨ports, stat, hframe⟩ := hedit.frame
    rw [hframe, hto]

theorem windowEnd_completes {w r : Nat} {bs : List Byte} (hbs : s.mod.cfgB (Ent.fbMatrix p) = bs)
    (hv : (s.mod.port p).window = some w) (hr : (s.mod.port p).basic = some r) (hwire : (s.mod.port p).wire = .none)
    (hobj : windowObj bs r w = none) : completes (.windowEnd p w) s fun m =>
      busRow p s [] { s.mod.port p with window := none, checkDue := (s.mod.port p).checkDue ++ dueByEnd s.mod bs r w } m := by
  obtain ⟨x, hx, hedit⟩ := windowEnd_of_open hbs hv hr hwire hobj
  rw [hquiet] at hedit
  exact ⟨_, exec_windowEnd p w s, busRow_of_edit hx hedit⟩

end

/-- Settles O50: each row is a command that edits the record of one port (`PortEdit`), its station then shown or its frame offered. -/
theorem windowsAndStations : Obligations.WindowsAndStations := by
  unfold Obligations.WindowsAndStations
  intro s p i hquiet X Y T J bs
  refine ⟨fun hup hout => ⟨?_, ?_, ?_⟩, stationLost_keeps hquiet, stationOnline_keeps hquiet, stationWindowCheck_keeps hquiet, ?_, ?_, ?_, ?_⟩
  · exact stationLost_completes hquiet hup hout
  · exact stationOnline_completes hquiet hup
  · exact fun hbus hholder hdue => stationWindowCheck_completes hquiet ⟨hup, hholder, hbus, hdue⟩ hout
  · exact fun w e r => windowStart_completes hquiet rfl
  · exact fun w h => completes_of_same (exec_windowStart p w s) hquiet (windowStart_of_none h)
  · exact fun w r => windowEnd_completes hquiet rfl
  · exact fun w h => completes_of_same (exec_windowEnd p w s) hquiet (windowEnd_of_other h)

end Sys2Proof.Machine
end
